-- ==== Sys2Proof/Word.lean ====
section
/-! DEFINITION. The words of the BTM: bytes, 32-bit register words, and the identifiers of R12 and R35. -/

namespace Sys2Proof

/-- A byte is 8 bits (units table of 00_scope.md). -/
abbrev Byte := BitVec 8

/-- A register is 32 bits wide (R445); a status word is 32 bits wide (R10). -/
abbrev Word := BitVec 32

/-- Die 0-7 of the package (R35). -/
abbrev Die := BitVec 3

/-- Cluster 0-15 of a die (R14). -/
abbrev Cluster := BitVec 4

/-- Die core number 0-511 (R14). -/
abbrev CoreNo := BitVec 9

/-- Host window 0-15, which is a tenancy number (R325). -/
abbrev Win := BitVec 4

/-- Bank of the package: TA[32:17], that is die, cluster and bank (R35). -/
abbrev BankNo := BitVec 16

/-- Folio of the package: TA[32:12] (R35). -/
abbrev FolioNo := BitVec 21

/-- Tensor address (R35). -/
abbrev TA := BitVec 33

/-- Stream context ID: die, cluster, context slot (R12). -/
abbrev CtxId := BitVec 18

/-- Segment ID of a die (R131). -/
abbrev SegId := BitVec 16

/-- A map from numbers to values as plain data: entries in rising order of key. Its operations stand in
Machine/Maps.lean. -/
abbrev SMap (α : Type) := List (Nat × α)

end Sys2Proof
end

