-- ==== Sys2Proof/Syntax.lean ====
section
/-! DEFINITION. The commands of the BTM, one constructor per row of spec/opcode_table.json, and the types of their
operands. The table names no operand fields; the operands are the model's (INVENTORY.md, Instructions). -/

namespace Sys2Proof

/-- The slot a supervisor command was given in: a command slot of a host window (R395), a window's side slot (R405), or
the STREAM_CMD slot of a core (R464). -/
inductive CmdSrc where
  | slot (d : Die) (win : Win) (n : BitVec 6)
  | side (d : Die) (win : Win)
  | core (d : Die) (core : CoreNo)
deriving DecidableEq, Repr

/-- The carrel read ports and write port of a core (R73), in the order in which the switch grants them. -/
inductive OwnerPort where
  | ra | rb | w
deriving DecidableEq, Repr

/-- What a plain access names: a tensor address, or a store window and an offset (R80). -/
inductive AccessTarget where
  | ta (a : TA)
  | window (handle : BitVec 20) (off : BitVec 48)
deriving DecidableEq, Repr

/-- How an access enters a host window: from the host port or from a steward core (R325). -/
inductive HostVia where
  | host
  | steward (s : BitVec 3)
deriving DecidableEq, Repr

/-- The class of a transfer (R93). -/
inductive SlotClass where
  | read | write | remote
deriving DecidableEq, Repr

/-- Who writes CARREL_CTL (R78). -/
inductive CarrelWriter where
  | core (core : CoreNo)
  | window (win : Win)
deriving DecidableEq, Repr

/-- Who writes a register without a row of its own: a host window in supervisor space (R445), or a core in its hall page
(R464). -/
inductive RegWriter where
  | window (win : Win)
  | core (core : CoreNo)
deriving DecidableEq, Repr

/-- The registers of an outbound window (R263). -/
inductive RwinReg where
  | cfg | peer | ext
deriving DecidableEq, Repr

/-- Who writes RIN_HEAD (R273). -/
inductive RinWriter where
  | window (win : Win)
  | core (core : CoreNo)
deriving DecidableEq, Repr

/-- A remote message (R272): the header's fields, the payload, and for a sealed message its IV and tag (R288). -/
structure RemoteMsg where
  kind : BitVec 8
  sealedFlag : Bool
  snode : BitVec 16
  sdie : BitVec 8
  ddie : BitVec 8
  dnode : BitVec 16
  swin : BitVec 16
  dwin : BitVec 16
  epoch : BitVec 16
  acc : BitVec 16
  offset : BitVec 48
  len : BitVec 16
  code : BitVec 8
  detail : BitVec 16
  payload : List Byte
  iv : List Byte
  tag : List Byte
deriving DecidableEq, Repr

/-- What a cross-check of a pair found (R312, R313): the units' outputs match; they differ once and match in both
repeats; they differ and a repeat differs too. -/
inductive XchkOutcome where
  | agree | transient | persistent
deriving DecidableEq, Repr

/-- How a scan ended (R315, R316). -/
inductive ScanOutcome where
  | pass
  | fail (pattern : BitVec 16)
  | patternBad
  | noFlash
deriving DecidableEq, Repr

/-- How a start-up phase ended (R419, R420): it completed, or failed with FAIL 1-5; `record` says whether the repair
record verified (R385); `level` is what the listener heard of the package's level (R421). -/
inductive BootOutcome where
  | ok (record : Bool)
  | fail (reason : BitVec 4)
deriving DecidableEq, Repr

/-- What a march operation's reads answered (R375, R376): whether every read gave the value its element expects. -/
inductive MarchReads where
  | good | bad
deriving DecidableEq, Repr

/-- The package beacon (R426). -/
structure Beacon where
  sender : Die
  frame : Nat
  level : BitVec 2
  changing : Bool
  openDies : BitVec 8
deriving DecidableEq, Repr

/-- The commands: one constructor per row of spec/opcode_table.json. Each cites its row's rule. -/
inductive Instr where
  /-- FRAME_START. R91: frame cc 0 of a new frame arrives on every segment of the package. -/
  | frameStart
  /-- REG_WINDOW_EDGE. R125: the edge of a regulation window. -/
  | regWindowEdge
  /-- POSITION_DECISION. R98: the decision cycle of position `k` on the segments of die `d`. -/
  | positionDecision (d : Die) (k : BitVec 7)
  /-- VISITOR_DECISION. R468: the visitor grant cycle of the window at position `k` of a core port. -/
  | visitorDecision (d : Die) (core : CoreNo) (k : BitVec 7)
  /-- CARREL_SWITCH_GRANT. R73: the carrel switch grants an owner port. -/
  | carrelSwitchGrant (d : Die) (core : CoreNo) (port : OwnerPort)
  /-- RING_PLAN_COLLECT. R99: a ring stop collects its cross-die requests at the end of a frame. -/
  | ringPlanCollect (d : Die)
  /-- RING_PLAN_IN_FORCE. R99: the plan of the collected requests comes into force. -/
  | ringPlanInForce
  /-- SLOT_DELIVERED. R102: a granted slot reaches its delivery point. -/
  | slotDelivered (id : Nat)
  /-- PLAIN_ACCESS_REQUEST. R93: a core issues a plain load or store. -/
  | plainAccessRequest (d : Die) (core : CoreNo) (port : OwnerPort) (write : Bool) (target : AccessTarget) (len : Nat) (data : List Byte)
  /-- HOST_WINDOW_ACCESS. R64: a host-window or steward access to a tensor address. -/
  | hostWindowAccess (d : Die) (via : HostVia) (win : Win) (write : Bool) (ta : TA) (len : Nat) (data : List Byte)
  /-- REGISTER_WRITE. R449: a host window writes a register, or a core a register of its hall page (R464). -/
  | registerWrite (d : Die) (writer : RegWriter) (off : Word) (val : Word)
  /-- REGISTER_PAIR_WRITE. R448: a host window writes one half of a register pair. -/
  | registerPairWrite (d : Die) (win : Win) (off : Word) (val : Word)
  /-- BANK_OWN_WRITE. R43: a write to BANK_OWN of the bank TA[29:17]. -/
  | bankOwnWrite (d : Die) (win : Win) (bank : BitVec 13) (val : Word)
  /-- HANDOVER_TAGS_IN_FORCE. R44: cycle 9 of a hand-over that keeps TEN. -/
  | handoverTagsInForce (bank : BankNo)
  /-- WEED_PHASE1_END. R347: cycle 25 of a weeding. -/
  | weedPhase1End (bank : BankNo)
  /-- WEED_ZERO_ROW. R348: the zeroing pass takes its next line. -/
  | weedZeroRow (bank : BankNo)
  /-- CAT_ALLOC. R52: the command that makes a catalogue entry. -/
  | catAlloc (src : CmdSrc)
  /-- FOLIO_CLASS_CLEAR. R50: a folio's class changes and its valid bits are cleared. -/
  | folioClassClear (folio : FolioNo)
  /-- CAT_ENTRY_IN_FORCE. R57: the entry of a CAT_ALLOC comes into force. -/
  | catEntryInForce (src : CmdSrc)
  /-- CAT_FREE. R57: the command that frees an entry. -/
  | catFree (src : CmdSrc)
  /-- CAT_UPDATE. R58: the command that changes EPOCH and MCG. -/
  | catUpdate (src : CmdSrc)
  /-- WIN_SYNC. R61: the command that drops a window's descriptors. -/
  | winSync (src : CmdSrc)
  /-- WIN_SYNC_DONE. R61: the translator has dropped them. -/
  | winSyncDone (src : CmdSrc)
  /-- TRANSLATOR_FILL. R61: the descriptor read of a waiting window transfer completes. -/
  | translatorFill (id : Nat)
  /-- CARREL_CACHE_ENTER. R81: a write of MODE = 1 to CARREL_CTL. -/
  | carrelCacheEnter (d : Die) (core : CoreNo) (writer : CarrelWriter) (val : Word)
  /-- CARREL_CACHE_EXIT. R85: a write of MODE = 0 to CARREL_CTL. -/
  | carrelCacheExit (d : Die) (core : CoreNo) (writer : CarrelWriter) (val : Word)
  /-- CARREL_CLEAR_END. R72: the 16-cc clear of carrel bank 3 ends. -/
  | carrelClearEnd (d : Die) (core : CoreNo)
  /-- BANK_WAKE_END. R87: the 64-cc wake of a bank ends. -/
  | bankWakeEnd (bank : BankNo)
  /-- MERGE_ENTRY_DUE. R157: an OPEN merge entry reaches its age. -/
  | mergeEntryDue (entry : Nat)
  /-- MERGE_FLUSH. R88: a due merge entry is written back. -/
  | mergeFlush (entry : Nat)
  /-- MERGE_FLUSH_ALL. R161: a write of MERGE_CTL with FLUSH = 1. -/
  | mergeFlushAll (d : Die) (win : Win) (cluster : Cluster) (val : Word)
  /-- COLLATION_READ. R148: a collation reads its next line. -/
  | collationRead (folio : FolioNo)
  /-- COLLATION_DONE. R148: a collation becomes READY or FAILED. -/
  | collationDone (folio : FolioNo)
  /-- COLLATION_ENTRY_DROP. R149: an entry unused for 4,096 cc is dropped. -/
  | collationEntryDrop (folio : FolioNo)
  /-- SEAL_PARITY_WRITE. R167: the parity pass writes its next line. -/
  | sealParityWrite (folio : FolioNo)
  /-- BANK_REMAP_WRITE. R169: a write to BANK_REMAP_n. -/
  | bankRemapWrite (d : Die) (win : Win) (bank : BitVec 13) (n : BitVec 2) (val : Word)
  /-- REMAP_COPY. R169: the line is copied to its spare row. -/
  | remapCopy (bank : BankNo) (n : BitVec 2)
  /-- RAW_READ. R170: RAW_CMD with OP READ. -/
  | rawRead (d : Die) (win : Win)
  /-- RAW_WRITE. R170: RAW_CMD with OP WRITE. -/
  | rawWrite (d : Die) (win : Win)
  /-- RAW_SEALMARK. R170: RAW_CMD with OP SEALMARK. -/
  | rawSealmark (d : Die) (win : Win)
  /-- RAW_OP_EXECUTE. R170: the requested raw operation is carried out. -/
  | rawOpExecute (d : Die)
  /-- BANK_ECNT_CLR. R171: a write of BANK_ECNT with CLR = 1. -/
  | bankEcntClr (d : Die) (win : Win) (bank : BitVec 13)
  /-- SEGMENT_FREEZE. R113: a write to a segment control register. -/
  | segmentFreeze (d : Die) (win : Win) (seg : SegId) (val : Word)
  /-- WATCHDOG_FIRE. R115: the watchdog fires on the tenure of a class. -/
  | watchdogFire (d : Die) (seg : SegId) (cls : SlotClass)
  /-- SQUALL_POP. R132: a write of SQUALL_CTL with POP = 1. -/
  | squallPop (d : Die) (win : Win) (val : Word)
  /-- SQUALL_CLR_LOST. R132: a write of SQUALL_CTL with CLR_LOST = 1. -/
  | squallClrLost (d : Die) (win : Win) (val : Word)
  /-- PERF_SNAP. R134: a write of PERF_CTL with SNAP = 1. -/
  | perfSnap (d : Die) (win : Win) (val : Word)
  /-- PERF_CLEAR. R134: a write of PERF_CTL with CLEAR = 1. -/
  | perfClear (d : Die) (win : Win) (val : Word)
  /-- COUNTER_SNAPSHOT. R134: the counters of a die are captured and cleared. -/
  | counterSnapshot (d : Die)
  /-- POINT_TOKEN_RECEIVE. R222: a POINT token reaches its target's hall. -/
  | pointTokenReceive (token : Nat)
  /-- BARRIER_ARRIVE_RECEIVE. R117: an ARRIVE token reaches a barrier unit. -/
  | barrierArriveReceive (token : Nat)
  /-- BARRIER_RELEASE_RECEIVE. R222: a RELEASE reaches a die's barrier unit. -/
  | barrierReleaseReceive (token : Nat)
  /-- ARM. R182: the stream command ARM. -/
  | arm (src : CmdSrc)
  /-- ARM_LOAD_DONE. R182: the reads of an ARM complete. -/
  | armLoadDone (ctx : CtxId)
  /-- REARM. R194: the stream command REARM. -/
  | rearm (src : CmdSrc)
  /-- REARM_LOAD_DONE. R194: the reads of a REARM complete. -/
  | rearmLoadDone (ctx : CtxId)
  /-- HALT. R191: the stream command HALT. -/
  | halt (src : CmdSrc)
  /-- RESUME. R192: the stream command RESUME. -/
  | resume (src : CmdSrc)
  /-- ABORT. R193: the stream command ABORT. -/
  | abort (src : CmdSrc)
  /-- QUERY. R186: the stream command QUERY. -/
  | query (src : CmdSrc)
  /-- REPLAY. R310: the command REPLAY. -/
  | replay (src : CmdSrc)
  /-- TASK_ABORT_RECEIVE. R193: a task abort arrives on a die over the service ring. -/
  | taskAbortReceive (d : Die) (task : BitVec 16) (ten : Win)
  /-- CONTEXT_START_FRAME. R183: the start frame of an ARMED context. -/
  | contextStartFrame (ctx : CtxId)
  /-- SEQUENCER_TAKE. R184: a free sequencer takes the longest-ready context. -/
  | sequencerTake (d : Die) (cluster : Cluster)
  /-- SEQUENCER_TIMESLICE. R184: a context has run 256 cc while another is ready. -/
  | sequencerTimeslice (ctx : CtxId)
  /-- END. R226: the instruction END. -/
  | endI (ctx : CtxId)
  /-- FENCE. R223: the instruction FENCE. -/
  | fence (ctx : CtxId)
  /-- EPOCH. R224: the instruction EPOCH. -/
  | epoch (ctx : CtxId)
  /-- LOOP. R207: the instruction LOOP. -/
  | loop (ctx : CtxId)
  /-- ENDL. R207: the instruction ENDL. -/
  | endl (ctx : CtxId)
  /-- BR. R207: the instruction BR. -/
  | br (ctx : CtxId)
  /-- SET. R207: the instruction SET. -/
  | setI (ctx : CtxId)
  /-- STEP. R207: the instruction STEP. -/
  | stepI (ctx : CtxId)
  /-- SETH. R207: the instruction SETH. -/
  | seth (ctx : CtxId)
  /-- EMIT. R210: the instruction EMIT places its next slot request. -/
  | emit (ctx : CtxId)
  /-- GATHER. R212: the instruction GATHER places its next request. -/
  | gather (ctx : CtxId)
  /-- SCATTER. R212: the instruction SCATTER places its next request. -/
  | scatter (ctx : CtxId)
  /-- XPOSE. R216: the instruction XPOSE places its next source request. -/
  | xpose (ctx : CtxId)
  /-- COMBINE. R218: the instruction COMBINE requests its next slot. -/
  | combine (ctx : CtxId)
  /-- SEAL. R219: the instruction SEAL requests its next slot. -/
  | seal (ctx : CtxId)
  /-- TAKE. R220: the instruction TAKE sends its operation. -/
  | take (ctx : CtxId)
  /-- GIVE. R220: the instruction GIVE sends its operation. -/
  | give (ctx : CtxId)
  /-- WAITSLIP. R221: the instruction WAITSLIP. -/
  | waitslip (ctx : CtxId)
  /-- DIGEST. R225: the instruction DIGEST. -/
  | digest (ctx : CtxId)
  /-- SIGNAL. R222: the instruction SIGNAL. -/
  | signal (ctx : CtxId)
  /-- STREAM_ILLEGAL. R227: the execution of an illegal encoding. -/
  | streamIllegal (ctx : CtxId)
  /-- WAITSLIP_RESULT_RETRY. R221: a blocked WAITSLIP RESULT tests again. -/
  | waitslipResultRetry (ctx : CtxId)
  /-- STRUCTURE_CONFIG_WRITE. R229: a write to a sharing-structure configuration register. -/
  | structureConfigWrite (d : Die) (win : Win) (off : Word) (val : Word)
  /-- QUEUE_ENGINE_OP. R233: an operation reaches its queue engine and is carried out. -/
  | queueEngineOp (op : Nat)
  /-- QUEUE_OP_STATUS_RETURN. R234: the status of an operation returns to its issuer. -/
  | queueOpStatusReturn (op : Nat)
  /-- SLIPQ_WAIT_RETRY. R242: a waiter that was not listed tries again. -/
  | slipqWaitRetry (ctx : CtxId)
  /-- QUEUE_STALL. R244: a listed waiter has waited the watchdog time. -/
  | queueStall (ctx : CtxId)
  /-- SQ_GIVE. R241: the host command SQ_GIVE. -/
  | sqGive (src : CmdSrc)
  /-- SQ_TAKE. R241: the host command SQ_TAKE. -/
  | sqTake (src : CmdSrc)
  /-- RS_POST. R256: the host command RS_POST. -/
  | rsPost (src : CmdSrc)
  /-- RS_READ. R256: the host command RS_READ. -/
  | rsRead (src : CmdSrc)
  /-- RS_CONSUME. R256: the host command RS_CONSUME. -/
  | rsConsume (src : CmdSrc)
  /-- QOP_GIVE. R258: a core writes QOP_CMD with OP GIVE. -/
  | qopGive (d : Die) (core : CoreNo) (cmd : Word)
  /-- QOP_TAKE. R258: a core writes QOP_CMD with OP TAKE. -/
  | qopTake (d : Die) (core : CoreNo) (cmd : Word)
  /-- QOP_RS_POST. R258: a core writes QOP_CMD with OP RS_POST. -/
  | qopRsPost (d : Die) (core : CoreNo) (cmd : Word)
  /-- QOP_RS_READ. R258: a core writes QOP_CMD with OP RS_READ. -/
  | qopRsRead (d : Die) (core : CoreNo) (cmd : Word)
  /-- QOP_RS_CONSUME. R258: a core writes QOP_CMD with OP RS_CONSUME. -/
  | qopRsConsume (d : Die) (core : CoreNo) (cmd : Word)
  /-- CQ_START. R247: a write of CQ_CTL with START = 1. -/
  | cqStart (d : Die) (win : Win) (cluster : Cluster) (n : BitVec 4) (val : Word)
  /-- CQ_ZEROING_DONE. R247: the region is zeroed and the round starts. -/
  | cqZeroingDone (d : Die) (cluster : Cluster) (n : BitVec 4)
  /-- COMBINE_SLOT_ARRIVE. R250: a COMBINE slot reaches the queue engine. -/
  | combineSlotArrive (id : Nat)
  /-- CQ_POST_RETRY. R252: a completion post that returned FULL is retried. -/
  | cqPostRetry (d : Die) (cluster : Cluster) (n : BitVec 4)
  /-- RWIN_CFG_WRITE. R264: a write to a register of an outbound window. -/
  | rwinCfgWrite (d : Die) (win : Win) (n : BitVec 10) (reg : RwinReg) (val : Word)
  /-- PUT_HANDOFF. R267: a PUT slot's data reaches the engine. -/
  | putHandoff (id : Nat)
  /-- GET_REQUEST_AT_ENGINE. R268: a GET slot reaches the engine. -/
  | getRequestAtEngine (id : Nat)
  /-- GETDATA_RECEIVE. R268: GETDATA for the message sent for slot `id` arrives. -/
  | getdataReceive (d : Die) (msg : RemoteMsg)
  /-- REMOTE_STATUS_RECEIVE. R292: a STATUS for the message sent for slot `id` arrives. -/
  | remoteStatusReceive (d : Die) (msg : RemoteMsg)
  /-- REMOTE_OVERDUE. R271: a remote slot has waited the watchdog time. -/
  | remoteOverdue (id : Nat)
  /-- REMOTE_MESSAGE_ARRIVE. R279: a PUT, MSG or GETREQ arrives from the link. -/
  | remoteMessageArrive (d : Die) (msg : RemoteMsg)
  /-- REMOTE_MESSAGE_STAGED. R279: a fully staged message is checked and landed or served. -/
  | remoteMessageStaged (msg : Nat)
  /-- INBOUND_WINDOW_OPEN. R274: a write of RIN_CFG with OPEN = 1. -/
  | inboundWindowOpen (d : Die) (win : Win) (n : BitVec 10) (val : Word)
  /-- INBOUND_WINDOW_CLOSE. R276: a write of RIN_CFG with OPEN = 0. -/
  | inboundWindowClose (d : Die) (win : Win) (n : BitVec 10) (val : Word)
  /-- INBOUND_CLOSE_COMPLETE. R276: no landing transfer of a CLOSING window is outstanding. -/
  | inboundCloseComplete (d : Die) (n : BitVec 10)
  /-- RIN_HEAD_WRITE. R286: a write to RIN_HEAD. -/
  | rinHeadWrite (d : Die) (writer : RinWriter) (n : BitVec 10) (val : Word)
  /-- DJOB_CFG_WRITE. R298: a write to DJOB_CFG_n. -/
  | djobCfgWrite (d : Die) (win : Win) (n : BitVec 8) (val : Word)
  /-- BALLOT_CFG_WRITE. R301: a write to BALLOT_CFG_b. -/
  | ballotCfgWrite (d : Die) (win : Win) (b : BitVec 8) (val : Word)
  /-- BALLOT_POST_ARRIVE. R302: a post reaches the home ballot unit. -/
  | ballotPostArrive (post : Nat)
  /-- BALLOT_DECIDE. R303: the ballot decides its round. -/
  | ballotDecide (d : Die) (b : BitVec 8)
  /-- BALLOT_VERDICT_RETRY. R304: a verdict post that returned FULL is retried. -/
  | ballotVerdictRetry (d : Die) (b : BitVec 8)
  /-- BALLOT_REOPEN. R304: a write of BALLOT_ODD with REOPEN = 1. -/
  | ballotReopen (d : Die) (win : Win) (b : BitVec 8)
  /-- BALLOT_STALL. R306: a round has waited the watchdog time. -/
  | ballotStall (d : Die) (b : BitVec 8)
  /-- CROSS_CHECK. R312: a pair of idle units is compared. -/
  | crossCheck (d : Die) (kind : BitVec 2) (pair : BitVec 5) (outcome : XchkOutcome)
  /-- SCAN. R314: the command SCAN. -/
  | scan (src : CmdSrc)
  /-- SCAN_COMPLETE. R316: the scan ends. -/
  | scanComplete (d : Die) (outcome : ScanOutcome)
  /-- HARDEN_FIX. R318: the voter repairs one copy of a hardened register. -/
  | hardenFix (d : Die) (off : Word) (copy : BitVec 2)
  /-- HARDEN_LOST. R319: the voter finds all three copies differing. -/
  | hardenLost (d : Die) (off : Word)
  /-- BAROMETER_SAMPLE. R320: a day boundary of package time. -/
  | barometerSample (d : Die) (margins : List Nat)
  /-- TEN_OPEN. R329: the command TEN_OPEN. -/
  | tenOpen (src : CmdSrc)
  /-- TEN_CLOSE. R329: the command TEN_CLOSE. -/
  | tenClose (src : CmdSrc)
  /-- TEN_CLOSE_DONE. R329: the last clear of a TEN_CLOSE has ended. -/
  | tenCloseDone (src : CmdSrc)
  /-- KEY_LOAD. R332: the command KEY_LOAD. -/
  | keyLoad (src : CmdSrc)
  /-- KEY_ERASE. R333: the command KEY_ERASE. -/
  | keyErase (src : CmdSrc)
  /-- ATTEST. R336: the command ATTEST. -/
  | attest (src : CmdSrc)
  /-- CERT_READ. R334: the command CERT_READ. -/
  | certRead (src : CmdSrc)
  /-- LC_PROVISION. R339: the command LC_PROVISION. -/
  | lcProvision (src : CmdSrc)
  /-- LC_DEPLOY. R339: the command LC_DEPLOY. -/
  | lcDeploy (src : CmdSrc)
  /-- LC_MAINTAIN. R339: the command LC_MAINTAIN. -/
  | lcMaintain (src : CmdSrc)
  /-- LC_RETURN. R339: the command LC_RETURN. -/
  | lcReturn (src : CmdSrc)
  /-- TAMPER_RAISE. R343: a tamper source's condition begins. -/
  | tamperRaise (d : Die) (source : BitVec 2)
  /-- TAMPER_END. R341: a tamper source's condition ends. -/
  | tamperEnd (d : Die) (source : BitVec 2)
  /-- ALARM. R345: the side command ALARM. -/
  | alarm (src : CmdSrc)
  /-- ALARM_RING_RECEIVE. R343: an action arrives over the service ring. -/
  | alarmRingReceive (d : Die) (origin : Die) (action : BitVec 2)
  /-- WEED_ALL. R348: the side command WEED-ALL. -/
  | weedAll (src : CmdSrc)
  /-- WEED_BANK. R348: the command WEED_BANK. -/
  | weedBank (src : CmdSrc)
  /-- PWR_DOWN. R354: the command PWR_DOWN with FORCE = 0. -/
  | pwrDown (src : CmdSrc)
  /-- PWR_DOWN_COMPLETE. R354: the domain's regulator is off. -/
  | pwrDownComplete (d : Die) (dom : BitVec 6)
  /-- PWR_DOWN_FORCE. R355: the side command PWR_DOWN with FORCE = 1. -/
  | pwrDownForce (src : CmdSrc)
  /-- PWR_UP. R357: the command PWR_UP. -/
  | pwrUp (src : CmdSrc)
  /-- PWR_UP_COMPLETE. R357: the domain reaches UP. -/
  | pwrUpComplete (d : Die) (dom : BitVec 6)
  /-- BANK_PWR_WRITE. R364: a write to BANK_PWR. -/
  | bankPwrWrite (d : Die) (win : Win) (bank : BitVec 13) (val : Word)
  /-- BANK_CLOCK_GATE. R361: a bank's idle count reaches GATE x 16. -/
  | bankClockGate (bank : BankNo)
  /-- BANK_SLEEP. R361: a bank's idle count reaches SLEEP x 4,096. -/
  | bankSleep (bank : BankNo)
  /-- REGULATOR_LOW_ENTRY. R366: the tick at which a regulator can enter LOW mode. -/
  | regulatorLowEntry (d : Die) (dom : BitVec 6)
  /-- BROWNOUT. R367: a regulator's output falls below 0.42 V. -/
  | brownout (d : Die) (dom : BitVec 6)
  /-- PERF_SET. R370: the command PERF_SET. -/
  | perfSet (src : CmdSrc)
  /-- PERF_CHANGE_START. R371: the level change starts on a die. -/
  | perfChangeStart (d : Die)
  /-- PERF_RAMP_DONE. R371: the voltage ramp ends. -/
  | perfRampDone (d : Die)
  /-- PERF_RELOCK_DONE. R371: the root relock ends. -/
  | perfRelockDone (d : Die)
  /-- DOZE. R372: the command DOZE. -/
  | doze (src : CmdSrc)
  /-- CLK_SWITCH. R373: the command CLK_SWITCH. -/
  | clkSwitch (src : CmdSrc)
  /-- MARCH. R378: the command MARCH. -/
  | march (src : CmdSrc)
  /-- MARCH_OPERATION. R376: a march engine performs the next operation or group on a row; `reads` is what the row answered. -/
  | marchOperation (bank : BankNo) (reads : MarchReads)
  /-- BANK_RETIRE. R382: the command BANK_RETIRE. -/
  | bankRetire (src : CmdSrc)
  /-- CORE_FENCE. R389: the command CORE_FENCE. -/
  | coreFence (src : CmdSrc)
  /-- UNFENCE. R403: the command UNFENCE. -/
  | unfence (src : CmdSrc)
  /-- CMD_GO. R396: a write of CMD_CTL or STREAM_CMD_CTL with GO = 1. -/
  | cmdGo (src : CmdSrc) (val : Word)
  /-- CMD_RELEASE. R396: a write of CMD_CTL, SIDE_CTL or STREAM_CMD_CTL with RELEASE = 1. -/
  | cmdRelease (src : CmdSrc) (val : Word)
  /-- CMD_DISPATCH. R397: the supervisor (or the hall, for a core) dispatches the slot in its turn. -/
  | cmdDispatch (src : CmdSrc)
  /-- CMD_CNT_CLR. R399: a write of CMD_CNT with CLR = 1. -/
  | cmdCntClr (d : Die) (win : Win)
  /-- SIDE_GO. R405: a write of SIDE_CTL with GO = 1. -/
  | sideGo (d : Die) (win : Win) (val : Word)
  /-- ALMANAC. R409: the side command ALMANAC. -/
  | almanac (src : CmdSrc)
  /-- ALMANAC_REMOTE_CAPTURE. R409: an almanac request arrives on die `d` over the service ring. -/
  | almanacRemoteCapture (d : Die) (origin : Die) (win : Win)
  /-- DRAIN_STAT. R408: the side command DRAIN_STAT. -/
  | drainStat (src : CmdSrc)
  /-- DIE_RESET. R416: the side command DIE_RESET. -/
  | dieReset (src : CmdSrc)
  /-- EVLOG_POP. R412: a write of EVLOG_CTL with POP = 1. -/
  | evlogPop (d : Die) (win : Win)
  /-- EVLOG_CLR_LOST. R412: a write of EVLOG_CTL with CLR_LOST = 1. -/
  | evlogClrLost (d : Die) (win : Win)
  /-- SUP_STALL. R415: the supervisor stall watchdog fires. -/
  | supStall (d : Die)
  /-- POWER_ON. R416: the supervisor-domain supply rises. -/
  | powerOn (d : Die)
  /-- CHIP_RESET. R416: the chip's host interface asserts reset. -/
  | chipReset (d : Die)
  /-- RESET_RELEASE. R419: reset is released. -/
  | resetRelease (d : Die)
  /-- BOOT_PHASE_COMPLETE. R419: a start-up phase ends, or fails with the reason given. -/
  | bootPhaseComplete (d : Die) (outcome : BootOutcome)
  /-- BEACON_LISTEN_TIMEOUT. R421: the phase-3 listening window ends without a beacon. -/
  | beaconListenTimeout (d : Die)
  /-- BEACON_RECEIVE. R426: a package beacon reaches a die. -/
  | beaconReceive (d : Die) (b : Beacon)
  /-- READY_LISTEN_TIMEOUT. R426: a ready die's listening window ends without a beacon. -/
  | readyListenTimeout (d : Die)
  /-- BEACON_MISSING. R426: the master's beacon does not arrive. -/
  | beaconMissing
  /-- BYPASS_OPEN. R426: frame cc 0 of the die's opening frame. -/
  | bypassOpen (d : Die)
  /-- DIE_ANNOUNCE_RECEIVE. R428: the other dies hear that die `d` has opened. -/
  | dieAnnounceReceive (d : Die)
  /-- RST_JOIN. R427: a write of RST_CTL with JOIN = 1. -/
  | rstJoin (d : Die) (win : Win) (val : Word)
  /-- RST_LEAVE. R429: a write of RST_CTL with LEAVE = 1. -/
  | rstLeave (d : Die) (win : Win) (val : Word)
  /-- BYPASS_CLOSE. R429: the bypass of a die closes at frame cc 0. -/
  | bypassClose (d : Die)
  /-- FW_BEGIN. R438: the command FW_BEGIN. -/
  | fwBegin (src : CmdSrc)
  /-- FW_BLOCK. R438: the command FW_BLOCK. -/
  | fwBlock (src : CmdSrc)
  /-- FW_VERIFY. R439: the command FW_VERIFY. -/
  | fwVerify (src : CmdSrc)
  /-- FW_VERIFY_DONE. R439: the verify ends. -/
  | fwVerifyDone (d : Die)
  /-- FW_QUERY. R437: the command FW_QUERY. -/
  | fwQuery (src : CmdSrc)
  /-- FW_SCHEDULE. R440: the command FW_SCHEDULE. -/
  | fwSchedule (src : CmdSrc)
  /-- FW_CANCEL. R441: the command FW_CANCEL. -/
  | fwCancel (src : CmdSrc)
  /-- FW_DISCARD. R438: the command FW_DISCARD. -/
  | fwDiscard (src : CmdSrc)
  /-- FW_POLL. R441: package time T - 10,000. -/
  | fwPoll
  /-- FW_ACTIVATE. R441: package time T. -/
  | fwActivate
  /-- POWER_LOSS. R418: the die's supply is lost. -/
  | powerLoss (d : Die)
  /-- STORE_PORT_RESPONSE. R103: the memory stack answers a store-port request. -/
  | storePortResponse (id : Nat) (data : List Byte)
  /-- RET_BANK_ENTER_OFF. R364: the tick after RETAIN is written 0 on a bank in RET. -/
  | retBankEnterOff (bank : BankNo)
  /-- LC_FUSE_PROGRAM_DONE. R339: the fuses of the new life-cycle state are programmed. -/
  | lcFuseProgramDone (d : Die)
  /-- POINT_ANSWER_RECEIVE. R222: the answer to a POINT token returns to its sender. -/
  | pointAnswerReceive (token : Nat)
  /-- BALLOT_POST_STATUS_RECEIVE. R302: the status of a ballot post returns. -/
  | ballotPostStatusReceive (post : Nat)
  /-- ALMANAC_REPLY_RECEIVE. R409: the captured summary arrives at the issuing die. -/
  | almanacReplyReceive (d : Die) (win : Win)
  /-- REGISTER_PAIR_READ. R448: a host window reads one half of a register pair. -/
  | registerPairRead (d : Die) (win : Win) (off : Word)
deriving DecidableEq, Repr

end Sys2Proof
end

