-- ==== Sys2Proof/Decode.lean ====
section
/-! DEFINITION. The reader of a table word. The opcode table gives no row any bits, so no word spells a command. -/

namespace Sys2Proof

/-- The command that the `nbits` bits `w` spell by spec/opcode_table.json. No row of the table gives bits: a command is
an event at a pin, a port or a segment, or a register write, and none of them is an encoded word (log 15). -/
def decodeTableWord (_nbits _w : Nat) : Option Instr := none

end Sys2Proof
end

