-- ==== Sys2Proof/Config.lean ====
section
/-! DEFINITION. What an implementation fixes and the manual does not compute, its keys among them, and the free values of the places
where it leaves a value open. Nothing here has a body. -/

namespace Sys2Proof.Config

/-- The ephemeral private key of the n-th draw (R331), free (log 10). -/
opaque ephemeralKey : Nat → Nat

/-- The private device key of a die, in its fuses (R334; log 10). -/
opaque deviceKey : Die → Nat

/-- The n-th nonce of a signature (R336), free (log 10). -/
opaque nonce : Nat → Nat

/-- The public firmware signing key that the boot ROM holds, X then Y (R432; log 10). -/
opaque firmwarePub : List Byte

/-- The Ralligil firmware key of the fuse array (R434; log 10). -/
opaque firmwareKey : BitVec 256

/-- SHA-384 of the boot ROM, which MEAS_0 holds (R335, R419; log 10). -/
opaque romDigest : List Byte

/-- Ralligil's JEP106 code in IDCODE[11:1], which the spec names and does not give (R393; log 54). -/
opaque jep106 : BitVec 11

/-- Whether a write of the repair record's flash fails at a draw: the flash lies outside the BTM (R385), free (log 31). -/
opaque flashFails : Nat → Bool

/-- A byte that a core gives at its aperture: outside the BTM (R203), free at every draw (log 11). -/
opaque coreByte : Nat → Byte

/-- Microseconds of package time that pass in the n-th idle cycle: the package's time unit lies outside the BTM
(R436; log 12). -/
opaque packageTimeStep : Nat → Nat

/-- Whether the junction is above 105 C at a draw: the current of a RET bank is not bounded then (R365), free (log 13). -/
opaque aboveLimit : Nat → Bool

/-- The free choice of one of n values at a draw: the order the manual leaves open (R214; log 14). -/
opaque pick : Nat → Nat → Nat

/-- By how many positions the n-th segment of a transfer's route follows its granting segment: the timing that R98
requires of a route and does not give, free for every transfer (log 8). -/
opaque routeOffset : Nat → Nat → Nat

end Sys2Proof.Config
end

