-- ==== Sys2Proof/Machine/State.lean ====
section
/-! DEFINITION. The state of the BTM of one package: every register, buffer, queue, counter and mode the manual gives it,
as plain data, and the queue of the commands that wait. INVENTORY.md lists each piece with its rule and reset value. -/

namespace Sys2Proof.Machine

open Sys2Proof

/-- The package types of R1, which give the number of dies. -/
inductive Package where
  | zarun2 | zarun4 | zarun8
deriving DecidableEq, Repr

/-! ### Banks -/

/-- A protection class with its strength (R50): `folio 0..3` is t = 16, 32, 64, 128 (R48). -/
inductive Protection where
  | byte
  | word
  | folio (strength : BitVec 2)
deriving DecidableEq, Repr

/-- The seal state of a folio (R164). -/
inductive SealState where
  | opened | sealing | sealed
deriving DecidableEq, Repr

/-- An operation that empties more than one bank or folio: TEN_CLOSE, a weeding of every bank of a die, CORE_FENCE, CAT_ALLOC.
What the merge buffer discards for it enters one event a cluster (R160). -/
inductive LostOp where
  | close (d : Die) (ten : Win) | die (d : Die) | core (d : Die) (core : CoreNo) | alloc (src : CmdSrc)
deriving DecidableEq, Repr

/-- Merge entries that an operation has discarded in a cluster of the package so far, and the tenancy of the first. -/
structure LostMerge where
  op : LostOp
  cluster : Nat
  count : Nat
  ten : Option Win
deriving DecidableEq, Repr

/-- Why a bank's valid bits are being cleared by a weeding (R346, R382), and the operation of several banks it belongs to. -/
inductive WeedCause where
  | handover (op : Option LostOp) | weed (op : Option LostOp) | retire (rcause : BitVec 2)
deriving DecidableEq, Repr

/-- A bank that grants nothing (R44, R72, R87, R347, R377): a hand-over that keeps TEN; phase 1 of a weeding with
the ownership to come, and whether a weeding gives it as its reset value (R346); a wake, from OFF or RET, by an access or not; the clear of carrel bank 3 on entry to or exit from
cache mode; a DESTRUCTIVE march. -/
inductive Pause where
  | handover
  | phase1 (own : Word) (reset : Bool) (cause : WeedCause)
  | wake (off : Bool)
  | cacheClear (entering : Bool)
  | march
deriving DecidableEq, Repr

/-- A pause in progress: its kind, the cycle it began, and the pauses that follow it in order (a weeding behind a wake). -/
structure PauseRec where
  kind : Pause
  start : Nat
  behind : List Pause
deriving DecidableEq, Repr

/-- A folio whose change of class waits for a free bank cycle (R50), and the command that waits for it. -/
structure FolioChange where
  folio : Nat
  next : Protection
  src : CmdSrc
deriving DecidableEq, Repr

/-- A raw operation waiting for a free bank cycle (R170). -/
inductive RawOp where
  | read | write | sealMark
deriving DecidableEq, Repr

/-- A raw operation that waits for its bank cycle: the line, and RAW_DATA and RAW_CHECK as they stood at its write of RAW_CMD (R170, log 30). -/
structure RawReq where
  op : RawOp
  line : Nat
  row : List (BitVec 8)
deriving DecidableEq, Repr

/-- A merge-buffer entry (R154): the line TA[32:6], 64 bytes with enables, when it was allocated, whether it is due, the writes
that pin it, and whether it is CLOSED: its flush has claimed its bank cycles. -/
structure MergeEntry where
  id : Nat
  line : Nat
  bytes : List Byte
  mask : List Bool
  born : Nat
  due : Bool
  pins : List Nat
  closed : Bool
deriving DecidableEq, Repr

/-- What reading one line found: the line, its data, corrections, uncorrectable findings, its most severe kind (R171), and
whether the merge buffer gave bytes of it (R156). -/
structure LineRead where
  line : Nat
  data : List Byte
  corr : Nat
  uncorr : Nat
  kind : Nat
  fwd : Bool
deriving DecidableEq, Repr

/-- The state of a collation entry (R148). -/
inductive CollState where
  | reading (next : Nat)
  | ready (errors : List Nat)
  | failed
deriving DecidableEq, Repr

/-- A collation entry (R149): folio, state, the rows as read, the cycle of its last use, the cycle of its last read, and the master and task of the
request that started it. -/
structure Collation where
  folio : Nat
  st : CollState
  bytes : List Byte
  used : Nat
  lastRead : Nat
  master : Nat
  task : Nat
deriving DecidableEq, Repr

/-- A seal context (R165): the stream that opened it, the folio, the next expected slot, the CRCs of the last slot taken,
and the next line of the parity pass. The running remainder is over the lines already written, so it is computed from
them. -/
structure SealCtx where
  ctx : Nat
  folio : Nat
  next : Nat
  crcs : List Nat
  parity : Option Nat
deriving DecidableEq, Repr

/-- What a carrel cache block holds (R79): a tag that names a TA block, or a window's catalogue entry and offset block,
and whether it is dirty. -/
inductive CacheTag where
  | ta (block : Nat)
  | window (handle : BitVec 20) (block : Nat)
deriving DecidableEq, Repr

structure CacheWay where
  tag : CacheTag
  dirty : Bool
deriving DecidableEq, Repr

/-- The banks' arrays and what is in progress in them. Keys: bank = TA[32:17], line = TA[32:6], folio = TA[32:12]. -/
structure BankSt where
  mem : List Host.Cell
  valid : SMap Bool
  classMap : SMap Protection
  sealMap : SMap SealState
  tags : SMap Word
  pauses : SMap PauseRec
  zeroing : SMap Nat
  folioClears : List FolioChange
  remapCopies : SMap Nat
  rawOps : SMap (List RawReq)
  lastActive : SMap Nat
  merge : List MergeEntry
  collations : List Collation
  seals : List SealCtx
  cacheWays : SMap CacheWay
  cacheLru : SMap Nat
  lost : List LostMerge
deriving DecidableEq, Repr

/-! ### Transfers and arbitration -/

/-- An end of a transfer (R202), and the ends that are not stream endpoints. -/
inductive Endp where
  | bank (ta : TA) (handle : Option (BitVec 20))
  | store (handle : BitVec 20) (off : BitVec 48)
  | core (addr : BitVec 48)
  | remote (ref : BitVec 20) (off : BitVec 48)
  | mcast (group : BitVec 9) (off : BitVec 48)
  | combining (qdie : Die) (qcl : Cluster) (qnum : BitVec 4) (off : BitVec 48) (cidx : BitVec 16)
  | requester
  | hall (d : Die) (cl : Cluster)
  | engine (d : Die)
deriving DecidableEq, Repr

/-- What a transfer is for. A `cacheAcc` is an access to a block that the carrel cache holds; a `cacheFill` and a `cacheBack`
name their block and the access that waits for them, 0 where none does (R83). -/
inductive SlotKind where
  | emit | gatherElem | scatterElem | index | xposeSrc (tile off : Nat) | xposeOut (tile : Nat) | combine | seal
  | load (off : Nat)
  | plain | host | cacheAcc (target : Endp) | cacheFill (blk acc : Nat) | cacheBack (blk acc : Nat)
  | landing (msg : Nat) | serve (msg : Nat)
deriving DecidableEq, Repr

/-- Where a transfer stands on its way. -/
inductive Stage where
  | translate      -- waits for a page descriptor (R61)
  | storeRead      -- waits for the memory stack's data (R103)
  | cached         -- waits for a block of the carrel cache, or for the end of its drain (R83, R85)
  | waiting        -- presented (`presented`), or waiting for presentation
  | planned        -- granted by a ring plan, its decision cycle to come (R99)
  | granted        -- accepted; delivered at `due`
  | storeWrite     -- waits for the memory stack's completion
  | toEngine       -- a GET whose request travels to the remote engine (R268)
  | handedOff      -- a PUT that waits for the peer (R267)
  | atPeer         -- a GET that waits for the peer (R268)
deriving DecidableEq, Repr

/-- One 256-byte transfer (R100, R189). `ident` is the package master identity (R107). `status` and `data` are set at the
grant, and again in the array cycles of its reads and writes (R67), of which `reads` are those done so far; `missed` says that it
missed the carrel cache (R83). `reached` is the cycle in which it reached its arbiter (R108). `reserved` are the lines for which
its presentation holds merge entries (R154); `resv` says that its planned position is one reserved to it (R105). -/
structure Slot where
  id : Nat
  ident : Nat
  ten : Win
  cls : SlotClass
  kind : SlotKind
  src : Endp
  dst : Endp
  len : Nat
  data : List Byte
  ctx : Option CtxId
  seq : Nat
  ep : BitVec 16
  arrive : Nat
  reached : Nat
  stage : Stage
  status : Word
  faddr : BitVec 48
  grantCc : Nat
  due : Nat
  ringAge : Nat
  port : OwnerPort
  write : Bool
  presented : Bool
  reserved : List Nat
  resv : Bool
  missed : Bool
  abandoned : Bool
  reads : List LineRead
deriving DecidableEq, Repr

/-- A tenure (R110): its holder, the slots moved, the cycle of its last slot, whether the holder was demoted when it began (or when
the current window did), and whether it has been demoted since in a window that is over. -/
structure Tenure where
  holder : Nat
  moved : Nat
  since : Nat
  demotedAtStart : Bool
  revoked : Bool
deriving DecidableEq, Repr

/-- A booked position: segment (with its die), absolute position (frame x 128 + k), the transfer and its class (R98). A position
of transfer 0 passes empty and can be booked no more: its winner was not granted (R98), its holder could not be served (R105), or
its transfer was dropped (R115). -/
structure Booking where
  seg : Nat
  pos : Nat
  slot : Nat
  cls : Nat
deriving DecidableEq, Repr

/-- An array cycle to come (R67): the line that a granted slot reads or writes in it, and for a write whether its grant found an
OPEN merge entry for the line (R155). `ref` is the address of the end of the transfer that the line belongs to. Slot 0 is the write
cycle of a flush, of merge entry `ref` (R88). -/
structure Acc where
  cycle : Nat
  slot : Nat
  line : Nat
  write : Bool
  merged : Bool
  ref : Nat
deriving DecidableEq, Repr

/-- A bank hold in cc (R19, R73). -/
structure Hold where
  bank : Nat
  first : Nat
  last : Nat
  ident : Nat
  slot : Nat
deriving DecidableEq, Repr

/-- A request collected for the ring plan, with its age and carried demotion (R99, R126). -/
structure Collected where
  slot : Nat
  age : Nat
  demoted : Bool
  ident : Nat
deriving DecidableEq, Repr

/-- A grant of the ring plan: the transfer, its position, its route's positions, and whether it holds a reservation there
(R99). -/
structure Planned where
  slot : Nat
  pos : Nat
  route : List (Nat × Nat)
  reserved : Bool
deriving DecidableEq, Repr

/-- What the ring plan makes of a position reserved to a cross-die requester (R105): segment, position, transfer, holder; 0 where it
is served, else what blocked its route (1-5 a squall cause of R129, 6 a frozen segment); and whether serving it wakes a bank. -/
structure PlanResv where
  seg : Nat
  pos : Nat
  slot : Nat
  ident : Nat
  cause : Nat
  wake : Bool
deriving DecidableEq, Repr

/-- The squalls of a die in the cycle `cycle`: records entered in it, LOST as it stood before it, and the records that the full log
discarded in it (R130, R132). -/
structure SquallNow where
  cycle : Nat
  count : Nat
  lost : Nat
  dropped : List (BitVec 64)
deriving DecidableEq, Repr

/-- The ring plan (R99): the collection frame, the dies that sent inputs, the requests, the segments frozen at its end; once they are
computed the grants, the outcomes of reserved positions and the positions that pass empty; and the plan's own rotating orders. -/
structure PlanSt where
  frame : Nat
  dies : List Nat
  requests : List Collected
  frozen : List Nat
  granted : Option (List Planned)
  outcomes : List PlanResv
  empty : List Booking
  rotation : SMap (List Nat)
deriving DecidableEq, Repr

/-- The contest of one decision cycle of a die (R98): the cycle, the requests that took part, and those that won and whose
command is still to come. -/
structure Joint where
  die : Nat
  cycle : Nat
  took : List Nat
  won : List Nat
deriving DecidableEq, Repr

/-- A guest entry's write on its way to every ring stop (R128). -/
structure GuestPending where
  key : Nat
  idw : Word
  limw : Word
  edges : Nat
deriving DecidableEq, Repr

/-- A line that a port-B read-modify-write locks, from its read cycle to its write cycle (R69). -/
structure LineLock where
  line : Nat
  first : Nat
deriving DecidableEq, Repr

structure FabricSt where
  slots : List Slot
  nextSlot : Nat
  booked : List Booking
  holds : List Hold
  accs : List Acc
  joint : Option Joint
  planResv : List PlanResv
  rotation : SMap (List Nat)
  tenures : SMap Tenure
  plan : PlanSt
  budgets : SMap Nat
  usedNext : SMap Nat
  usedCc : Nat
  usedIn : SMap Nat
  guests : SMap (Word × Word)
  guestPending : List GuestPending
  guestCount : SMap Nat
  guestNext : SMap Nat
  wdogFenced : List Nat
  squalls : SMap (List (BitVec 64))
  squallSeen : SMap Nat
  squallNow : SMap SquallNow
  counters : SMap Nat
  snaps : SMap Nat
  decided : SMap Nat
  snapWanted : List Nat
  clearWanted : List Nat
  locks : List LineLock
  window : Nat
deriving DecidableEq, Repr

/-! ### Streams -/

/-- The saved registers of a context (R196, R198). -/
structure CtxRegs where
  a : List (BitVec 48)
  s : List (BitVec 48)
  l : List (BitVec 24)
  live : List Bool
  ls : List (BitVec 7)
  h : List (BitVec 20)
  sl : Word
  pt : BitVec 12
  q : Bool
  c : Bool
  ep : BitVec 16
  ip : Nat
deriving DecidableEq, Repr

/-- The state of a context (R179). -/
inductive CtxState where
  | idle | armed | running | halted | done | aborted
deriving DecidableEq, Repr

/-- How an issued slot of a context stands (R187, R191): `pending` is an output slot of XPOSE whose source phase is not
over or that waits for a place under R185 (R216), with its bytes' place in the tile buffer. -/
inductive RecState where
  | pending (tile off len : Nat) (dst : Endp)
  | outstanding
  | delivered
  | failed (status : Word) (addr : BitVec 48)
  | withdrawn
deriving DecidableEq, Repr

/-- Progress inside a transfer instruction (R200): the group resolved, bytes placed (of an element, where `elems` counts),
slots placed, elements taken, indices held with the number of the first and the sequence number of the slot that brought them, whether
the index slot must be issued again (R213), the slot from which an XPOSE goes on after a RESUME (R217), and the tile buffer held. -/
structure Progress where
  group : BitVec 9
  bytes : Nat
  slots : Nat
  elems : Nat
  firstIndex : Nat
  indices : List Nat
  indexSlot : Nat
  reissue : Bool
  skipTo : Nat
  tile : Option Nat
deriving DecidableEq, Repr

/-- An issued slot: sequence number, the number of the slot before it (its own number may be an older one, R213), slot of its
instruction, the registers before its instruction and the progress before it (the position of R191), how it stands, and the bytes to
fold (R188, R295). -/
structure SlotRec where
  seq : Nat
  before : Nat
  spos : Nat
  regs : CtxRegs
  prog : Progress
  st : RecState
  fold : Option (List Byte)
deriving DecidableEq, Repr

/-- Why a context is off its sequencer (R184, R185, R187, R221). `limit` waits for one of its own slots to be delivered, `room` for the
request table's free entry after that (R185). -/
inductive Wait where
  | none | limit | room | drain | grant | index | tile | op | queue | result | point | barrier | lane | seals
deriving DecidableEq, Repr

/-- A loaded descriptor and program (R177, R178). -/
structure Image where
  desc : List Word
  prog : List Word
deriving DecidableEq, Repr

/-- What stops a context from issuing (R191, R193). -/
inductive Stopping where
  | no
  | halting (hcause : BitVec 4)
  | aborting (acause : BitVec 4) (origin : BitVec 18)
deriving DecidableEq, Repr

/-- A load in progress for ARM or REARM (R182): the command, the descriptor's line, whether it loads the shadow, the
words read, the reads outstanding, and the status so far. -/
structure Loading where
  src : CmdSrc
  descTa : TA
  shadow : Bool
  desc : List Word
  prog : List (Nat × List Byte)
  left : Nat
  status : Word
deriving DecidableEq, Repr

/-- Bytes that an element of a SCATTER has written, and the other contexts that had elements outstanding together with it
(R214): kept while the order of a later element against it is open (log 49). -/
structure Scattered where
  ta : Nat
  len : Nat
  others : List CtxId
deriving DecidableEq, Repr

/-- A context (R179, R186). `lapsed` says that the automatic resume of a giver halted with SLIPQ_FULL has ended with its queue (R231). -/
structure Ctx where
  st : CtxState
  regs : CtxRegs
  d : BitVec 128
  image : Image
  shadow : Option Image
  key : Option (BitVec 128)
  pcn : BitVec 4
  points : List (BitVec 12)
  bl : BitVec 2
  bn : BitVec 12
  task : BitVec 16
  group : BitVec 6
  hcause : BitVec 4
  acause : BitVec 4
  origin : BitVec 18
  runs : BitVec 16
  faddr : BitVec 48
  fdetail : BitVec 16
  seq : Nat
  recs : List SlotRec
  prog : Progress
  onSeq : Bool
  seqSince : Nat
  nextAt : Nat
  ready : Bool
  readySince : Nat
  wait : Wait
  opFlight : Bool
  listed : Bool
  lapsed : Bool
  opSince : Nat
  started : Bool
  stop : Stopping
  loading : Option Loading
  sealedFolios : List Nat
  snapshot : Bool
  stopFrame : Nat
  stopAt : Nat
  stallLogged : Bool
  scattered : List Scattered
  lostPoints : Nat
deriving DecidableEq, Repr

/-- What a token of the signal lane says (R116), with its sender; an answer to a POINT token carries its status. -/
inductive TokenKind where
  | point (payload : BitVec 12) (target : CtxId) (sender : CtxId)
  | arrive (barrier : BitVec 12) (count : Nat) (fromDie : Die) (toRoot : Bool)
  | release (barrier : BitVec 12)
  | answer (sender : CtxId) (code : BitVec 8)
deriving DecidableEq, Repr

/-- A token on its way to a die: the cycle in which it set out (its age, R108), the lane whose queue holds it, and the lanes still to
cross. One with lanes to cross and no queue is held by its sender; one with neither has arrived. -/
structure Token where
  id : Nat
  kind : TokenKind
  die : Die
  born : Nat
  lane : Option Nat
  path : List Nat
deriving DecidableEq, Repr

/-- A tile buffer in use (R216): its owner, its bytes, the element width, the source slots not yet delivered (with whether
all have been placed), and the output slots not yet delivered. -/
structure Tile where
  id : Nat
  ctx : CtxId
  data : List Byte
  wide : Bool
  placed : Bool
  left : Nat
  outLeft : Nat
deriving DecidableEq, Repr

/-- A task abort on its way or in progress (R193): the task and tenancy, the origin, the ACAUSE of its other contexts, and the dies that
have still to hear of it. -/
structure TaskAbort where
  task : BitVec 16
  ten : Win
  origin : BitVec 18
  acause : BitVec 4
  dies : List Nat
deriving DecidableEq, Repr

structure StreamSt where
  ctxs : SMap Ctx
  tokens : List Token
  nextToken : Nat
  barrierCount : SMap Nat
  barrierRoot : SMap (BitVec 8)
  tiles : List Tile
  nextTile : Nat
  aborts : List TaskAbort
deriving DecidableEq, Repr

/-! ### Sharing structures -/

/-- Who issued a queue or result-slot operation; `engine` is a notice of a die's remote engine, which awaits no status (R285). -/
inductive OpIssuer where
  | ctx (c : CtxId)
  | core (d : Die) (core : CoreNo)
  | host (src : CmdSrc)
  | engine (d : Die)
deriving DecidableEq, Repr

/-- A queue or result-slot operation (R241, R256). -/
inductive OpKind where
  | give (qid : BitVec 13) (slip : Word)
  | take (qid : BitVec 13)
  | testQueue (qid : BitVec 13)
  | rsPost (slot : BitVec 15) (len : Nat) (data : List Byte)
  | rsRead (slot : BitVec 15)
  | rsConsume (slot : BitVec 15) (seq : BitVec 16)
  | testResult (slot : BitVec 15)
deriving DecidableEq, Repr

/-- An operation on its way to its queue engine, or its status on the way back (R233, R234). -/
structure QOp where
  id : Nat
  issuer : OpIssuer
  kind : OpKind
  ident : Nat
  ten : Win
  done : Bool
  status : Word
  slip : Word
  len : Nat
  data : List Byte
deriving DecidableEq, Repr

structure SlipQ where
  head : Nat
  count : Nat
  headSlip : Word
  takers : List CtxId
  givers : List CtxId
  reserved : Nat
deriving DecidableEq, Repr

/-- A contribution held in the reorder window of a combining queue (R250), with its master and task (R172). -/
structure Held where
  cidx : Nat
  off : Nat
  data : List Byte
  ident : Nat
  task : Nat
deriving DecidableEq, Repr

inductive CqState where
  | idle | zeroing | running | complete
deriving DecidableEq, Repr

/-- A combining queue (R245-R252). A completion post that waits is tried again in cycle `postAt` (R252). -/
structure CombQ where
  st : CqState
  rounds : Nat
  slotsAdded : Nat
  counts : SMap Nat
  next : Nat
  ovf : Nat
  fault : Bool
  window : List Held
  postWaiting : Bool
  postAt : Nat
deriving DecidableEq, Repr

structure ResSlot where
  seq : BitVec 16
  ready : Bool
  read : Bool
  len : Nat
deriving DecidableEq, Repr

/-- A register write of a package copy on its way to the other dies (R237, R301): register code, value, writing die, and
the window edges still to pass. -/
structure CopyPending where
  die : Nat
  code : Nat
  value : Word
  edges : Nat
  frame : Nat
deriving DecidableEq, Repr

/-- The sharing structures, the operations on their way, the package copies to come; the operations of the latest cycle that the queue
engines have taken, by cycle, structure and master, and the cycles of port B of a bank that are taken (R233). -/
structure QueueSt where
  slipq : SMap SlipQ
  comb : SMap CombQ
  results : SMap ResSlot
  ops : List QOp
  nextOp : Nat
  copies : List CopyPending
  served : List (Nat × Nat × Nat)
  portB : List (Nat × Nat)
deriving DecidableEq, Repr

/-! ### Store windows and the remote engine -/

/-- A descriptor held by the window translator (R61): entry, page, the descriptor. -/
structure Descriptor where
  die : Nat
  entry : Nat
  page : Nat
  word : BitVec 64
deriving DecidableEq, Repr

/-- A WIN_SYNC in progress (R61). -/
structure SyncRec where
  src : CmdSrc
  die : Nat
  entry : Nat
deriving DecidableEq, Repr

/-- A message staged at the target (R279-R285) and how far it has come: whether its checks are passed; the transfers still to
be requested, with their offsets in the landing entry and their bytes (for a GETREQ their place in the reply); the last
transfer of a ring message, which holds its header; how many transfers are outstanding; its status so far; the place and size
of a ring message; the sequence number of a notice; the bytes read for a GETREQ; where a SKIP header goes. -/
structure Staged where
  id : Nat
  die : Nat
  msg : RemoteMsg
  checked : Bool
  toRequest : List (Nat × List Byte)
  header : Option (Nat × List Byte)
  left : Nat
  status : Word
  ring : Option (Nat × Nat)
  notice : Option Nat
  data : List Byte
  skip : Option Nat
deriving DecidableEq, Repr

/-- Outbound staging of a ring EMIT (R267): the slots of one EMIT handed off so far, each with its offset and bytes. -/
structure OutStage where
  ctx : CtxId
  firstSeq : Nat
  total : Nat
  bytes : List (Nat × Nat × List Byte)
deriving DecidableEq, Repr

/-- A message that the engine has taken for the slots named (R266-R268): the tenancy and key slot that seal it, and its header
as the window's registers gave it when the engine took the slot. `sent` says that it has left the die. -/
structure OutMsg where
  slots : List Nat
  die : Nat
  ten : Nat
  key : Nat
  ring : Bool
  sent : Bool
  msg : RemoteMsg
deriving DecidableEq, Repr

structure RemoteSt where
  translator : List Descriptor
  syncs : List SyncRec
  staged : List Staged
  nextMsg : Nat
  ringCount : SMap Nat
  outStage : List OutStage
  outMsgs : List OutMsg
  overdue : List Nat
  counters : SMap Nat
deriving DecidableEq, Repr

/-! ### Replicas, self-test, security -/

/-- A ballot at its unit (R302-R306): the posts of the round, what the last round decided, when its first post came, whether its verdict
post waits to be sent again and from which cycle on. -/
structure Ballot where
  posts : List (Nat × BitVec 128 × CtxId)
  decided : Bool
  verdict : BitVec 2
  odd : BitVec 3
  oddCtx : BitVec 18
  round : BitVec 16
  firstPost : Nat
  verdictWaiting : Bool
  postAt : Nat
  stallLogged : Bool
deriving DecidableEq, Repr

/-- A ballot post on its way to its home die, or its status on the way back (R302). -/
structure BallotPost where
  id : Nat
  ctx : CtxId
  ballot : BitVec 8
  replica : BitVec 3
  d : BitVec 128
  ten : Win
  done : Bool
  status : Word
deriving DecidableEq, Repr

/-- Samples of one bank domain, newest first, each with its day (R320). -/
structure Baro where
  margin : List (Nat × Nat)
  errors : List (Nat × Nat)
  remap : List (Nat × Nat)
deriving DecidableEq, Repr

/-- A scan in progress (R314-R316): its domain, the command, what the check of the pattern set found (0 good, 3 PATTERN_BAD,
4 NO_FLASH). With a good set the patterns are being applied. -/
structure Scan where
  domain : Nat
  src : CmdSrc
  found : Nat
deriving DecidableEq, Repr

/-- What a domain's IEEE 1500 wrapper does: it is transparent, or it applies scan patterns (R314, R393). -/
inductive WirMode where
  | functional | scan
deriving DecidableEq, Repr

/-- The wrapper of a domain (R393): its instruction register WIR, bypass bit WBY and boundary register WBR, whose width the spec does
not give. -/
structure Wrapper where
  wir : WirMode
  wby : Bool
  wbr : List Bool
deriving DecidableEq, Repr

/-- The instructions of a die's IEEE 1149.1 TAP (R393): those named, a private one that selects a domain's WIR, and every other. -/
inductive TapInstr where
  | bypass | idcode | samplePreload | extest
  | selectWir (domain : BitVec 6)
  | other
deriving DecidableEq, Repr

structure ReplicaSt where
  ballots : SMap Ballot
  posts : List BallotPost
  nextPost : Nat
  lfsr : SMap (BitVec 64)
  scans : SMap Scan
  wrappers : SMap Wrapper
  taps : SMap TapInstr
  unsafeRegs : SMap Bool
  strays : SMap (BitVec 2 × Nat)
  baro : SMap Baro
  baroCorr : SMap Nat
  leftP0 : List Nat
  sampled : SMap Nat
deriving DecidableEq, Repr

/-- An alarm action on its way over the service ring (R343): receiver, origin, action, and the source that raised it. -/
structure AlarmWord where
  receiver : Nat
  origin : Nat
  action : Nat
  source : Nat
deriving DecidableEq, Repr

/-- The key slots and transport keys (R330, R331; the counters of R289 are in `RemoteSt.counters`); the certificate chain with its fused
digest, and the dies on which it failed its check (R334); the life-cycle transition in progress (R339); ACCESS_DENIED events
of this window (R327); the step of each TEN_CLOSE (R329); alarm actions on the ring. -/
structure SecuritySt where
  keySlots : SMap (BitVec 256)
  transport : SMap (BitVec 256)
  certChain : SMap (List Byte)
  certDigest : SMap (List Byte)
  certBad : List Nat
  lcBusy : SMap (BitVec 2 × CmdSrc)
  denialSeen : SMap Nat
  closing : SMap Nat
  alarms : List AlarmWord
deriving DecidableEq, Repr

/-! ### Power, test, start-up, firmware -/

inductive DomState where
  | up | goingDown | down | goingUp
deriving DecidableEq, Repr

/-- A power domain (R353): state, whether its regulator is in LOW mode, and whether it went down by brown-out. -/
structure Dom where
  st : DomState
  low : Bool
  brown : Bool
  returning : Option Nat
  wakes : Nat
deriving DecidableEq, Repr

/-- The steps of a level change or of CLK_SWITCH (R371, R373). -/
inductive PerfStep where
  | pending (frame : Nat)
  | ramp (thenRelock : Bool)
  | relock (thenRamp : Bool)
deriving DecidableEq, Repr

structure PerfChange where
  step : PerfStep
  target : BitVec 2
  src : Option CmdSrc
  own : Bool
deriving DecidableEq, Repr

/-- A march on one bank (R375-R377): the element, the place of its next row in the element's order (of 2,052: the four spare
rows, then the lines), and the lines passed over. -/
structure MarchBank where
  element : Nat
  row : Nat
  later : List Nat
deriving DecidableEq, Repr

structure MarchRun where
  preserving : Bool
  src : Option CmdSrc
  banks : SMap MarchBank
deriving DecidableEq, Repr

/-- The entries of the field repair record (R385). -/
inductive RepairEntry where
  | remap (bank : Nat) (n : Nat) (line : Nat)
  | spareBad (bank : Nat) (n : Nat)
  | retire (bank : Nat)
  | fence (core : Nat)
  | cluster (cluster : Nat)
deriving DecidableEq, Repr

structure PowerSt where
  doms : SMap Dom
  perf : SMap PerfChange
  marches : SMap MarchRun
  fuses : SMap (List RepairEntry)
  record : SMap (List RepairEntry)
  marchDoms : List (CmdSrc × Nat)
  stopped : SMap Nat
deriving DecidableEq, Repr

/-- The image slots of a die's flash (R434, R441). -/
structure Flash where
  activeHeader : List Byte
  activeVersion : Nat
  activeBlocks : SMap (List Byte × List Byte)
  stagedHeader : List Byte
  stagedVersion : Nat
  blocks : SMap (List Byte × List Byte)
  armed : Option (BitVec 64 × List Byte)
  commit : Bool
deriving DecidableEq, Repr

/-- How a die stands in start-up (R418-R429). `openAt` is the frame at which its bypass is to open, or to close while `closing`
(R426, R429); `listenAt` the cycle in which a ready die began to listen (R426). -/
structure BootSt where
  powered : Bool
  asserted : Bool
  phase : Nat
  ready : Bool
  opened : Bool
  master : Bool
  fail : BitVec 4
  cause : BitVec 3
  kind : BitVec 2
  resets : BitVec 16
  listening : Bool
  openAt : Option Nat
  openedFrame : Nat
  closing : Bool
  heardLevel : Option (BitVec 2)
  recordNew : Bool
  listenAt : Nat
deriving DecidableEq, Repr

/-! ### The supervisor -/

/-- One record of the event log (R413). -/
structure Event where
  seq : Nat
  frame : Nat
  code : BitVec 8
  ten : Option Win
  master : BitVec 16
  task : BitVec 16
  detail : BitVec 16
  addr : BitVec 48
  obj : Word
  aux : Word
deriving DecidableEq, Repr

/-- How far a dispatched command has come: it waits for its own step, or runs on as a class B command (R397). -/
inductive CmdProgress where
  | dispatched
  | inProgress
deriving DecidableEq, Repr

/-- An almanac request on its way to another die, or the summary captured there on its way back (R409). -/
structure AlmanacWord where
  target : Nat
  origin : Nat
  win : Nat
  data : Option (List Byte)
deriving DecidableEq, Repr

/-- The events of a die in the cycle `cycle`: LOST as it stood before it, and the records that the full log discarded in it (R412). -/
structure EventNow where
  cycle : Nat
  lost : Nat
  dropped : List Event
deriving DecidableEq, Repr

/-- A CAT_ALLOC whose checks have passed: the free entry that it has taken, until the entry comes into force (R55, R57). -/
structure AllocHold where
  src : CmdSrc
  entry : Nat
  window : Bool
deriving DecidableEq, Repr

/-- The supervisor of each die: the event log and its count; commands dispatched; the QUEUED slots in the order of their GO, with its
cycle; order numbers given; the window dispatched last and when; side commands in order, with the cycle of their GO; almanacs; the dies whose stall watchdog
holds; the DATA page that a dispatched command has read (R398); the order in which catalogue entries were freed (R55); the records that a full event log discarded in the last cycle that raised any
(R412); the entries that a CAT_ALLOC in progress has taken; the flipped bits of the
catalogue array's words, by word of the package (32 data bits, then 7 check bits), the corrected errors that each die has counted, and
the entries found uncorrectable (R48); the cycle in which hardware last set each write-1-to-clear bit (R450). -/
structure SupSt where
  events : SMap (List Event)
  nextEvent : SMap Nat
  cmds : List (CmdSrc × CmdProgress)
  nextSeq : SMap Nat
  turn : SMap Nat
  sideOrder : List (CmdSrc × Nat)
  almanacs : List AlmanacWord
  almanacCount : SMap Nat
  stalled : List Nat
  queued : List (CmdSrc × Nat)
  lastDispatch : SMap Nat
  inputs : List (CmdSrc × List (BitVec 8))
  catFreed : SMap Nat
  eventNow : SMap EventNow
  allocs : List AllocHold
  catUpsets : SMap Nat
  catCorrected : SMap Nat
  catReported : List Nat
  w1cSet : SMap Nat
deriving DecidableEq, Repr

/-- What the block answers to the outside: a core's or host's access, a register read, a message to the link, a write of a
store window that leaves by its store port (log 9). -/
inductive Output where
  | access (ident : Nat) (status : Word) (data : List Byte)
  | regRead (d : Die) (win : Win) (off : Word) (val : Word)
  | message (d : Die) (msg : RemoteMsg)
  | storeWrite (handle : BitVec 20) (off : BitVec 48) (data : List Byte)
deriving DecidableEq, Repr

/-- The BTM of one package. `now` counts cc, `frame` frames of 256 cc; the package's frame count is `frame - frameBase` (R91, R426, log
1). -/
structure State where
  package : Package
  now : Nat
  frame : Nat
  frameBase : Nat
  pkgTime : BitVec 64
  draws : Nat
  regs : SMap Word
  pages : SMap Byte
  pairLo : SMap Word
  pairHi : SMap Word
  banks : BankSt
  fabric : FabricSt
  streams : StreamSt
  queues : QueueSt
  remote : RemoteSt
  replicas : ReplicaSt
  security : SecuritySt
  power : PowerSt
  flash : SMap Flash
  boots : SMap BootSt
  sup : SupSt
  out : List Output
  pending : List Instr
deriving DecidableEq, Repr

/-- Why the machine stops. -/
inductive Fault where
  /-- A command names a die that the package does not have (R1): there is no such hardware to take it. Raised by every
  command whose operand names a die, context, bank or folio of an absent die. Safe: nothing is claimed of it (log 4). -/
  | absentDie
deriving DecidableEq, Repr

/-- Why a command has no meaning in the model. -/
inductive Refusal where
  /-- The command's meaning is not modelled yet. Raised by exec's refused arms. Safe. -/
  | notModelled (mnemonic : String)
deriving DecidableEq, Repr

/-- The machine right after POWER_ON has reset every die of a Zarun-8, reset still asserted (R416-R418): every map is at
its default, which is its reset value. What the manual leaves to fuses, flash and the package is chosen in log 5. -/
def State.reset : State where
  package := .zarun8
  now := 0
  frame := 0
  frameBase := 0
  pkgTime := 0
  draws := 0
  regs := []
  pages := []
  pairLo := []
  pairHi := []
  banks := ⟨[], [], [], [], [], [], [], [], [], [], [], [], [], [], [], [], []⟩
  fabric := { slots := [], nextSlot := 0, booked := [], holds := [], accs := [], joint := none, planResv := [], rotation := [],
              tenures := [], plan := ⟨0, [], [], [], none, [], [], []⟩, budgets := [], usedNext := [], usedCc := 0, usedIn := [], guests := [],
              guestPending := [], guestCount := [], guestNext := [], wdogFenced := [], squalls := [], squallSeen := [], squallNow := [],
              counters := [], snaps := [], decided := [], snapWanted := [], clearWanted := [], locks := [], window := 0 }
  streams := ⟨[], [], 0, [], [], [], 0, []⟩
  queues := ⟨[], [], [], [], 0, [], [], []⟩
  remote := ⟨[], [], [], 0, [], [], [], [], []⟩
  replicas := ⟨[], [], 0, [], [], [], [], [], [], [], [], [], []⟩
  security := ⟨[], [], [], [], [], [], [], [], []⟩
  power := ⟨[], [], [], [], [], [], []⟩
  flash := []
  boots := []
  sup := ⟨[], [], [], [], [], [], [], [], [], [], [], [], [], [], [], [], [], [], []⟩
  out := []
  pending := []

end Sys2Proof.Machine
end

