-- ==== Sys2Proof/Machine/Maps.lean ====
section
/-! DEFINITION. The operations of maps (`SMap`), of memory, and of small bit fields. -/

namespace Sys2Proof.Machine

open Sys2Proof

/-- The value at a key; `d` where the map lists none. -/
def SMap.get {α : Type} (m : SMap α) (k : Nat) (d : α) : α :=
  match m with
  | [] => d
  | (a, v) :: r => if a = k then v else SMap.get r k d

/-- The value listed at a key. -/
def SMap.find {α : Type} (m : SMap α) (k : Nat) : Option α :=
  match m with
  | [] => none
  | (a, v) :: r => if a = k then some v else SMap.find r k

/-- The map with `v` at the key, in rising order of key. -/
def SMap.set {α : Type} (m : SMap α) (k : Nat) (v : α) : SMap α :=
  match m with
  | [] => [(k, v)]
  | (a, w) :: r => if a = k then (k, v) :: r else if k < a then (k, v) :: (a, w) :: r else (a, w) :: SMap.set r k v

/-- The map without the key. -/
def SMap.erase {α : Type} (m : SMap α) (k : Nat) : SMap α :=
  m.filter (fun e => e.1 != k)

/-- The map without the keys that `p` picks. -/
def SMap.eraseIf {α : Type} (m : SMap α) (p : Nat → Bool) : SMap α :=
  m.filter (fun e => !p e.1)

/-- The map with `f` applied at a key, from default `d`. -/
def SMap.upd {α : Type} (m : SMap α) (k : Nat) (d : α) (f : α → α) : SMap α :=
  SMap.set m k (f (SMap.get m k d))

/-- What a byte of memory that nothing has written reads as (log 7). -/
def Mem.blank : Byte := 0

/-- One byte of memory. -/
def Mem.read (m : List Host.Cell) (a : Nat) : Byte := SMap.get m a Mem.blank

/-- A byte written, keeping the canonical form: no entry equals what an unlisted address reads as. -/
def Mem.write (m : List Host.Cell) (a : Nat) (b : Byte) : List Host.Cell :=
  if b = Mem.blank then m.filter (fun e => e.1 != a) else SMap.set m a b

/-- `n` bytes from an address. -/
def Mem.readN (m : List Host.Cell) (a n : Nat) : List Byte :=
  (List.range n).map (fun i => Mem.read m (a + i))

/-- Bytes written from an address. -/
def Mem.writeN (m : List Host.Cell) (a : Nat) : List Byte → List Host.Cell
  | [] => m
  | b :: r => Mem.writeN (Mem.write m a b) (a + 1) r

/-- The keys of a list of entries rise strictly. -/
def Mem.rising : List Host.Cell → Bool
  | [] => true
  | [_] => true
  | (a, _) :: (b, w) :: r => decide (a < b) && Mem.rising ((b, w) :: r)

/-- The canonical form of memory: keys strictly rising, no entry equal to what an unlisted address reads as. -/
def Mem.wf (m : List Host.Cell) : Bool :=
  Mem.rising m && m.all (fun e => e.2 != Mem.blank)

/-- A list in order by `le`, equal elements in their old order. -/
def insertBy {α : Type} (le : α → α → Bool) (x : α) : List α → List α
  | [] => [x]
  | y :: r => if le y x then y :: insertBy le x r else x :: y :: r

/-- A list sorted by `le`, keeping the order of equal elements. -/
def sortBy {α : Type} (le : α → α → Bool) (l : List α) : List α := l.foldl (fun acc x => insertBy le x acc) []

/-- Lists of numbers in order. -/
def lexLt : List Nat → List Nat → Bool
  | a :: r, b :: t => a < b || (a == b && lexLt r t)
  | [], _ :: _ => true
  | _, [] => false

/-! ### Bit fields of a word -/

/-- Bits `lo + n - 1 .. lo` of a word, as a number. -/
def field (w : Word) (lo n : Nat) : Nat := w.toNat / 2 ^ lo % 2 ^ n

/-- Bit `i` of a word. -/
def bit (w : Word) (i : Nat) : Bool := w.toNat.testBit i

/-- A word with bits `lo + n - 1 .. lo` replaced. -/
def setField (w : Word) (lo n v : Nat) : Word :=
  BitVec.ofNat 32 (w.toNat - (field w lo n) * 2 ^ lo + (v % 2 ^ n) * 2 ^ lo)

/-- A field placed at its low bit. -/
def put (lo n v : Nat) : Nat := (v % 2 ^ n) * 2 ^ lo

/-- A Bool as bit `i`. -/
def putB (i : Nat) (b : Bool) : Nat := if b then 2 ^ i else 0

/-- A word of 32 bits from a number. -/
def word (n : Nat) : Word := BitVec.ofNat 32 n

/-- The number a sequence of bytes spells, least significant byte first (R36). -/
def leNat : List Byte → Nat
  | [] => 0
  | b :: r => b.toNat + 256 * leNat r

/-- `n` bytes of a number, least significant byte first (R36). -/
def leBytes : Nat → Nat → List Byte
  | 0, _ => []
  | n + 1, v => BitVec.ofNat 8 v :: leBytes n (v / 256)

/-- The number a sequence of bytes spells, most significant byte first. -/
def beNat (l : List Byte) : Nat := leNat l.reverse

/-- Two's-complement reading of the low `n` bits. -/
def signed (n v : Nat) : Int := if v % 2 ^ n < 2 ^ (n - 1) then (v % 2 ^ n : Nat) else ((v % 2 ^ n : Nat) : Int) - (2 ^ n : Nat)

/-- Ceiling division. -/
def ceilDiv (a b : Nat) : Nat := (a + b - 1) / b

/-- A list padded with zero bytes, or cut, to `n`. -/
def fit (n : Nat) (l : List Byte) : List Byte := (l ++ List.replicate (n - l.length) 0).take n

end Sys2Proof.Machine
end

