-- ==== Sys2Proof/Machine/Codes.lean ====
section
/-! DEFINITION. The protection codes: byte parity (R139), SEC-DED (R140), CRC-16 (R141) and the folio BCH code (R142). -/

namespace Sys2Proof.Machine

open Sys2Proof

/-- Bits of a byte, most significant first. -/
def byteBits (b : Byte) : List Bool := (List.range 8).reverse.map (fun i => b.toNat.testBit i)

/-- Bits set in a number of at most 8 bits. -/
def weight8 (n : Nat) : Nat := ((List.range 8).filter (fun i => n.testBit i)).length

/-- Even parity of a byte (R139). -/
def parityOf (b : Byte) : Bool := weight8 b.toNat % 2 == 1

/-- Byte of parity bits: bit j of check byte i is the parity of data byte 8i + j (R139). -/
def byteCheck (data : List Byte) (i : Nat) : Byte :=
  BitVec.ofNat 8 (((List.range 8).map (fun j => putB j (parityOf (data.getD (8 * i + j) 0)))).foldl (· + ·) 0)

/-- The columns C(0)-C(63) of R140: the 56 values of weight 3, then the 8 smallest of weight 5. -/
def secColumns : List Nat :=
  (List.range 256).filter (fun n => weight8 n == 3) ++ ((List.range 256).filter (fun n => weight8 n == 5)).take 8

/-- Check byte of a word of 8 bytes (R140). -/
def wordCheck (w : List Byte) : Nat :=
  (secColumns.zip (List.range 64)).foldl
    (fun acc e => if (w.getD (e.2 / 8) 0).toNat.testBit (e.2 % 8) then acc ^^^ e.1 else acc) 0

/-- What decoding a word gives (R140). -/
inductive WordResult where
  | clean
  | corrected (w : List Byte)
  | bad
deriving DecidableEq, Repr

/-- A word decoded by its syndrome (R140). -/
def wordDecode (w : List Byte) (check : Byte) : WordResult :=
  let syn := check.toNat ^^^ wordCheck w
  if syn = 0 then .clean
  else if weight8 syn = 1 then .corrected w
  else match secColumns.findIdx? (· == syn) with
    | some k => .corrected (w.set (k / 8) (w.getD (k / 8) 0 ^^^ BitVec.ofNat 8 (2 ^ (k % 8))))
    | none => .bad

/-- CRC-16 with generator 0x1021, start 0, no reflection (R141). -/
def crc16 (data : List Byte) : Nat :=
  (data.flatMap byteBits).foldl
    (fun r b => let t := (r / 2 ^ 15 % 2 == 1) != b; let s := r * 2 % 2 ^ 16; if t then s ^^^ 0x1021 else s) 0

/-! ### GF(2^16) and the folio code (R142) -/

/-- Product with x in GF(2^16) of x^16 + x^12 + x^3 + x + 1. -/
def gfTwice (a : Nat) : Nat := if a < 2 ^ 15 then 2 * a else (2 * a) ^^^ 0x1100B

/-- Product in GF(2^16). -/
def gfMul (a b : Nat) : Nat :=
  (List.range 16).reverse.foldl (fun acc i => if b.testBit i then gfTwice acc ^^^ a else gfTwice acc) 0

/-- Power in GF(2^16), exponent below 2^16. -/
def gfPow (a n : Nat) : Nat :=
  (List.range 16).reverse.foldl (fun acc i => if n.testBit i then gfMul (gfMul acc acc) a else gfMul acc acc) 1

/-- Inverse in GF(2^16). -/
def gfInv (a : Nat) : Nat := gfPow a 65534

/-- Product of polynomials over GF(2), held as numbers. -/
def clMul (a b : Nat) : Nat :=
  (List.range (b.log2 + 1)).foldl (fun acc i => if b.testBit i then acc ^^^ (a <<< i) else acc) 0

/-- A polynomial over GF(2^16) (lowest degree first) times (x + c). -/
def polyTimesRoot (p : List Nat) (c : Nat) : List Nat :=
  ((0 :: p).zip (p ++ [0])).map (fun e => e.1 ^^^ gfMul c e.2)

/-- Minimal polynomial over GF(2) of `beta`, of 16 conjugates, as a number. -/
def minPoly (beta : Nat) : Nat :=
  let roots := (List.range 16).map (fun j => gfPow beta (2 ^ j % 65535))
  let p := roots.foldl polyTimesRoot [1]
  (p.zip (List.range 17)).foldl (fun acc e => acc + (e.1 % 2) * 2 ^ e.2) 0

/-- Correction strength of a STRENGTH field: 16, 32, 64, 128 (R48). -/
def strengthT (s : BitVec 2) : Nat := 16 * 2 ^ s.toNat

/-- Generator of the code that corrects t errors (R142): α^1, α^3, ..., α^(2t-1) have distinct cosets of 16. -/
def bchGen (t : Nat) : Nat :=
  (List.range t).foldl (fun g i => clMul g (minPoly (gfPow 2 (2 * i + 1)))) 1

/-- The 2t parity bytes of a message (R142). -/
def bchParity (t : Nat) (msg : List Byte) : List Byte :=
  let g := bchGen t
  let deg := 16 * t
  let low := g % 2 ^ deg
  let r := (msg.flatMap byteBits).foldl
    (fun r b => let top := (r / 2 ^ (deg - 1) % 2 == 1) != b
                let sft := r * 2 % 2 ^ deg
                if top then sft ^^^ low else sft) 0
  (leBytes (2 * t) r).reverse

/-- Syndrome S_j of a codeword. -/
def bchSyndrome (bits : List Bool) (j : Nat) : Nat :=
  let a := gfPow 2 j
  bits.foldl (fun acc b => gfMul acc a ^^^ (if b then 1 else 0)) 0

/-- State of the locator search: locator, previous locator, length, shift, previous discrepancy. -/
structure Locator where
  c : List Nat
  b : List Nat
  len : Nat
  m : Nat
  d : Nat
deriving DecidableEq, Repr

/-- One step of the locator search (Berlekamp-Massey) on syndrome n. -/
def locatorStep (syn : List Nat) (l : Locator) (n : Nat) : Locator :=
  let disc := (List.range l.len).foldl (fun acc i => acc ^^^ gfMul (l.c.getD (i + 1) 0) (syn.getD (n - 1 - i) 0))
    (syn.getD n 0)
  if disc = 0 then { l with m := l.m + 1 }
  else
    let coef := gfMul disc (gfInv l.d)
    let shifted := List.replicate l.m 0 ++ l.b.map (gfMul coef)
    let size := max l.c.length shifted.length
    let c' := (List.range size).map (fun i => l.c.getD i 0 ^^^ shifted.getD i 0)
    if 2 * l.len ≤ n then { c := c', b := l.c, len := n + 1 - l.len, m := 1, d := disc }
    else { l with c := c', m := l.m + 1 }

/-- Error positions of a codeword, counted in bits from its first bit; `none` where more than t errors stand in it
(R148). -/
def bchLocate (t : Nat) (word : List Byte) : Option (List Nat) :=
  let bits := word.flatMap byteBits
  let syn := (List.range (2 * t)).map (fun i => bchSyndrome bits (i + 1))
  if syn.all (· == 0) then some []
  else
    let l := (List.range (2 * t)).foldl (locatorStep syn) ⟨[1], [1], 0, 1, 1⟩
    let n := bits.length
    let found := (List.range n).filter (fun i =>
      let x := gfPow 2 ((65535 - (n - 1 - i) % 65535) % 65535)
      l.c.reverse.foldl (fun acc c => gfMul acc x ^^^ c) 0 == 0)
    if l.len ≤ t && found.length == l.len then some found else none

/-- Check byte and line of parity byte p (R142): check byte 2 + p mod 6 of line p div 6. -/
def parityPlace (p : Nat) : Nat × Nat := (p / 6, 2 + p % 6)

/-- Lines that hold parity, by strength (R142): 6, 11, 22, 43. -/
def parityLines (t : Nat) : Nat := (2 * t + 5) / 6

/-- A list of bytes with one bit inverted, bits counted most significant first. -/
def flipBit (l : List Byte) (i : Nat) : List Byte :=
  l.set (i / 8) (l.getD (i / 8) 0 ^^^ BitVec.ofNat 8 (2 ^ (7 - i % 8)))

end Sys2Proof.Machine
end

