-- ==== Sys2Proof/Machine/RegMap.lean ====
section
/-! DEFINITION. The register map of a die (R445-R464): every register, its offset, domain, hardening and reset value. -/

namespace Sys2Proof.Machine

open Sys2Proof

/-- The registers of a die, by the names of the register map. A register pair has a Bool: `false` LO, `true` HI (R448).
Command-window registers carry their host window; `core` is a die core number, `b` of a bank register is TA[29:17], `x` a
local master ID, `sg` a segment ID. -/
inductive Reg where
  | dieSerial (hi : Bool) | lcStat | secPolicy | secAlarm | dieGrade | rstCtl | rstStat | fwStat | pkgTimeR (hi : Bool)
  | perfStat | pwrTimer | wdogCtl | perfCtl | perfSnapFrame | remNode | marchCtl | weedStat | hardenStat | scanStat
  | xchkCtl | xchkStat | xchkSeed (hi : Bool) | baroCfg | squallCtl | squallHead (hi : Bool) | evlogCtl
  | evlogHead (i : Nat) | rawTa | rawCmd | rawCheck (i : Nat) | rawData (i : Nat) | meas (n i : Nat)
  | pwrDom (n : Nat) | baro (n : Nat) | marchStat (n : Nat) | dieCounter (i : Nat) (hi : Bool)
  | guestId (n : Nat) | guestLim (n : Nat)
  | catRange (t : Nat) | djobRange (t : Nat) | routRange (t : Nat) | rinRange (t : Nat) | stepHold (t : Nat)
  | tenStat (t : Nat) | keyStat (t : Nat) | storeRange (p t : Nat) | stewTen (i : Nat)
  | barrierCfg (b : Nat)
  | cmdCtl (w i : Nat) | cmdArg (w i n : Nat) | cmdSts (w i : Nat) | cmdRes (w i n : Nat)
  | sideCtl (w : Nat) | sideArg (w : Nat) | sideSts (w : Nat) | sideRes (w n : Nat) | cmdCnt (w : Nat) | hostIrq (w : Nat)
  | mergeCtl (k : Nat) | mergeStat (k : Nat) | coreFenced (k : Nat) | ctxRange (k t : Nat) | groupCfg (k g : Nat)
  | carrelCtl (core : Nat) | coreTen (core : Nat) | sqCfg (k q : Nat) | sqStat (k q : Nat) | sqHead (k q : Nat)
  | cqCfg (k n : Nat) | cqCtl (k n : Nat) | cqNote (k n : Nat) | cqStat (k n : Nat)
  | clusterCounter (k i : Nat) (hi : Bool) | carrelCounter (core i : Nat) (hi : Bool)
  | catWord (e w : Nat)
  | rwinCfg (n : Nat) | rwinPeer (n : Nat) | rwinExt (n : Nat)
  | rinCfg (n : Nat) | rinSrc (n : Nat) | rinBuf (n : Nat) | rinNote (n : Nat) | rinHead (n : Nat) | rinTail (n : Nat)
  | rsStat (i : Nat) | rsCfg (b : Nat) | mcgCfg (g : Nat) | pmcgCfg (p : Nat)
  | ballotCfg (b : Nat) | ballotStat (b : Nat) | ballotOdd (b : Nat) | djobCfg (n : Nat) | djobKey (n i : Nat)
  | pmcgMem (p m : Nat) (hi : Bool) | mcgMem (g m : Nat) (hi : Bool)
  | bankOwn (b : Nat) | bankPwr (b : Nat) | bankEcnt (b : Nat) | bankElast (b : Nat) | bankTest (b : Nat)
  | bankRemap (b n : Nat)
  | burstLimit (x : Nat) | regBudget (x : Nat) | regUsed (x : Nat) | masterCounter (x i : Nat) (hi : Bool)
  | slotResv (sg k : Nat) | segCtl (sg : Nat) | segCounter (sg i : Nat) (hi : Bool)
  | streamCtl (core : Nat) | streamArg (core n : Nat) | streamSts (core : Nat) | streamRes (core n : Nat)
  | qopCmd (core : Nat) | qopArg (core : Nat) | qopSts (core : Nat) | qopData (core n : Nat)
deriving DecidableEq, Repr

/-- 4 for the HI register of a pair (R448). -/
def hiOff (hi : Bool) : Nat := if hi then 4 else 0

/-- Where a cluster's block starts (R456). -/
def clusterBase (k : Nat) : Nat := 0x20000 + 0x2000 * k

/-- The offset of a register in the supervisor space (R452-R462). A command-window register of host window w stands at
2^33 + w x 2^20 + its offset from 0x0001_0000 (each window has its own, R455); a hall-page register of a core at
2^34 + 256 x core + its page offset (R464). The number names the register on its die. -/
def Reg.code : Reg → Nat
  | .dieSerial hi => 0x0 + hiOff hi | .lcStat => 0x8 | .secPolicy => 0xC | .secAlarm => 0x10 | .dieGrade => 0x14
  | .rstCtl => 0x18 | .rstStat => 0x1C | .fwStat => 0x20 | .pkgTimeR hi => 0x24 + hiOff hi | .perfStat => 0x2C
  | .pwrTimer => 0x30 | .wdogCtl => 0x34 | .perfCtl => 0x38 | .perfSnapFrame => 0x3C | .remNode => 0x40
  | .marchCtl => 0x44 | .weedStat => 0x48 | .hardenStat => 0x4C | .scanStat => 0x50 | .xchkCtl => 0x54
  | .xchkStat => 0x58 | .xchkSeed hi => 0x5C + hiOff hi | .baroCfg => 0x64 | .squallCtl => 0x68
  | .squallHead hi => 0x6C + hiOff hi | .evlogCtl => 0x74 | .evlogHead i => 0x80 + 4 * i
  | .rawTa => 0xA0 | .rawCmd => 0xA4 | .rawCheck i => 0xA8 + 4 * i | .rawData i => 0xC0 + 4 * i
  | .meas n i => 0x100 + 0x30 * n + 4 * i | .pwrDom n => 0x300 + 4 * n | .baro n => 0x400 + 4 * n
  | .marchStat n => 0x500 + 4 * n | .dieCounter i hi => 0x600 + 8 * i + hiOff hi
  | .guestId n => 0x800 + 8 * n | .guestLim n => 0x804 + 8 * n
  | .catRange t => 0x1000 + 4 * t | .djobRange t => 0x1040 + 4 * t | .routRange t => 0x1080 + 4 * t
  | .rinRange t => 0x10C0 + 4 * t | .stepHold t => 0x1100 + 4 * t | .tenStat t => 0x1140 + 4 * t
  | .keyStat t => 0x1180 + 4 * t | .storeRange p t => 0x1200 + 0x40 * p + 4 * t | .stewTen i => 0x1280 + 4 * i
  | .barrierCfg b => 0x4000 + 4 * b
  | .cmdCtl w i => 2 ^ 33 + 2 ^ 20 * w + 0x80 * i | .cmdArg w i n => 2 ^ 33 + 2 ^ 20 * w + 0x80 * i + 4 + 4 * n
  | .cmdSts w i => 2 ^ 33 + 2 ^ 20 * w + 0x80 * i + 0x44
  | .cmdRes w i n => 2 ^ 33 + 2 ^ 20 * w + 0x80 * i + 0x48 + 4 * n
  | .sideCtl w => 2 ^ 33 + 2 ^ 20 * w + 0x2000 | .sideArg w => 2 ^ 33 + 2 ^ 20 * w + 0x2004
  | .sideSts w => 2 ^ 33 + 2 ^ 20 * w + 0x2008 | .sideRes w n => 2 ^ 33 + 2 ^ 20 * w + 0x200C + 4 * n
  | .cmdCnt w => 2 ^ 33 + 2 ^ 20 * w + 0x2100 | .hostIrq w => 2 ^ 33 + 2 ^ 20 * w + 0x2104
  | .mergeCtl k => clusterBase k | .mergeStat k => clusterBase k + 4 | .coreFenced k => clusterBase k + 8
  | .ctxRange k t => clusterBase k + 0x40 + 4 * t | .groupCfg k g => clusterBase k + 0x100 + 4 * g
  | .carrelCtl core => clusterBase (core / 32) + 0x200 + 4 * (core % 32)
  | .coreTen core => clusterBase (core / 32) + 0x280 + 4 * (core % 32)
  | .sqCfg k q => clusterBase k + 0x400 + 4 * q | .sqStat k q => clusterBase k + 0x500 + 4 * q
  | .sqHead k q => clusterBase k + 0x600 + 4 * q | .cqCfg k n => clusterBase k + 0x700 + 4 * n
  | .cqCtl k n => clusterBase k + 0x740 + 4 * n | .cqNote k n => clusterBase k + 0x780 + 4 * n
  | .cqStat k n => clusterBase k + 0x7C0 + 4 * n
  | .clusterCounter k i hi => clusterBase k + 0x800 + 8 * i + hiOff hi
  | .carrelCounter core i hi => clusterBase (core / 32) + 0x1000 + 0x40 * (core % 32) + 8 * i + hiOff hi
  | .catWord e w => 0x40000 + 16 * e + 4 * w
  | .rwinCfg n => 0x54000 + 16 * n | .rwinPeer n => 0x54004 + 16 * n | .rwinExt n => 0x54008 + 16 * n
  | .rinCfg n => 0x58000 + 32 * n | .rinSrc n => 0x58004 + 32 * n | .rinBuf n => 0x58008 + 32 * n
  | .rinNote n => 0x5800C + 32 * n | .rinHead n => 0x58010 + 32 * n | .rinTail n => 0x58014 + 32 * n
  | .rsStat i => 0x60000 + 4 * i | .rsCfg b => 0x64000 + 4 * b | .mcgCfg g => 0x64400 + 4 * g
  | .pmcgCfg p => 0x64800 + 4 * p | .ballotCfg b => 0x65000 + 16 * b | .ballotStat b => 0x65004 + 16 * b
  | .ballotOdd b => 0x65008 + 16 * b | .djobCfg n => 0x66000 + 32 * n | .djobKey n i => 0x66010 + 32 * n + 4 * i
  | .pmcgMem p m hi => 0x68000 + 0x200 * p + 8 * m + hiOff hi
  | .mcgMem g m hi => 0x70000 + 0x100 * g + 8 * m + hiOff hi
  | .bankOwn b => 0x80000 + 0x40 * b | .bankPwr b => 0x80004 + 0x40 * b | .bankEcnt b => 0x80008 + 0x40 * b
  | .bankElast b => 0x8000C + 0x40 * b | .bankTest b => 0x80010 + 0x40 * b
  | .bankRemap b n => 0x80020 + 0x40 * b + 4 * n
  | .burstLimit x => 0x100000 + 0x100 * x | .regBudget x => 0x100004 + 0x100 * x | .regUsed x => 0x100008 + 0x100 * x
  | .masterCounter x i hi => 0x100040 + 0x100 * x + 8 * i + hiOff hi
  | .slotResv sg k => 0x4000000 + 0x400 * sg + 4 * k | .segCtl sg => 0x4000200 + 0x400 * sg
  | .segCounter sg i hi => 0x4000300 + 0x400 * sg + 8 * i + hiOff hi
  | .streamCtl core => 2 ^ 34 + 256 * core | .streamArg core n => 2 ^ 34 + 256 * core + 4 + 4 * n
  | .streamSts core => 2 ^ 34 + 256 * core + 0x44 | .streamRes core n => 2 ^ 34 + 256 * core + 0x48 + 4 * n
  | .qopCmd core => 2 ^ 34 + 256 * core + 0x80 | .qopArg core => 2 ^ 34 + 256 * core + 0x84
  | .qopSts core => 2 ^ 34 + 256 * core + 0x88 | .qopData core n => 2 ^ 34 + 256 * core + 0xC0 + 4 * n

/-- The power domain of bank b = TA[29:17] of a die (R24, R460). -/
def bankDomain (b : Nat) : Nat :=
  if b % 512 < 384 then 2 * (b / 512) + b % 512 / 192 else 32 + b / 512 / 2

/-- The crossbar group domain of a cluster (R24). -/
def xbarDomain (k : Nat) : Nat := 40 + k / 4

/-- The domain that holds a register; `none` is the supervisor domain (R452-R464). -/
def Reg.domain : Reg → Option Nat
  | .mergeCtl k | .mergeStat k | .ctxRange k _ | .groupCfg k _ => some (xbarDomain k)
  | .carrelCtl core => some (32 + core / 32 / 2)
  | .sqCfg _ _ | .sqStat _ _ | .sqHead _ _ | .cqCfg _ _ | .cqCtl _ _ | .cqNote _ _ | .cqStat _ _ => some 47
  | .catWord _ _ | .rsStat _ | .rsCfg _ | .mcgCfg _ | .pmcgCfg _ | .pmcgMem _ _ _ | .mcgMem _ _ _ => some 47
  | .rwinCfg _ | .rwinPeer _ | .rwinExt _ => some 46
  | .rinCfg _ | .rinSrc _ | .rinBuf _ | .rinNote _ | .rinHead _ | .rinTail _ => some 46
  | .bankOwn b | .bankPwr b | .bankEcnt b | .bankElast b => some (bankDomain b)
  | .streamCtl core | .streamArg core _ | .streamSts core | .streamRes core _ => some (xbarDomain (core / 32))
  | .qopCmd core | .qopArg core | .qopSts core | .qopData core _ => some (xbarDomain (core / 32))
  | _ => none

/-- The hardened registers (column H of R452-R462; R317). -/
def Reg.hardened : Reg → Bool
  | .remNode | .guestId _ | .guestLim _ | .catRange _ | .djobRange _ | .routRange _ | .rinRange _ | .stepHold _
  | .storeRange _ _ | .stewTen _ | .ctxRange _ _ | .groupCfg _ _ | .coreTen _ | .sqCfg _ _ | .cqCfg _ _
  | .rwinCfg _ | .rwinPeer _ | .rwinExt _ | .rinCfg _ | .rinSrc _ | .rinBuf _ | .rinNote _ | .rsCfg _ | .mcgCfg _
  | .pmcgCfg _ | .ballotCfg _ | .pmcgMem _ _ _ | .mcgMem _ _ _ | .bankOwn _ | .bankRemap _ _ | .burstLimit _
  | .regBudget _ | .slotResv _ _ => true
  | _ => false

/-- The value of a register after die reset (R452-R464). Fused, Record, Flash and Set values are those of log 5: they read
0 until start-up, RST_CTL has its POWER_ON value, DIE_GRADE is that of a die of grade /512, MARCH_CTL that of a new
record. -/
def Reg.resetVal : Reg → Word
  | .dieGrade => 0x04000000
  | .rstCtl => 0x2
  | .pwrTimer => 0x00400100
  | .wdogCtl => 0x80000100
  | .perfCtl => 1
  | .marchCtl => 1
  | .remNode => 0x7FFF
  | .xchkCtl => 0xF
  | .xchkSeed hi => if hi then 0x0B6D2F41 else 0x5A17C3E9
  | .baroCfg => 0x00191000
  | .squallCtl => 0x80000000
  | .baro _ => 0xFFFF2000
  | .guestLim _ => 0xFFFF
  | .catRange t => if t = 0 then 0x10000000 else 0
  | .djobRange t => if t = 0 then 0x01000000 else 0
  | .routRange t => if t = 0 then 0x04000000 else 0
  | .rinRange t => if t = 0 then 0x04000000 else 0
  | .stepHold _ => 1
  | .tenStat t => if t = 0 then 0x40000000 else 0
  | .mergeCtl _ => 0x4080
  | .ctxRange _ t => if t = 0 then 0x08000000 else 0
  | .groupCfg _ _ => 0x10000
  | .catWord _ w => if w = 1 then 0xFF800000 else 0
  | .bankOwn _ => 0x840
  | .burstLimit _ => 0xF
  | .regBudget _ => 0xFFFF
  | _ => 0

/-- The registers of the die control and tenancy regions (R452, R453). -/
def Reg.decodeControl (o : Nat) : Option Reg :=
  if o < 0x80 then
    match o with
    | 0x00 => some (.dieSerial false) | 0x04 => some (.dieSerial true) | 0x08 => some .lcStat | 0x0C => some .secPolicy
    | 0x10 => some .secAlarm | 0x14 => some .dieGrade | 0x18 => some .rstCtl | 0x1C => some .rstStat
    | 0x20 => some .fwStat | 0x24 => some (.pkgTimeR false) | 0x28 => some (.pkgTimeR true) | 0x2C => some .perfStat
    | 0x30 => some .pwrTimer | 0x34 => some .wdogCtl | 0x38 => some .perfCtl | 0x3C => some .perfSnapFrame
    | 0x40 => some .remNode | 0x44 => some .marchCtl | 0x48 => some .weedStat | 0x4C => some .hardenStat
    | 0x50 => some .scanStat | 0x54 => some .xchkCtl | 0x58 => some .xchkStat | 0x5C => some (.xchkSeed false)
    | 0x60 => some (.xchkSeed true) | 0x64 => some .baroCfg | 0x68 => some .squallCtl | 0x6C => some (.squallHead false)
    | 0x70 => some (.squallHead true) | 0x74 => some .evlogCtl | _ => none
  else if o < 0xA0 then some (.evlogHead ((o - 0x80) / 4))
  else if o = 0xA0 then some .rawTa else if o = 0xA4 then some .rawCmd
  else if o < 0xB0 then some (.rawCheck ((o - 0xA8) / 4))
  else if o < 0xC0 then none
  else if o < 0x100 then some (.rawData ((o - 0xC0) / 4))
  else if o < 0x220 then some (.meas ((o - 0x100) / 0x30) ((o - 0x100) % 0x30 / 4))
  else if o < 0x300 then none
  else if o < 0x3C0 then some (.pwrDom ((o - 0x300) / 4))
  else if o < 0x400 then none
  else if o < 0x4A0 then some (.baro ((o - 0x400) / 4))
  else if o < 0x500 then none
  else if o < 0x5A0 then some (.marchStat ((o - 0x500) / 4))
  else if o < 0x600 then none
  else if o < 0x688 then
    (if 3 ≤ (o - 0x600) / 8 && (o - 0x600) / 8 < 8 then none
     else some (.dieCounter ((o - 0x600) / 8) (o % 8 == 4)))
  else if o < 0x800 then none
  else if o < 0x900 then (if o % 8 = 0 then some (.guestId ((o - 0x800) / 8)) else some (.guestLim ((o - 0x800) / 8)))
  else if o < 0x1000 then none
  else if o < 0x1040 then some (.catRange ((o - 0x1000) / 4))
  else if o < 0x1080 then some (.djobRange ((o - 0x1040) / 4))
  else if o < 0x10C0 then some (.routRange ((o - 0x1080) / 4))
  else if o < 0x1100 then some (.rinRange ((o - 0x10C0) / 4))
  else if o < 0x1140 then some (.stepHold ((o - 0x1100) / 4))
  else if o < 0x1180 then some (.tenStat ((o - 0x1140) / 4))
  else if o < 0x11C0 then some (.keyStat ((o - 0x1180) / 4))
  else if o < 0x1200 then none
  else if o < 0x1280 then some (.storeRange ((o - 0x1200) / 0x40) ((o - 0x1200) % 0x40 / 4))
  else if o < 0x12A0 then some (.stewTen ((o - 0x1280) / 4))
  else none

/-- The registers of the command window of host window `w`, at offset `o` from 0x0001_0000 (R455). The pages are bytes of
`State.pages`. -/
def Reg.decodeCmd (w o : Nat) : Option Reg :=
  if o < 0x2000 then
    (let i := o / 0x80; let f := o % 0x80
     if f = 0 then some (.cmdCtl w i) else if f < 0x44 then some (.cmdArg w i ((f - 4) / 4))
     else if f = 0x44 then some (.cmdSts w i) else if f < 0x68 then some (.cmdRes w i ((f - 0x48) / 4)) else none)
  else match o with
    | 0x2000 => some (.sideCtl w) | 0x2004 => some (.sideArg w) | 0x2008 => some (.sideSts w)
    | 0x200C => some (.sideRes w 0) | 0x2010 => some (.sideRes w 1) | 0x2100 => some (.cmdCnt w)
    | 0x2104 => some (.hostIrq w) | _ => none

/-- The registers of cluster `k`'s block, at block offset `f` (R456). -/
def Reg.decodeCluster (k f : Nat) : Option Reg :=
  if f = 0 then some (.mergeCtl k) else if f = 4 then some (.mergeStat k) else if f = 8 then some (.coreFenced k)
  else if f < 0x40 then none
  else if f < 0x80 then some (.ctxRange k ((f - 0x40) / 4))
  else if f < 0x100 then none
  else if f < 0x200 then some (.groupCfg k ((f - 0x100) / 4))
  else if f < 0x280 then some (.carrelCtl (32 * k + (f - 0x200) / 4))
  else if f < 0x300 then some (.coreTen (32 * k + (f - 0x280) / 4))
  else if f < 0x400 then none
  else if f < 0x500 then some (.sqCfg k ((f - 0x400) / 4))
  else if f < 0x600 then some (.sqStat k ((f - 0x500) / 4))
  else if f < 0x700 then some (.sqHead k ((f - 0x600) / 4))
  else if f < 0x740 then some (.cqCfg k ((f - 0x700) / 4))
  else if f < 0x780 then some (.cqCtl k ((f - 0x740) / 4))
  else if f < 0x7C0 then some (.cqNote k ((f - 0x780) / 4))
  else if f < 0x800 then some (.cqStat k ((f - 0x7C0) / 4))
  else if f < 0x880 then some (.clusterCounter k ((f - 0x800) / 8) (f % 8 == 4))
  else if f < 0x1000 then none
  else if f < 0x1800 && f % 0x40 < 0x28 then
    some (.carrelCounter (32 * k + (f - 0x1000) / 0x40) (f % 0x40 / 8) (f % 8 == 4))
  else none

/-- The registers of the sharing region (R459). -/
def Reg.decodeShare (o : Nat) : Option Reg :=
  if o < 0x64000 then some (.rsStat ((o - 0x60000) / 4))
  else if o < 0x64400 then some (.rsCfg ((o - 0x64000) / 4))
  else if o < 0x64800 then some (.mcgCfg ((o - 0x64400) / 4))
  else if o < 0x64900 then some (.pmcgCfg ((o - 0x64800) / 4))
  else if o < 0x65000 then none
  else if o < 0x66000 then
    (let b := (o - 0x65000) / 16
     if o % 16 = 0 then some (.ballotCfg b) else if o % 16 = 4 then some (.ballotStat b)
     else if o % 16 = 8 then some (.ballotOdd b) else none)
  else if o < 0x68000 then
    (let n := (o - 0x66000) / 32
     if o % 32 = 0 then some (.djobCfg n) else if 0x10 ≤ o % 32 then some (.djobKey n ((o % 32 - 0x10) / 4)) else none)
  else if o < 0x70000 then some (.pmcgMem ((o - 0x68000) / 0x200) ((o - 0x68000) % 0x200 / 8) (o % 8 == 4))
  else some (.mcgMem ((o - 0x70000) / 0x100) ((o - 0x70000) % 0x100 / 8) (o % 8 == 4))

/-- Whether a segment ID names a segment that exists (R462, R20, R25), given the number of dies. Segment ID: CLUSTER
[15:12], KIND [11:9], INDEX [8:1], DIR [0] (R131). -/
def segExists (dies sg : Nat) : Bool :=
  let k := sg / 4096
  let index := sg / 2 % 256
  let dir := sg % 2
  match sg / 512 % 8 with
  | 0 => index < 48
  | 1 => index < 32
  | 2 => index < 2
  | 3 =>
    let row := k % 8 / 2
    let col := k % 2 + 2 * (k / 8)
    dir == 0 && (match index with
      | 0 => row != 0 | 1 => col != 3 | 2 => row != 3 | 3 => col != 0 | _ => false)
  | 4 => index == 0
  | 5 => index == 0
  | 6 => k == 0 && dir == 0 && index % 64 < 43 && index / 64 < (if dies = 2 then 1 else 2)
  | _ => false

/-- The register at an offset of the supervisor space, as host window `w` sees it; `none` where the offset is unmapped
(R446) or not a multiple of 4 (R445). -/
def Reg.decode (dies w o : Nat) : Option Reg :=
  if o % 4 != 0 then none
  else if o < 0x1300 then Reg.decodeControl o
  else if o < 0x4000 then none
  else if o < 0x8000 then some (.barrierCfg ((o - 0x4000) / 4))
  else if o < 0x10000 then none
  else if o < 0x20000 then Reg.decodeCmd w (o - 0x10000)
  else if o < 0x40000 then Reg.decodeCluster ((o - 0x20000) / 0x2000) (o % 0x2000)
  else if o < 0x50000 then some (.catWord ((o - 0x40000) / 16) (o % 16 / 4))
  else if o < 0x54000 then none
  else if o < 0x58000 then
    (let n := (o - 0x54000) / 16
     match o % 16 with | 0 => some (.rwinCfg n) | 4 => some (.rwinPeer n) | 8 => some (.rwinExt n) | _ => none)
  else if o < 0x60000 then
    (let n := (o - 0x58000) / 32
     match o % 32 with
     | 0x00 => some (.rinCfg n) | 0x04 => some (.rinSrc n) | 0x08 => some (.rinBuf n) | 0x0C => some (.rinNote n)
     | 0x10 => some (.rinHead n) | 0x14 => some (.rinTail n) | _ => none)
  else if o < 0x80000 then Reg.decodeShare o
  else if o < 0x100000 then
    (let b := (o - 0x80000) / 0x40
     match o % 0x40 with
     | 0x00 => some (.bankOwn b) | 0x04 => some (.bankPwr b) | 0x08 => some (.bankEcnt b) | 0x0C => some (.bankElast b)
     | 0x10 => some (.bankTest b) | 0x20 => some (.bankRemap b 0) | 0x24 => some (.bankRemap b 1)
     | 0x28 => some (.bankRemap b 2) | 0x2C => some (.bankRemap b 3) | _ => none)
  else if o < 0x200000 then
    (let x := (o - 0x100000) / 0x100; let f := o % 0x100
     match f with
     | 0 => some (.burstLimit x) | 4 => some (.regBudget x) | 8 => some (.regUsed x)
     | _ => if 0x40 ≤ f && f < 0x88 then some (.masterCounter x ((f - 0x40) / 8) (f % 8 == 4)) else none)
  else if o < 0x4000000 then none
  else if o < 0x8000000 then
    (let sg := (o - 0x4000000) / 0x400; let f := o % 0x400
     if segExists dies sg then
       (if f < 0x200 then some (.slotResv sg (f / 4)) else if f = 0x200 then some (.segCtl sg)
        else if 0x300 ≤ f && f < 0x388 then some (.segCounter sg ((f - 0x300) / 8) (f % 8 == 4)) else none)
     else none)
  else none

/-- The register at an offset of a core's hall page (R464). CARREL_CTL is an alias of R456. -/
def Reg.decodeHall (core o : Nat) : Option Reg :=
  if o % 4 != 0 then none
  else if o = 0 then some (.streamCtl core)
  else if o < 0x44 then some (.streamArg core ((o - 4) / 4))
  else if o = 0x44 then some (.streamSts core)
  else if o < 0x68 then some (.streamRes core ((o - 0x48) / 4))
  else match o with
    | 0x80 => some (.qopCmd core) | 0x84 => some (.qopArg core) | 0x88 => some (.qopSts core)
    | 0x8C => some (.carrelCtl core)
    | _ => if 0xC0 ≤ o && o < 0x100 then some (.qopData core ((o - 0xC0) / 4)) else none

/-- The register that a code names (the inverse of `Reg.code`). -/
def Reg.ofCode (dies c : Nat) : Option Reg :=
  if 2 ^ 34 ≤ c then Reg.decodeHall ((c - 2 ^ 34) / 256) (c % 256)
  else if 2 ^ 33 ≤ c then Reg.decodeCmd ((c - 2 ^ 33) / 2 ^ 20) (c % 2 ^ 20)
  else Reg.decode dies 0 c

/-- The register pair a register belongs to: the code of its LO register (R448). -/
def Reg.pairOf : Reg → Option (Nat × Bool)
  | .dieSerial hi => some ((Reg.dieSerial false).code, hi)
  | .pkgTimeR hi => some ((Reg.pkgTimeR false).code, hi)
  | .squallHead hi => some ((Reg.squallHead false).code, hi)
  | .xchkSeed hi => some ((Reg.xchkSeed false).code, hi)
  | .dieCounter i hi => some ((Reg.dieCounter i false).code, hi)
  | .clusterCounter k i hi => some ((Reg.clusterCounter k i false).code, hi)
  | .carrelCounter c i hi => some ((Reg.carrelCounter c i false).code, hi)
  | .masterCounter x i hi => some ((Reg.masterCounter x i false).code, hi)
  | .segCounter x i hi => some ((Reg.segCounter x i false).code, hi)
  | .pmcgMem p m hi => some ((Reg.pmcgMem p m false).code, hi)
  | .mcgMem g m hi => some ((Reg.mcgMem g m false).code, hi)
  | _ => none

end Sys2Proof.Machine
end

