-- ==== Sys2Proof/Machine/Ops.lean ====
section
/-! DEFINITION. The named operations every command uses: registers, domains, masters and their tags, status words, the
event log, interrupts, counters and free draws. -/

namespace Sys2Proof.Machine

open Sys2Proof

/-! ### The outcome of a command -/

/-- Dies of a package type (R1). -/
def Package.dies : Package → Nat
  | .zarun2 => 2 | .zarun4 => 4 | .zarun8 => 8

/-- Dies of the package (R1). -/
def State.dies (s : State) : Nat := s.package.dies

/-- Whether a die is present (R1). -/
def State.present (s : State) (d : Nat) : Bool := decide (d < s.dies)

/-- The outcome of a command that acts on the dies `ds`: what it does to everything but the queue and the package type, or
the fault where a die is absent (R1, log 4). -/
def act (s : State) (ds : List Nat) (t : State) : Host.Outcome State Fault Refusal :=
  if ds.all s.present then .next { t with pending := s.pending, package := s.package } else .fault .absentDie

/-! ### Parts of the state -/

def State.onBanks (s : State) (f : BankSt → BankSt) : State := { s with banks := f s.banks }
def State.onFabric (s : State) (f : FabricSt → FabricSt) : State := { s with fabric := f s.fabric }
def State.onStreams (s : State) (f : StreamSt → StreamSt) : State := { s with streams := f s.streams }
def State.onQueues (s : State) (f : QueueSt → QueueSt) : State := { s with queues := f s.queues }
def State.onRemote (s : State) (f : RemoteSt → RemoteSt) : State := { s with remote := f s.remote }
def State.onReplicas (s : State) (f : ReplicaSt → ReplicaSt) : State := { s with replicas := f s.replicas }
def State.onSecurity (s : State) (f : SecuritySt → SecuritySt) : State := { s with security := f s.security }
def State.onPower (s : State) (f : PowerSt → PowerSt) : State := { s with power := f s.power }
def State.onSup (s : State) (f : SupSt → SupSt) : State := { s with sup := f s.sup }

/-- One free draw taken (log 6). -/
def State.draw (s : State) : State := { s with draws := s.draws + 1 }

/-- An answer to the outside (log 9). -/
def State.emitOut (s : State) (o : Output) : State := { s with out := o :: s.out }

/-- A command's effect over several items, one after another. -/
def foldOver {α : Type} (l : List α) (s : State) (f : State → α → State) : State := l.foldl f s

/-! ### Registers -/

/-- The key of a register of die `d`. -/
def key (d : Nat) (r : Reg) : Nat := d * 2 ^ 40 + r.code

/-- The stored value of a register. -/
def regGet (s : State) (d : Nat) (r : Reg) : Word := SMap.get s.regs (key d r) r.resetVal

/-- A register's stored value replaced. -/
def regSet (s : State) (d : Nat) (r : Reg) (v : Word) : State := { s with regs := SMap.set s.regs (key d r) v }

/-- One field of a register replaced. -/
def regField (s : State) (d : Nat) (r : Reg) (lo n v : Nat) : State := regSet s d r (setField (regGet s d r) lo n v)

/-- A field of a register. -/
def rf (s : State) (d : Nat) (r : Reg) (lo n : Nat) : Nat := field (regGet s d r) lo n

/-- A register of die `d` at its reset value again. -/
def regReset (s : State) (d : Nat) (r : Reg) : State := { s with regs := SMap.erase s.regs (key d r) }

/-- A hardened register whose three copies have been lost (R319). While it is unsafe the stored value is the one that the
table of R319 lets its function use; reads return 0. -/
def isUnsafe (s : State) (d : Nat) (r : Reg) : Bool := SMap.get s.replicas.unsafeRegs (key d r) false

/-- The register that a key names. -/
def keyReg (s : State) (k : Nat) : Option (Nat × Reg) :=
  match Reg.ofCode s.dies (k % 2 ^ 40) with
  | some r => some (k / 2 ^ 40, r)
  | none => none

/-- Every register of the die that `p` picks at its reset value (R8). -/
def regResetIf (s : State) (d : Nat) (p : Reg → Bool) : State :=
  { s with regs := SMap.eraseIf s.regs (fun k => match keyReg s k with
      | some (e, r) => e == d && p r
      | none => false) }

/-- A 64-bit register pair (R448): HI and LO together. -/
def pairGet (s : State) (d : Nat) (r : Bool → Reg) : Nat := (regGet s d (r true)).toNat * 2 ^ 32 + (regGet s d (r false)).toNat

/-! ### Bytes of the command-window pages (R394) -/

/-- Where byte `k` of page `p` (0 DATA, 1 REPLY, 2 ALMANAC) of window `w` stands in `State.pages`. -/
def pageKey (d w p k : Nat) : Nat := d * 2 ^ 20 + w * 2 ^ 16 + p * 4096 + k

/-- Bytes of a page. -/
def pageRead (s : State) (d w p off n : Nat) : List Byte :=
  (List.range n).map (fun i => SMap.get s.pages (pageKey d w p (off + i)) 0)

/-- Bytes written to a page. -/
def pageWrite (s : State) (d w p off : Nat) (l : List Byte) : State :=
  { s with pages := (l.zip (List.range l.length)).foldl (fun m e => SMap.set m (pageKey d w p (off + e.2)) e.1) s.pages }

/-! ### Status words (R9, R10) -/

namespace Code
def done : Nat := 0x00
def notReady : Nat := 0x01
def full : Nat := 0x02
def empty : Nat := 0x03
def state : Nat := 0x04
def denied : Nat := 0x05
def badArg : Nat := 0x06
def halted : Nat := 0x07
def aborted : Nat := 0x08
def stale : Nat := 0x09
def closed : Nat := 0x0A
def uncorrectable : Nat := 0x0B
def busy : Nat := 0x0C
def sealFail : Nat := 0x0D
def fenced : Nat := 0x0E
def brownout : Nat := 0x0F
end Code

/-- A status word: CODE, DETAIL, CORRECTED, LATE, ALREADY_READ (R10). -/
def stWord (code : Nat) (detail : Nat := 0) (corrected : Bool := false) (late : Bool := false) (already : Bool := false) :
    Word :=
  word (put 16 16 detail + putB 10 corrected + putB 9 late + putB 8 already + put 0 8 code)

/-- CODE of a status word. -/
def stCode (w : Word) : Nat := field w 0 8

/-- DETAIL of a status word. -/
def stDetail (w : Word) : Nat := field w 16 16

/-! ### Package master identities and tags -/

/-- Package master identity (R107): die x 4,096 + local master ID. -/
def identOf (d m : Nat) : Nat := d * 4096 + m

/-- The stream group's master ID (R32). -/
def groupMaster (cl g : Nat) : Nat := 0x400 + 64 * cl + g

/-- Whether a local master ID is assigned (R32). -/
def assigned (m : Nat) : Bool :=
  m < 0x200 || (0x400 ≤ m && m < 0x800) || m == 0x800 || m == 0x801 || m == 0x810 || m == 0x811 || m == 0x820
    || m == 0x830 || m == 0x840

/-- Whether a core is fenced: CORE_FENCED (R388). -/
def coreFenced (s : State) (d core : Nat) : Bool := bit (regGet s d (.coreFenced (core / 32))) (core % 32)

/-- R33: the status that naming a master ID gives, DONE where it may be named. -/
def masterStatus (s : State) (d m : Nat) : Nat :=
  if !assigned m then Code.badArg
  else if m < 0x200 && coreFenced s d m then Code.fenced
  else Code.done

/-- The tag of a core (R324). -/
def coreTag (s : State) (d core : Nat) : Nat := rf s d (.coreTen core) 0 4

/-- The tag of a stream group (R175, R324). -/
def groupTag (s : State) (d cl g : Nat) : Nat := rf s d (.groupCfg cl g) 0 4

/-- State of a tenancy on a die (R328): 0 FREE, 1 ACTIVE, 2 CLOSING. -/
def tenState (s : State) (d t : Nat) : Nat := rf s d (.tenStat t) 30 2

/-! ### Domains (R24, R353) -/

/-- Where a domain of a die stands in `PowerSt.doms`. -/
def domKey (d n : Nat) : Nat := d * 64 + n

/-- A domain; DOWN where nothing has powered it (R418). -/
def dom (s : State) (d n : Nat) : Dom := SMap.get s.power.doms (domKey d n) ⟨.down, false, false, none, 0⟩

def domSet (s : State) (d n : Nat) (v : Dom) : State :=
  s.onPower (fun p => { p with doms := SMap.set p.doms (domKey d n) v })

/-- Life-cycle state of a die: 0 MANUFACTURE, 1 PROVISIONED, 2 DEPLOYED, 3 RETURNED (R340). -/
def lifeCycle (s : State) (d : Nat) : Nat := rf s d .lcStat 0 2

/-- Scan patterns are being applied to a domain (R316). -/
def scanning (s : State) (d n : Nat) : Bool :=
  match SMap.find s.replicas.scans d with | some x => x.domain == n && x.found == 0 | none => false

/-- A domain is UP. -/
def domUp (s : State) (d n : Nat) : Bool := (dom s d n).st == .up && !scanning s d n

/-- The domain of a register is UP (R446). -/
def regUp (s : State) (d : Nat) (r : Reg) : Bool :=
  match r.domain with
  | none => true
  | some n => domUp s d n

/-- Start-up of a die; reset is asserted where nothing has released it (R418). -/
def bootOf (s : State) (d : Nat) : BootSt :=
  SMap.get s.boots d ⟨true, true, 1, false, false, false, 0, 0, 0, 0, false, none, 0, false, none, false, 0⟩

def bootSet (s : State) (d : Nat) (f : BootSt → BootSt) : State := { s with boots := SMap.set s.boots d (f (bootOf s d)) }

/-- Whether a die's bypass is open, so that it takes part in the ring (R28). -/
def dieOpen (s : State) (d : Nat) : Bool := s.present d && (bootOf s d).opened

/-- A root relock is in progress: no cc elapses (R371). The relock of a die that changes its level by itself, its bypass closed, holds
the cycles of the whole package: the cycles of the other dies in those 2 us come before it or after it (DESIGN CHOICE, log 1). -/
def rootStopped (s : State) : Bool := s.power.perf.any (fun e => match e.2.step with | .relock _ => true | _ => false)

/-- The root of a die is stopped by DOZE: nothing on it that counts cycles goes on (R372, R373). -/
def dieStopped (s : State) (d : Nat) : Bool := (SMap.find s.power.stopped d).isSome

/-- A level change runs on a die: PERF_STAT.CHANGING (R369). -/
def levelChanging (s : State) (d : Nat) : Bool := bit (regGet s d .perfStat) 31

/-- The package's frame count (R91, R426). -/
def frameCount (s : State) : Nat := s.frame - s.frameBase

/-! ### The event log (R412-R414) -/

/-- An event with the fields that an event does not use (R413). -/
def ev (code obj aux : Nat) : Event :=
  { seq := 0, frame := 0, code := BitVec.ofNat 8 code, ten := none, master := 0x7FFF, task := 0xFFFF, detail := 0,
    addr := 0, obj := word obj, aux := word aux }

/-- A cluster fused as a fenced cluster at grading: its crossbar and hall receive no clock (R391). -/
def clusterFenced (s : State) (d k : Nat) : Bool := (SMap.get s.power.fuses d []).contains (.cluster k)

/-- Records held by a die's event log. -/
def eventsOf (s : State) (d : Nat) : List Event := SMap.get s.sup.events d []

/-- A record raised: it takes the next SEQ; on a full log it is discarded and LOST counts 1 (R412, R413). -/
def logEvent (s : State) (d : Nat) (e : Event) : State :=
  let n := SMap.get s.sup.nextEvent d 0 + 1
  let s1 := s.onSup (fun u => { u with nextEvent := SMap.set u.nextEvent d n })
  let rec' := { e with seq := n, frame := frameCount s % 2 ^ 32 }
  let lost := rf s d .evlogCtl 24 8
  if (eventsOf s d).length < 512 then s1.onSup (fun u => { u with events := SMap.set u.events d (eventsOf s d ++ [rec']) })
  else
    let was := SMap.get s.sup.eventNow d ⟨0, 0, []⟩
    let m : EventNow := if was.cycle = s.now then was else ⟨s.now, lost, []⟩
    let s2 := s1.onSup (fun u => { u with eventNow := SMap.set u.eventNow d { m with dropped := m.dropped ++ [rec'] } })
    if lost < 255 then regField s2 d .evlogCtl 24 8 (lost + 1) else s2

/-- REG_REFUSED of a register: OBJ its offset, AUX the status (R414). -/
def logRefused (s : State) (d : Nat) (r : Reg) (code : Nat) (ten : Option Nat) : State :=
  logEvent s d { ev 0x02 r.code code with ten := ten.map (BitVec.ofNat 4) }

/-! ### Interrupts (R400) -/

/-- Where the cycle stands in which hardware last set bit `b` of a register. -/
def w1cKey (d : Nat) (r : Reg) (b : Nat) : Nat := key d r * 32 + b

/-- Hardware sets a write-1-to-clear bit (R450). -/
def hardSetBit (s : State) (d : Nat) (r : Reg) (b : Nat) : State :=
  (regField s d r b 1 1).onSup (fun u => { u with w1cSet := SMap.set u.w1cSet (w1cKey d r b) s.now })

/-- A write of `v` to the write-1-to-clear bits from `lo` up: each bit written 1 is cleared (R6), but for a bit that hardware sets in
the same control-clock cycle, which reads 1 afterwards (R450). -/
def clearByOnes (s : State) (d : Nat) (r : Reg) (lo n v : Nat) : State :=
  let keep := (List.range n).foldl (fun m i =>
    if !v.testBit i || (match SMap.find s.sup.w1cSet (w1cKey d r (lo + i)) with | some t => t / 2 == s.now / 2 | none => false)
    then m + 2 ^ i else m) 0
  regField s d r lo n (rf s d r lo n &&& keep)

/-- A PEND bit of HOST_IRQ set (R400). -/
def setIrq (s : State) (d w b : Nat) : State := hardSetBit s d (.hostIrq w) b

/-! ### Counters (R133) -/

/-- `n` added to a counter, saturating at 2^48 - 1, where counters of the die run (R133, R134). -/
def ctrAdd (s : State) (d : Nat) (r : Reg) (n : Nat) : State :=
  if n != 0 && rf s d .perfCtl 0 1 == 1 then
    s.onFabric (fun f => { f with counters := SMap.upd f.counters (key d r) 0 (fun c => min (c + n) (2 ^ 48 - 1)) })
  else s

/-- 1 counted on a segment counter (R135). -/
def segCount (s : State) (d sg i : Nat) : State := ctrAdd s d (.segCounter sg i false) 1

/-- 1 counted on a master counter of the master's home die (R136); unassigned IDs count nothing. -/
def masterCount (s : State) (ident i : Nat) : State :=
  if assigned (ident % 4096) then ctrAdd s (ident / 4096) (.masterCounter (ident % 4096) i false) 1 else s

/-- A status returned to a master counts in its LATE where it carries LATE (R136). -/
def countLate (s : State) (ident : Nat) (st : Word) : State := if bit st 9 then masterCount s ident 7 else s

/-- 1 counted on a cluster counter (R137, R163, R259). -/
def clusterCount (s : State) (d cl i n : Nat) : State := ctrAdd s d (.clusterCounter cl i false) n

/-- 1 counted on a die counter (R293, R313). -/
def dieCount (s : State) (d i : Nat) : State := ctrAdd s d (.dieCounter i false) 1

/-! ### Geometry of a tensor address (R35) -/

def taDie (a : Nat) : Nat := a / 2 ^ 30 % 8
def taCluster (a : Nat) : Nat := a / 2 ^ 26 % 16
/-- Bank of the cluster, 0-511. -/
def taBank (a : Nat) : Nat := a / 2 ^ 17 % 512
/-- Bank of the die: TA[29:17]. -/
def taDieBank (a : Nat) : Nat := a / 2 ^ 17 % 8192
/-- Bank of the package: TA[32:17]. -/
def taPkgBank (a : Nat) : Nat := a / 2 ^ 17 % 65536
/-- Line of the package: TA[32:6]. -/
def taLine (a : Nat) : Nat := a / 64 % 2 ^ 27
/-- Folio of the package: TA[32:12]. -/
def taFolio (a : Nat) : Nat := a / 4096 % 2 ^ 21

/-- Die and bank of the die, of a package bank number. -/
def pbDie (b : Nat) : Nat := b / 8192
def pbBank (b : Nat) : Nat := b % 8192
/-- Cluster of a package bank number. -/
def pbCluster (b : Nat) : Nat := b % 8192 / 512
/-- Bank of the cluster, of a package bank number. -/
def pbLocal (b : Nat) : Nat := b % 512

/-- A carrel bank (R15). -/
def isCarrel (bank : Nat) : Bool := 384 ≤ bank % 512
/-- An exchange bank (R15). -/
def isExchange (bank : Nat) : Bool := 352 ≤ bank % 512 && bank % 512 < 384
/-- Die core number of the core that owns a carrel bank (R15). -/
def carrelCore (b : Nat) : Nat := 32 * (b % 8192 / 512) + (b % 512 - 384) / 4

/-- A bank is retired: BANK_TEST.RETIRED (R383). -/
def retired (s : State) (b : Nat) : Bool := bit (regGet s (pbDie b) (.bankTest (pbBank b))) 31

/-- The ownership in force at the bank's logic (R44): the tags kept by a hand-over in progress, else BANK_OWN. -/
def ownOf (s : State) (b : Nat) : Word :=
  match SMap.find s.banks.tags b with
  | some w => w
  | none => regGet s (pbDie b) (.bankOwn (pbBank b))

/-- TEN of an ownership word (R39). -/
def ownTen (w : Word) : Nat := field w 12 4

/-- The tenancy that an event about a bank concerns: the bank's TEN in force (R413). -/
def evTen (s : State) (b : Nat) : Option Win := some (BitVec.ofNat 4 (ownTen (ownOf s b)))

/-- A stream group's own cluster and number, of its master ID. -/
def mGroup (m : Nat) : Nat × Nat := ((m - 0x400) / 64 % 16, m % 64)

end Sys2Proof.Machine
end

