-- ==== Sys2Proof/Machine/Lines.lean ====
section
/-! DEFINITION. The arrays of a bank: rows, valid bits, classes, seal states, reads and writes of lines by class, the merge
buffer's entries, findings, wakes. A line is TA[32:6], a bank TA[32:17], a folio TA[32:12]. -/

namespace Sys2Proof.Machine

open Sys2Proof

/-! ### Rows, valid bits, classes -/

/-- Bank and line of the bank, of a package line. -/
def lnBank (pl : Nat) : Nat := pl / 2048
def lnIndex (pl : Nat) : Nat := pl % 2048
def lnFolio (pl : Nat) : Nat := pl / 64
/-- First bank line of a folio, and its bank. -/
def foBank (f : Nat) : Nat := f / 32
def foLine (f : Nat) : Nat := f * 64

/-- The remap entry of a bank that redirects a line, where its copy has been made (R169). -/
def remapOf (s : State) (b line : Nat) : Option Nat :=
  (List.range 4).find? (fun n =>
    let w := regGet s (pbDie b) (.bankRemap (pbBank b) n)
    bit w 31 && field w 0 11 == line && !(s.banks.remapCopies.any (fun e => e.1 == b * 4 + n)))

/-- The physical row of a line: the line's own, or its spare row (R66, R169). -/
def rowOf (s : State) (pl : Nat) : Nat :=
  match remapOf s (lnBank pl) (lnIndex pl) with
  | some n => 2048 + n
  | none => lnIndex pl

/-- Where a physical row of a bank stands in memory: 72 bytes a row, 2,052 rows a bank (R66). -/
def rowAddr (b row : Nat) : Nat := (b * 2052 + row) * 72

/-- The 72 stored bytes of a line. -/
def rowBytes (s : State) (pl : Nat) : List Byte := Mem.readN s.banks.mem (rowAddr (lnBank pl) (rowOf s pl)) 72

/-- A line's valid bit (R70). -/
def lineValid (s : State) (pl : Nat) : Bool := SMap.get s.banks.valid pl false

/-- The stored bytes of a line as a reader finds them: zeros where the line is invalid (R70). -/
def seenBytes (s : State) (pl : Nat) : List Byte :=
  if lineValid s pl then rowBytes s pl else List.replicate 72 0

/-- Stored bytes of a line replaced, and its valid bit set (R71). -/
def putRow (s : State) (pl : Nat) (row : List Byte) : State :=
  s.onBanks (fun b => { b with mem := Mem.writeN b.mem (rowAddr (lnBank pl) (rowOf s pl)) row,
                               valid := SMap.set b.valid pl true })

/-- Class of a folio (R50). -/
def classOf (s : State) (f : Nat) : Protection := SMap.get s.banks.classMap f .byte

/-- Whether a folio is of class FOLIO. -/
def isFolioClass (s : State) (f : Nat) : Bool :=
  match classOf s f with | .folio _ => true | _ => false

/-- Seal state of a folio (R164). -/
def sealOf (s : State) (f : Nat) : SealState := SMap.get s.banks.sealMap f .opened

def setSeal (s : State) (f : Nat) (v : SealState) : State :=
  s.onBanks (fun b => { b with sealMap := SMap.set b.sealMap f v })

/-- Number of a class, as word 0 of a catalogue entry has it (R48). -/
def Protection.code : Protection → Nat
  | .byte => 0 | .word => 1 | .folio _ => 2

/-- STRENGTH of a class (R48). -/
def Protection.strength : Protection → Nat
  | .folio t => t.toNat | _ => 0

/-- Read addition of a class (R101). -/
def Protection.readAdd : Protection → Nat
  | .byte => 0
  | .word => 2
  | .folio t => match t.toNat with | 0 => 40 | 1 => 64 | 2 => 112 | _ => 176

/-- Write addition of a class (R102). -/
def Protection.writeAdd : Protection → Nat
  | .byte => 0 | _ => 2

/-- Collation entries of the folios that `p` picks dropped; requests that were presented and not yet granted wait for new
ones (R151). -/
def dropCollations (s : State) (p : Nat → Bool) : State :=
  (s.onBanks (fun b => { b with collations := b.collations.filter (fun e => !p e.folio) })).onFabric
    (fun f => { f with slots := f.slots.map (fun x => match x.src with
      | .bank ta _ => if x.stage == .waiting && p (taFolio ta.toNat) && isFolioClass s (taFolio ta.toNat)
          then { x with presented := false } else x
      | _ => x) })

/-! ### Merge entries (R154-R160) -/

/-- Entries of a line, in allocation order. -/
def mergeOf (s : State) (pl : Nat) : List MergeEntry := s.banks.merge.filter (fun e => e.line == pl)

/-- The OPEN entry of a line (R154). -/
def openEntry (s : State) (pl : Nat) : Option MergeEntry := (mergeOf s pl).find? (fun e => !e.closed)

/-- Entries of a cluster: MERGE_STAT.PEND counts them (R162). -/
def mergeOfCluster (s : State) (d cl : Nat) : List MergeEntry :=
  s.banks.merge.filter (fun e => pbDie (lnBank e.line) == d && pbCluster (lnBank e.line) == cl)

/-- A line of data with an entry's enabled bytes over it. -/
def overlay (data : List Byte) (e : MergeEntry) : List Byte :=
  (List.range 64).map (fun i => if e.mask.getD i false then e.bytes.getD i 0 else data.getD i 0)

/-- The enables of several entries together. -/
def maskOf (l : List MergeEntry) : List Bool :=
  (List.range 64).map (fun i => l.any (fun e => e.mask.getD i false))

/-- A merge entry changed. -/
def mergeMod (s : State) (id : Nat) (f : MergeEntry → MergeEntry) : State :=
  s.onBanks (fun b => { b with merge := b.merge.map (fun e => if e.id == id then f e else e) })

/-- Entries that `p` picks discarded, one MERGE_LOST event for each cluster concerned (R160). -/
def mergeDiscard (s : State) (p : MergeEntry → Bool) : State :=
  let lost := s.banks.merge.filter p
  let s1 := s.onBanks (fun b => { b with merge := b.merge.filter (fun e => !p e) })
  let clusters := (lost.map (fun e => lnBank e.line / 512)).eraseDups
  clusters.foldl (fun s c => logEvent s (c / 16)
    { ev 0x09 (c % 16) ((lost.filter (fun e => lnBank e.line / 512 == c)).length) with
      detail := 1, ten := ((lost.map (fun e => lnBank e.line)).find? (· / 512 == c)).bind (evTen s) }) s1

/-- One more entry that an operation has discarded in a cluster. -/
def noteLost (s : State) (o : LostOp) (c : Nat) (ten : Option Win) : State :=
  let mine : LostMerge → Bool := fun l => l.op == o && l.cluster == c
  let next := if s.banks.lost.any mine then s.banks.lost.map (fun l => if mine l then { l with count := l.count + 1 } else l)
    else s.banks.lost ++ [⟨o, c, 1, ten⟩]
  s.onBanks (fun b => { b with lost := next })

/-- Merge entries discarded for an operation of several banks or folios: they are counted until it ends (R160). -/
def mergeDiscardFor (s : State) (op : Option LostOp) (p : MergeEntry → Bool) : State :=
  match op with
  | none => mergeDiscard s p
  | some o =>
    let gone := s.banks.merge.filter p
    let s1 := s.onBanks (fun b => { b with merge := b.merge.filter (fun e => !p e) })
    gone.foldl (fun s e => noteLost s o (lnBank e.line / 512) (evTen s (lnBank e.line))) s1

/-- The operation has ended: one MERGE_LOST for each cluster concerned (R160). -/
def logLost (s : State) (op : LostOp) : State :=
  let mine := sortBy (fun a b => a.cluster ≤ b.cluster) (s.banks.lost.filter (fun l => l.op == op))
  let s1 := s.onBanks (fun b => { b with lost := b.lost.filter (fun l => l.op != op) })
  mine.foldl (fun s l => logEvent s (l.cluster / 16) { ev 0x09 (l.cluster % 16) l.count with detail := 1, ten := l.ten }) s1

/-- HOLD of a cluster: 1-255, 0 as 1 (R161). -/
def mergeHold (s : State) (d cl : Nat) : Nat := max 1 (rf s d (.mergeCtl cl) 8 8)

/-- BANK_CAP of a cluster: 0 as 1 (R161). -/
def bankCap (s : State) (d cl : Nat) : Nat := max 1 (rf s d (.mergeCtl cl) 4 4)

/-! ### Findings (R171, R172) -/

/-- Severity of a finding's kind, 0 the most severe (R171). -/
def severity (kind : Nat) : Nat :=
  match kind with | 5 => 0 | 6 => 1 | 3 => 2 | 1 => 3 | 4 => 4 | 2 => 5 | _ => 6

/-- The most severe finding of a read, the lowest line between equals (R171). -/
def worst (l : List LineRead) : Option LineRead :=
  l.foldl (fun acc r => if r.kind == 0 then acc else
    match acc with
    | none => some r
    | some a => if severity r.kind < severity a.kind then some r else some a) none

/-- Findings of a read recorded: BANK_ECNT, BANK_ELAST and one DATA_UNCORR event for each uncorrectable one (R171, R172).
`master` and `task` are those of the read. -/
def recordFindings (s : State) (b cls : Nat) (l : List LineRead) (master task : Nat) : State :=
  match worst l with
  | none => s
  | some w =>
    let d := pbDie b
    let corr := (l.map (·.corr)).foldl (· + ·) 0
    let unc := (l.map (·.uncorr)).foldl (· + ·) 0
    let e := regGet s d (.bankEcnt (pbBank b))
    let s1 := regSet s d (.bankEcnt (pbBank b))
      (word (put 16 16 (min (field e 16 16 + corr) 0xFFFF) + put 8 8 (min (field e 8 8 + unc) 0xFF)))
    let s2 := regSet s1 d (.bankElast (pbBank b)) (word (put 24 3 w.kind + put 0 11 (w.line % 2048)))
    let s3 := s2.onReplicas (fun r => { r with baroCorr := SMap.upd r.baroCorr (domKey d (bankDomain (pbBank b))) 0 (· + corr) })
    l.foldl (fun s r => (List.range r.uncorr).foldl (fun s _ => logEvent s d
      { ev 0x05 cls r.kind with ten := evTen s b, addr := BitVec.ofNat 48 (r.line * 64), master := BitVec.ofNat 16 master,
                                task := BitVec.ofNat 16 task }) s) s3

/-! ### Reads of a line by class -/

/-- A word of a list of bytes. -/
def wordAt (l : List Byte) (i : Nat) : List Byte := (l.drop (8 * i)).take 8

/-- A BYTE line (R144). -/
def readByteLine (s : State) (pl : Nat) : LineRead :=
  let row := seenBytes s pl
  let ok := (List.range 8).all (fun i => row.getD (64 + i) 0 == byteCheck row i)
  ⟨pl, row.take 64, 0, if ok then 0 else 1, if ok then 0 else 1, false⟩

/-- A WORD line, with its merge entries over it (R144, R156). -/
def readWordLine (s : State) (pl : Nat) : LineRead :=
  let row := seenBytes s pl
  let es := mergeOf s pl
  let mask := maskOf es
  let words := (List.range 8).map (fun i =>
    if (List.range 8).all (fun j => mask.getD (8 * i + j) false) then (wordAt row i, WordResult.clean)
    else
      match wordDecode (wordAt row i) (row.getD (64 + i) 0) with
      | .corrected w => (w, .corrected w)
      | r => (wordAt row i, r))
  let corr := (words.filter (fun w => match w.2 with | .corrected _ => true | _ => false)).length
  let unc := (words.filter (fun w => w.2 == .bad)).length
  let data := es.foldl overlay (words.flatMap (·.1))
  ⟨pl, data, corr, unc, if unc != 0 then 3 else if corr != 0 then 2 else 0, !es.isEmpty⟩

/-- Line of the folio in which a bit of the codeword stands. -/
def errorLine (i : Nat) : Nat := if i < 33792 then i / 528 else (parityPlace ((i - 33792) / 8)).1

/-- A FOLIO line under a collation's result: located errors inverted, then its CRC compared (R150); an error located in one of its check
bytes counts as corrected too (R146). An OPEN folio reads 64
zero bytes (R164). `none` is a FAILED collation. -/
def readFolioLine (s : State) (pl : Nat) (errs : Option (List Nat)) : LineRead :=
  if sealOf s (lnFolio pl) == .opened then ⟨pl, List.replicate 64 0, 0, 0, 0, false⟩
  else match errs with
    | none => ⟨pl, List.replicate 64 0, 0, 0, 5, false⟩
    | some es =>
      let row := (seenBytes s pl).take 66
      let mine := es.filter (fun i => errorLine i == pl % 64)
      let fixed := (mine.filter (· < 33792)).foldl (fun l i => flipBit l (i % 528)) row
      let stored := (fixed.getD 64 0).toNat + 256 * (fixed.getD 65 0).toNat
      let ok := stored == crc16 (fixed.take 64)
      ⟨pl, fixed.take 64, mine.length, if ok then 0 else 1, if !ok then 6 else if mine.length != 0 then 4 else 0, false⟩

/-- A line read under its folio's class; the result of its collation is needed for FOLIO. -/
def readLine (s : State) (pl : Nat) : LineRead :=
  match classOf s (lnFolio pl) with
  | .byte => readByteLine s pl
  | .word => readWordLine s pl
  | .folio _ =>
    match (s.banks.collations.find? (fun e => e.folio == lnFolio pl)).map Collation.st with
    | some CollState.failed => readFolioLine s pl none
    | some (CollState.ready errs) => readFolioLine s pl (some errs)
    | _ => readFolioLine s pl (some [])

/-- What a read of a block gives: status word without LATE, and data. -/
structure BlockRead where
  status : Word
  data : List Byte
deriving DecidableEq, Repr

/-- The lines that an access of `n` bytes at an address touches. -/
def linesOf (ta n : Nat) : List Nat := (List.range ((ta % 64 + n + 63) / 64)).map (fun i => taLine ta + i)

/-- What the lines read for `n` bytes of one 256-byte block give: findings recorded, UNCORRECTABLE with the place and kind of the
first failing line and no data (R145), CORRECTED where a line was corrected (R146). Corrections of a FOLIO slot are counted by its
collation (R172). -/
def readOver (s : State) (ta n master task : Nat) (ls : List LineRead) : State × BlockRead :=
  let b := taPkgBank ta
  let cls := classOf s (taFolio ta)
  let counted := if cls.code == 2 then ls.map (fun r => { r with corr := 0, kind := if r.kind == 6 then 6 else 0 }) else ls
  let s1 := recordFindings s b cls.code counted master task
  let s2 := clusterCount s1 (pbDie b) (pbCluster b) 3 (ls.filter (·.fwd)).length
  match ls.find? (fun r => r.uncorr != 0 || r.kind == 5) with
  | some r => (s2, ⟨stWord Code.uncorrectable (r.line % 4 + 4 * r.kind), []⟩)
  | none =>
    (s2, ⟨stWord Code.done 0 (ls.any (fun r => r.corr != 0)), ((ls.flatMap (·.data)).drop (ta % 64)).take n⟩)

/-- `n` bytes of one block read at once. -/
def readBlock (s : State) (ta n master task : Nat) : State × BlockRead :=
  readOver s ta n master task ((linesOf ta n).map (readLine s))

/-! ### Writes of a line by class -/

/-- A line's new stored bytes from data bytes and enables, its base zeros where the line was invalid (R71, R153): under BYTE
the parity bits of the enabled bytes change, under WORD the check bytes of the words that are enabled. -/
def directRow (cls : Nat) (base data : List Byte) (mask : List Bool) : List Byte :=
  let bytes := (List.range 64).map (fun i => if mask.getD i false then data.getD i 0 else base.getD i 0)
  let checks := (List.range 8).map (fun i =>
    if cls == 0 then
      let new := (byteCheck bytes i).toNat
      let old := (base.getD (64 + i) 0).toNat
      BitVec.ofNat 8 (((List.range 8).map (fun j => putB j (if mask.getD (8 * i + j) false then new.testBit j else old.testBit j))).foldl (· + ·) 0)
    else if (List.range 8).any (fun j => mask.getD (8 * i + j) false) then BitVec.ofNat 8 (wordCheck (wordAt bytes i))
    else base.getD (64 + i) 0)
  bytes ++ checks

/-- Whether the enables cover part of some word (R154). -/
def isNarrow (mask : List Bool) : Bool :=
  (List.range 8).any (fun i =>
    let w := (mask.drop (8 * i)).take 8
    w.any id && !w.all id)

/-- The enables and bytes of a line, of a write of `data` at `ta`. -/
def lineEnables (ta : Nat) (data : List Byte) (pl : Nat) : List Bool × List Byte :=
  let start := pl * 64
  ((List.range 64).map (fun i => decide (ta ≤ start + i) && decide (start + i < ta + data.length)),
   (List.range 64).map (fun i => if ta ≤ start + i then data.getD (start + i - ta) 0 else 0))

/-- A fresh merge entry number. -/
def nextMerge (s : State) : Nat := (s.banks.merge.map (·.id)).foldl max 0 + 1

/-- One line of a write in its array cycle: merged into the line's OPEN entry where its grant found or made one (`merged`), else
written to the array (R71, R152-R155). -/
def writeLine (s : State) (pl : Nat) (mask : List Bool) (bytes : List Byte) (merged : Bool) : State :=
  match merged, openEntry s pl with
  | true, some e =>
    mergeMod s e.id (fun e =>
      { e with bytes := (List.range 64).map (fun i => if mask.getD i false then bytes.getD i 0 else e.bytes.getD i 0),
               mask := (List.range 64).map (fun i => mask.getD i false || e.mask.getD i false),
               due := e.due || (List.range 64).all (fun i => mask.getD i false || e.mask.getD i false) })
  | _, _ => putRow s pl (directRow (classOf s (lnFolio pl)).code (seenBytes s pl) bytes mask)

/-- A line of a write at its grant: it is to be merged into the line's OPEN entry, which the write pins, or where it is narrow into
a new entry that its presentation has reserved; any other line goes to the array (R154, R155). `cycle` is its array cycle, with
which the age of a new entry begins. Answers whether it is merged. -/
def placeLine (s : State) (slot pl cycle : Nat) (mask : List Bool) : State × Bool :=
  let d := pbDie (lnBank pl)
  let cl := pbCluster (lnBank pl)
  match openEntry s pl with
  | some e => (clusterCount (mergeMod s e.id (fun e => { e with pins := if e.pins.contains slot then e.pins else slot :: e.pins })) d cl 2 1, true)
  | none =>
    if (classOf s (lnFolio pl)).code == 1 && isNarrow mask then
      let e : MergeEntry := ⟨nextMerge s, pl, List.replicate 64 0, List.replicate 64 false, cycle, false, [slot], false⟩
      (clusterCount (s.onBanks (fun b => { b with merge := b.merge ++ [e] })) d cl 1 1, true)
    else (s, false)

/-- A whole line written by port B with check bytes of its class (R152). -/
def writeWholeLine (s : State) (pl : Nat) (data : List Byte) : State :=
  putRow s pl (directRow (classOf s (lnFolio pl)).code (List.replicate 72 0) (fit 64 data) (List.replicate 64 true))

/-- A flush of a merge entry: each word is replaced whole and not decoded, or decoded, counted, and merged from its
corrected bytes where some byte is enabled, else left as read; a word that is uncorrectable and not wholly enabled keeps its stored bytes and the entry's bytes for it are lost (R88, R158). Answers the
row, the findings, and the bytes lost. -/
def flushRow (s : State) (e : MergeEntry) : List Byte × LineRead × Nat :=
  let row := seenBytes s e.line
  let words := (List.range 8).map (fun i =>
    let m := (e.mask.drop (8 * i)).take 8
    let w := wordAt row i
    let c := row.getD (64 + i) 0
    let n := wordAt e.bytes i
    let overlay := fun (base : List Byte) => (List.range 8).map (fun j => if m.getD j false then n.getD j 0 else base.getD j 0)
    let merged := fun (base : List Byte) => if m.any id then (overlay base, BitVec.ofNat 8 (wordCheck (overlay base))) else (w, c)
    if m.all id then (n, BitVec.ofNat 8 (wordCheck n), 0, 0, 0)
    else match wordDecode w c with
      | .clean => ((merged w).1, (merged w).2, 0, 0, 0)
      | .corrected f => ((merged f).1, (merged f).2, 1, 0, 0)
      | .bad => (w, c, 0, 1, (m.filter id).length))
  let sum := fun (f : List Byte × Byte × Nat × Nat × Nat → Nat) => (words.map f).foldl (· + ·) 0
  let corr := sum (fun w => w.2.2.1)
  let unc := sum (fun w => w.2.2.2.1)
  (words.flatMap (·.1) ++ words.map (·.2.1),
   ⟨e.line, [], corr, unc, if unc != 0 then 3 else if corr != 0 then 2 else 0, false⟩,
   sum (fun w => w.2.2.2.2))

/-- A merge entry flushed and freed: the line is written, MRG_FLUSH counts, lost bytes enter an event (R88, R158, R160). -/
def flushEntry (s : State) (e : MergeEntry) : State :=
  let b := lnBank e.line
  let (row, found, lost) := flushRow s e
  let s1 := putRow s e.line row
  let s2 := s1.onBanks (fun k => { k with merge := k.merge.filter (fun x => x.id != e.id) })
  let s3 := recordFindings s2 b 1 [found] 0x7FFF 0xFFFF
  let s4 := clusterCount s3 (pbDie b) (pbCluster b) 4 1
  if lost != 0 then
    logEvent s4 (pbDie b) { ev 0x09 (pbCluster b) lost with ten := evTen s b, detail := 2, addr := BitVec.ofNat 48 (e.line * 64) }
  else s4

/-! ### Seal contexts (R165-R168) -/

/-- A seal context released unfinished: its folio returns to OPEN where it is still of class FOLIO, and an event records
the folio and the slots taken (R168). -/
def releaseSeal (s : State) (c : SealCtx) : State :=
  let s1 := s.onBanks (fun b => { b with seals := b.seals.filter (fun x => x.folio != c.folio) })
  let s2 := if isFolioClass s c.folio then setSeal s1 c.folio .opened else s1
  logEvent s2 (pbDie (foBank c.folio)) { ev 0x0A c.folio c.next with
    ten := evTen s (foBank c.folio), addr := BitVec.ofNat 48 (c.folio * 4096) }

/-- Every seal context that `p` picks and whose slot 15 has not been taken released (R168). A context in its parity pass
is released too where `passes` says so: its folio's bank or class is gone. -/
def releaseSeals (s : State) (p : SealCtx → Bool) (passes : Bool) : State :=
  (s.banks.seals.filter (fun c => p c && (passes || c.parity.isNone))).foldl releaseSeal s

/-! ### Power state of a bank (R359, R361, R86, R87) -/

/-- 0 ON clocked, 1 ON clock-gated, 2 RET, 3 OFF (R359). -/
def bankPower (s : State) (b : Nat) : Nat := rf s (pbDie b) (.bankPwr (pbBank b)) 16 2

def setBankPower (s : State) (b v : Nat) : State := regField s (pbDie b) (.bankPwr (pbBank b)) 16 2 v

/-- The bank sleeps in RET or OFF. -/
def asleep (s : State) (b : Nat) : Bool := 2 ≤ bankPower s b

/-- An activity of a bank: its idle count restarts and it is ON clocked (R361). -/
def touchBank (s : State) (b : Nat) : State :=
  let s1 := s.onBanks (fun k => { k with lastActive := SMap.set k.lastActive b s.now })
  if bankPower s b == 1 then setBankPower s1 b 0 else s1

/-- An activity of a bank that ends in cycle c, now or later. -/
def touchBankTo (s : State) (b c : Nat) : State :=
  let s1 := touchBank s b
  s1.onBanks (fun k => { k with lastActive := SMap.set k.lastActive b (max c (SMap.get k.lastActive b 0)) })

/-- The pause of a bank in which nothing is granted (R72, R87). -/
def pauseOf (s : State) (b : Nat) : Option PauseRec := SMap.find s.banks.pauses b

def setPause (s : State) (b : Nat) (p : PauseRec) : State :=
  s.onBanks (fun k => { k with pauses := SMap.set k.pauses b p })

def endPause (s : State) (b : Nat) : State :=
  s.onBanks (fun k => { k with pauses := SMap.erase k.pauses b })

/-- A bank's valid bits cleared (R70). -/
def clearValid (s : State) (b : Nat) : State :=
  s.onBanks (fun k => { k with valid := SMap.eraseIf k.valid (fun pl => lnBank pl == b) })

/-- A wake that starts in a domain while its regulator is in LOW mode, or returning from it, counts in W (R366). -/
def noteWake (s : State) (b : Nat) : State :=
  let d := pbDie b
  let n := bankDomain (pbBank b)
  let v := dom s d n
  if v.low then domSet s d n { v with low := false, returning := some s.now, wakes := 1 }
  else match v.returning with
    | some t => if s.now < t + 16 then domSet s d n { v with wakes := v.wakes + 1 } else domSet s d n { v with returning := none }
    | none => s

/-- A sleeping bank starts its 64-cc wake, with the pauses `behind` to follow it: from OFF its valid bits are cleared within
the wake, before any access that caused it is applied (R86, R87, R347). On a dozing die the bank stays asleep, and the wake starts when
its root runs again (R373). -/
def startWake (s : State) (b : Nat) (behind : List Pause) : State :=
  let off := bankPower s b == 3
  if dieStopped s (pbDie b) then setPause s b ⟨.wake off, s.now, behind⟩ else
  let s1 := noteWake s b
  let s2 := if off then clearValid s1 b else s1
  touchBank (setBankPower (setPause s2 b ⟨.wake off, s.now, behind⟩) b 0) b

/-- A bank is idle under R157 and R348: no merge entry, no parity pass, no zeroing pass of it waits. -/
def bankQuiet (s : State) (b : Nat) : Bool :=
  !s.banks.merge.any (fun e => lnBank e.line == b) && (SMap.find s.banks.zeroing b).isNone
    && !s.banks.seals.any (fun c => foBank c.folio == b && c.parity.isSome)

/-- The bank holds a folio in the SEALING state (R164). -/
def hasSealing (s : State) (b : Nat) : Bool :=
  s.banks.sealMap.any (fun e => foBank e.1 == b && e.2 == .sealing)

end Sys2Proof.Machine
end

