-- ==== Sys2Proof/Machine/Geometry.lean ====
section
/-! DEFINITION. Segments, routes and figures (R18-R27, R90-R102): where a transfer runs and how long it takes. -/

namespace Sys2Proof.Machine

open Sys2Proof

/-- Where an end of a transfer stands: a bank, a core's port, a hall port, a queue engine, a block of the hub on service
spokes, or a block on ring spokes (R18, R23). -/
inductive Loc where
  | bank (b : Nat)
  | core (d core : Nat)
  | hall (d cl port : Nat)
  | engine (d cl : Nat)
  | hub (d : Nat)
  | ring (d : Nat)
deriving DecidableEq, Repr

/-- A segment of the package: die x 65,536 + segment ID (R131). -/
def segOf (d cl kind index dir : Nat) : Nat := d * 65536 + cl * 4096 + kind * 512 + index * 2 + dir

def segDie (sg : Nat) : Nat := sg / 65536
def segKind (sg : Nat) : Nat := sg / 512 % 8
/-- The segment splits its positions by class (R90). -/
def segSplit (sg : Nat) : Bool := segKind sg != 1 && segKind sg != 2

/-- Class of position k: 0 read, 1 write, 2 remote (R92). -/
def posClass (k : Nat) : Nat :=
  match k % 8 with | 1 => 1 | 4 => 1 | 7 => 2 | _ => 0

/-- Number of a class: 0 READ, 1 WRITE, 2 REMOTE. -/
def clsNo : SlotClass → Nat
  | .read => 0 | .write => 1 | .remote => 2

/-- The first position at or after `p` that a class may hold on a segment (R93, R467). -/
def posFor (sg cls p : Nat) : Nat :=
  if segSplit sg then
    match (List.range 8).find? (fun i => posClass (p + i) == cls) with
    | some i => p + i
    | none => p
  else p

/-- Mesh row and column of a cluster (R20). -/
def meshRow (k : Nat) : Nat := k % 8 / 2
def meshCol (k : Nat) : Nat := k % 2 + 2 * (k / 8)
/-- Cluster at a row and column (R20). -/
def meshCluster (row col : Nat) : Nat := 8 * (col / 2) + 2 * row + col % 2

/-- Mesh links from one cluster to another: along the row, then along the column (R21). Links are named by the router they
leave and a direction: 0 north, 1 east, 2 south, 3 west (R131). -/
def meshLinks (d a b : Nat) : List Nat :=
  let r := meshRow a
  let c1 := meshCol a
  let c2 := meshCol b
  let r2 := meshRow b
  let rowPart := if c1 ≤ c2 then (List.range (c2 - c1)).map (fun i => segOf d (meshCluster r (c1 + i)) 3 1 0)
                 else (List.range (c1 - c2)).map (fun i => segOf d (meshCluster r (c1 - i)) 3 3 0)
  let colPart := if r ≤ r2 then (List.range (r2 - r)).map (fun i => segOf d (meshCluster (r + i) c2) 3 2 0)
                 else (List.range (r - r2)).map (fun i => segOf d (meshCluster (r - i) c2) 3 0 0)
  rowPart ++ colPart

/-- Mesh hops between clusters (R21). -/
def meshHops (a b : Nat) : Nat :=
  (max (meshRow a) (meshRow b) - min (meshRow a) (meshRow b)) + (max (meshCol a) (meshCol b) - min (meshCol a) (meshCol b))

/-- The route between two clusters crosses the stitch (R21). -/
def crossesStitch (a b : Nat) : Bool := a / 8 != b / 8

/-- Whether traffic from die a to die b takes the direction of increasing die number (R25). -/
def ringUp (n a b : Nat) : Bool := (b + n - a) % n ≤ (a + n - b) % n

/-- Elvus hops from die a to die b (R25). -/
def ringHops (n a b : Nat) : Nat := min ((b + n - a) % n) ((a + n - b) % n)

/-- The Elvus lanes from die a to die b, in order (R25, R26, R131). That a route keeps one lane number on every edge, and every branch of
a multicast tree the same one, is the model's choice (DESIGN CHOICE, log 14). A package of 2 dies has edge 0
only (R462). -/
def ringLanes (n a b lane : Nat) : List Nat :=
  let up := ringUp n a b
  (List.range (ringHops n a b)).map (fun i =>
    let x := if up then (a + i) % n else (a + n - i) % n
    segOf x 0 6 (if up || n == 2 then lane else 64 + lane) 0)

/-- Die of a place. -/
def Loc.die : Loc → Nat
  | .bank b => pbDie b | .core d _ => d | .hall d _ _ => d | .engine d _ => d | .hub d => d | .ring d => d

/-- Cluster of a place; none for a block at the die hub. -/
def Loc.cluster : Loc → Option Nat
  | .bank b => some (pbCluster b) | .core _ c => some (c / 32) | .hall _ k _ => some k | .engine _ k => some k
  | .hub _ => none | .ring _ => none

/-- The port segment on which data leaves a place (R18, R76): outward of a slice, from a core port or a hall port. -/
def Loc.out : Loc → List Nat
  | .bank b =>
    if isCarrel b then [segOf (pbDie b) (pbCluster b) 1 (carrelCore b % 32) 1]
    else [segOf (pbDie b) (pbCluster b) 0 (pbLocal b / 8) 0]
  | .core d c => [segOf d (c / 32) 1 (c % 32) 1]
  | .hall d k p => [segOf d k 2 p 1]
  | _ => []

/-- The port segment on which data enters a place. -/
def Loc.into : Loc → List Nat
  | .bank b =>
    if isCarrel b then [segOf (pbDie b) (pbCluster b) 1 (carrelCore b % 32) 0]
    else [segOf (pbDie b) (pbCluster b) 0 (pbLocal b / 8) 1]
  | .core d c => [segOf d (c / 32) 1 (c % 32) 0]
  | .hall d k p => [segOf d k 2 p 0]
  | _ => []

/-- Kind of the spoke that a hub block uses: 5 service, 4 ring (R23). -/
def Loc.spoke : Loc → Nat
  | .hub _ => 5 | _ => 4

/-- The framed segments that data crosses from one place to another (R95): ports, mesh links within a die, spokes to and
from the hub, Elvus lanes between dies (by the ring spokes). A status that carries no data travels on the request channel, which is
not framed, and holds no position; that of a read travels with its data (DEDUCED, log 8). -/
def routeOf (n lane : Nat) (a b : Loc) : List Nat :=
  if a.die == b.die then
    match a.cluster, b.cluster with
    | some x, some y => a.out ++ meshLinks a.die x y ++ b.into
    | some x, none => a.out ++ [segOf a.die x b.spoke 0 1]
    | none, some y => [segOf a.die y a.spoke 0 0] ++ b.into
    | none, none => []
  else
    (match a.cluster with | some x => a.out ++ [segOf a.die x 4 0 1] | none => [])
      ++ ringLanes n a.die b.die lane
      ++ (match b.cluster with | some y => [segOf b.die y 4 0 0] ++ b.into | none => [])

/-- The figure of a path in cc, without the class additions (R101): 18, 3 for each mesh hop, 8 for the stitch, 90 for each
Elvus hop. A path between a hub block and a cluster has no mesh hop (R23). -/
def pathFigure (n : Nat) (a b : Loc) : Nat :=
  if a.die == b.die then
    match a.cluster, b.cluster with
    | some x, some y => 18 + 3 * meshHops x y + (if crossesStitch x y then 8 else 0)
    | _, _ => 18
  else 18 + 90 * ringHops n a.die b.die

/-! ### Where the ends of a transfer stand -/

/-- Core aperture address: die [29:27], core [26:18] (R202). -/
def apDie (a : Nat) : Nat := a / 2 ^ 27 % 8
def apCore (a : Nat) : Nat := a / 2 ^ 18 % 512

/-- Die of a handle, and its entry (R54). -/
def hDie (h : Nat) : Nat := h / 4096 % 8
def hEntry (h : Nat) : Nat := h % 4096
def hGen (h : Nat) : Nat := h / 65536 % 16

/-- Where a master stands: a core at its port, a stream group at its hall port 80 + group mod 2 (DEDUCED, log 16), the
remote engine on ring spokes, every other master on service spokes (R18, R32). -/
def masterLoc (ident : Nat) : Loc :=
  let d := ident / 4096
  let m := ident % 4096
  if m < 0x200 then .core d m
  else if 0x400 ≤ m && m < 0x800 then .hall d (mGroup m).1 (m % 2)
  else if m == 0x800 || m == 0x801 then .ring d
  else .hub d

/-- Members of a multicast group in use: `true` for a bank, with its base (R236). Group values 0x100-0x13F are package
groups (R235). -/
def groupMembers (s : State) (d g : Nat) : List (Bool × Nat) :=
  let mem := fun (i : Nat) => if g < 0x100 then pairGet s d (.mcgMem g i) else pairGet s d (.pmcgMem (g - 0x100) i)
  let count := if g < 0x100 then min 32 (rf s d (.mcgCfg g) 0 7) else min 64 (rf s d (.pmcgCfg (g - 0x100)) 0 7)
  (List.range count).map (fun i => (2 ^ 63 ≤ mem i, mem i % 2 ^ 33))

/-- The place of an endpoint that is not a group; `ident` is the transfer's master. A core, window, queue or remote engine of an absent
die has none: the transfer is granted as one that ends at the hub of its own die, and its check refuses it (R203, R228). -/
def Endp.loc (s : State) (ident : Nat) : Endp → Loc
  | .bank ta _ => .bank (taPkgBank ta.toNat)
  | .store h _ => if s.present (hDie h.toNat) then .hub (hDie h.toNat) else .hub (ident / 4096)
  | .core a => if a.toNat < 2 ^ 30 && s.present (apDie a.toNat) then .core (apDie a.toNat) (apCore a.toNat) else .hub (ident / 4096)
  | .remote r _ => if s.present (hDie r.toNat) then .ring (hDie r.toNat) else .hub (ident / 4096)
  | .mcast _ _ => .hub (ident / 4096)
  | .combining d k _ _ _ => if s.present d.toNat then .engine d.toNat k.toNat else .hub (ident / 4096)
  | .requester => masterLoc ident
  | .hall d k => .hall d.toNat k.toNat (ident % 2)
  | .engine d => .ring d.toNat

/-- The destinations of a slot: one, or the members of its group on the context's die (R235, R238). -/
def Slot.dests (s : State) (x : Slot) : List Loc :=
  match x.dst with
  | .mcast g off =>
    (groupMembers s (x.ident / 4096) g.toNat).map (fun m =>
      if m.1 then .bank (taPkgBank (m.2 + off.toNat)) else .core (apDie (m.2 + off.toNat)) (apCore (m.2 + off.toNat)))
  | e => [e.loc s x.ident]

/-- Where a slot's data comes from. -/
def Slot.origin (s : State) (x : Slot) : Loc := x.src.loc s x.ident

/-- The segments of a slot's route tree, each once (R95). -/
def Slot.route (s : State) (lane : Nat) (x : Slot) : List Nat :=
  ((x.dests s).flatMap (fun b => routeOf s.dies lane (x.origin s) b)).eraseDups

/-- Banks at the ends of a slot, each with the address of its first byte and whether it is written. -/
def Slot.bankEnds (s : State) (x : Slot) : List (Nat × Bool) :=
  (match x.src with | .bank ta _ => [(ta.toNat, false)] | _ => [])
    ++ (match x.dst with
        | .bank ta _ => [(ta.toNat, true)]
        | .mcast g off => ((groupMembers s (x.ident / 4096) g.toNat).filter (·.1)).map (fun m => ((m.2 + off.toNat) % 2 ^ 33, true))
        | _ => [])

/-- The slot is a visitor transfer: an end is a carrel bank (R76). Own-carrel accesses go by the carrel switch and are not
slots of this kind (`ownCarrel`). -/
def Slot.visitor (s : State) (x : Slot) : Bool := (x.bankEnds s).any (fun e => isCarrel (taPkgBank e.1))

/-- A plain access of a core to its own carrel (R73), or to its cache (R83): it goes by the carrel switch, unless the core is fenced (R77). -/
def Slot.ownCarrel (s : State) (x : Slot) : Bool :=
  match x.kind with
  | .cacheAcc _ => true
  | .plain =>
    (x.bankEnds s).any (fun e =>
      let b := taPkgBank e.1
      isCarrel b && identOf (pbDie b) (carrelCore b) == x.ident && !coreFenced s (pbDie b) (carrelCore b))
  | _ => false

/-- The granting segment of a slot (R96): for a visitor transfer the core port of the carrel, in the direction its data
takes there; else the slice port of the bank, the source's for a read and the destination's for a write where both ends
are banks (DEDUCED, log 16); with no bank end the service spoke of the destination cluster, or of the source cluster where the
destination stands at the hub. Data that comes from the remote engine or from another die enters the cluster by its ring spoke (R23,
R95): there the ring spoke grants (DEDUCED, log 16). -/
def Slot.grantSeg (s : State) (x : Slot) : Option Nat :=
  let ends := x.bankEnds s
  let seg := fun (e : Nat × Bool) => if e.2 then (Loc.bank (taPkgBank e.1)).into.head? else (Loc.bank (taPkgBank e.1)).out.head?
  match ends.find? (fun e => isCarrel (taPkgBank e.1) && (e.2 == (clsNo x.cls == 1))) with
  | some e => seg e
  | none =>
    match ends.find? (fun e => isCarrel (taPkgBank e.1)) with
    | some e => seg e
    | none =>
      match ends.find? (fun e => e.2 == (clsNo x.cls == 1)) with
      | some e => seg e
      | none =>
        match ends.head? with
        | some e => seg e
        | none =>
          match x.src, (x.dests s).head? with
          | _, none => none
          | .hall _ _, some _ => (x.origin s).out.head?
          | _, some b =>
            match b.cluster, (x.origin s).cluster with
            | some y, _ => some (segOf b.die y (match (x.origin s) with | .ring _ => 4 | _ => if (x.origin s).die != b.die then 4 else 5) 0 0)
            | none, some y => some (segOf (x.origin s).die y b.spoke 0 1)
            | none, none => none

/-- Die of the remote engine that serves a PUT or GET slot (R265). -/
def Slot.engineDie (x : Slot) : Option Nat :=
  match x.src, x.dst with
  | _, .remote r _ => some (hDie r.toNat)
  | .remote r _, _ => some (hDie r.toNat)
  | _, _ => none

/-- The slot waits for the ring plan: it is granted on a segment, and its data runs between dies (R99) or it crosses the ring to reach
its remote engine (R265). -/
def Slot.crossDie (s : State) (x : Slot) : Bool :=
  (x.grantSeg s).isSome && ((x.dests s).any (fun b => b.die != (x.origin s).die)
    || (match x.engineDie with | some e => s.present e && e != x.ident / 4096 | none => false))

/-- Largest of a list of numbers. -/
def maxOf (l : List Nat) : Nat := l.foldl max 0

/-- The transfer takes its data from a bank or another place, and not to one (R93): a read, or in a remote position one that does not
write a bank. -/
def Slot.isRead (x : Slot) : Bool :=
  match x.cls, x.dst with
  | .write, _ => false
  | .remote, .bank _ _ => false
  | _, _ => true

/-- The delivery figure of a slot at its grant (R101, R102): the path's figure; for a read the addition of its source's class, for a
write that of its destination's class, no read addition applying to it; 64 where the grant wakes a bank; for a group the largest of
its members'. An access that hits the cache takes 8 (R83). -/
def Slot.figure (s : State) (x : Slot) (wake : Bool) : Nat :=
  let path := maxOf ((x.dests s).map (pathFigure s.dies (x.origin s)))
  let cached := match x.kind with | .cacheAcc _ => true | _ => false
  let base := if cached then 8 else if x.ownCarrel s then 6 else path
  let radd := match x.src with | .bank ta _ => (classOf s (taFolio ta.toNat)).readAdd | _ => 0
  let wadd := maxOf (((x.bankEnds s).filter (·.2)).map (fun e => (classOf s (taFolio e.1)).writeAdd))
  let qadd := match x.dst with | .combining _ _ _ _ _ => 2 | _ => 0
  base + (if cached then 0 else if x.isRead then radd else wadd) + qadd + (if wake then 64 else 0)

end Sys2Proof.Machine
end

