-- ==== Sys2Proof/Machine/Access.lean ====
section
/-! DEFINITION. The checks that a transfer meets at its grant: handle, type, tag, owner, retirement (R64), class (R152),
held entries (R308), core apertures (R203), groups (R238), page descriptors (R60). -/

namespace Sys2Proof.Machine

open Sys2Proof

/-- What a check answers: a status code (0 where every check passes) with DETAIL, and, for the ACCESS_DENIED event, what
kind of object refused (0 bank, 1 core, 2 structure), its TEN and the address (R414). -/
structure Verdict where
  code : Nat
  detail : Nat := 0
  kind : Nat := 0
  ten : Nat := 0
  addr : Nat := 0
deriving DecidableEq, Repr

/-- Every check passes. -/
def Verdict.pass : Verdict := { code := 0 }

/-- The first verdict of a list that does not pass. -/
def firstFail : List Verdict → Verdict
  | [] => .pass
  | v :: r => if v.code != 0 then v else firstFail r

/-- A verdict that holds where a condition does. -/
def failIf (c : Bool) (v : Verdict) : Verdict := if c then v else .pass

/-! ### Catalogue entries (R48, R54, R56) -/

/-- Word w of a catalogue entry. -/
def catW (s : State) (d e w : Nat) : Word := regGet s d (.catWord e w)
def catValid (s : State) (d e : Nat) : Bool := bit (catW s d e 0) 23
def catGen (s : State) (d e : Nat) : Nat := field (catW s d e 0) 28 4
def catTen (s : State) (d e : Nat) : Nat := field (catW s d e 0) 24 4
def catIsWindow (s : State) (d e : Nat) : Bool := bit (catW s d e 0) 22
def catEpoch (s : State) (d e : Nat) : Nat := field (catW s d e 0) 0 16
def catBase (s : State) (d e : Nat) : Nat := field (catW s d e 1) 0 21
def catMcg (s : State) (d e : Nat) : Nat := field (catW s d e 1) 23 9
def catExtent (s : State) (d e : Nat) : Nat := field (catW s d e 2) 0 21
/-- Page size of a window: 64 KiB, 2 MiB, 1 GiB (R48). -/
def catPage (s : State) (d e : Nat) : Nat :=
  match field (catW s d e 2) 30 2 with | 0 => 2 ^ 16 | 1 => 2 ^ 21 | _ => 2 ^ 30

/-- A handle's format is legal: bit 15 clear, die present (R54). -/
def handleForm (s : State) (h : Nat) : Bool := h / 2 ^ 15 % 2 == 0 && s.present (hDie h)

/-- A handle is current: its entry is VALID at its generation (R56). -/
def handleCurrent (s : State) (h : Nat) : Bool :=
  catValid s (hDie h) (hEntry h) && catGen s (hDie h) (hEntry h) == hGen h

/-- How many bits of word w of an entry stand flipped in the catalogue array (R48). -/
def catFlips (s : State) (d e w : Nat) : Nat :=
  ((List.range 39).filter (SMap.get s.sup.catUpsets (4 * (4096 * d + e) + w) 0).testBit).length

/-- The first word of an entry with an uncorrectable error, which more than one flipped bit makes: SEC-DED corrects one (R48). -/
def catBadWord (s : State) (d e : Nat) : Option Nat := (List.range 4).find? (fun w => 2 ≤ catFlips s d e w)

/-- A handle names an entry with an uncorrectable error: every use of it returns UNCORRECTABLE (R48). -/
def entryLost (s : State) (h : Nat) : Bool := (catBadWord s (hDie h) (hEntry h)).isSome

/-- Folios that an entry names: its buffer, or its page table (R49, R59). -/
def entryFolios (s : State) (d e : Nat) : Nat × Nat :=
  let base := catBase s d e
  if catIsWindow s d e then (base, base + (8 * (catExtent s d e + 1) + 4095) / 4096 - 1)
  else (base, base + catExtent s d e)

/-- A live entry of the die covers bank `b` of the package, by its range or its page table. -/
def entryCovers (s : State) (d e b : Nat) : Bool :=
  catValid s d e && (entryFolios s d e).1 / 32 ≤ b && b ≤ (entryFolios s d e).2 / 32

/-- The live entries of a die. Only an entry that a command has written can be live. -/
def liveEntries (s : State) (d : Nat) : List Nat :=
  ((s.regs.filterMap (fun k => match keyReg s k.1 with
    | some (e, .catWord n 0) => if e == d then some n else none
    | _ => none))).filter (catValid s d)

/-- Some live entry covers the bank. -/
def bankCovered (s : State) (b : Nat) : Bool := (liveEntries s (pbDie b)).any (fun e => entryCovers s (pbDie b) e b)

/-- Epoch a is equal to or later than b (R13). -/
def epochFrom (a b : Nat) : Bool := (a + 65536 - b) % 65536 ≤ 32767

/-- Epoch a is later than b (R13). -/
def epochLater (a b : Nat) : Bool := a != b && epochFrom a b

/-- An entry is held: its EPOCH equals FROM of its tenancy or is later (R308), or that register is unsafe (R319). -/
def catHeld (s : State) (d e : Nat) : Bool :=
  isUnsafe s d (.stepHold (catTen s d e)) || epochFrom (catEpoch s d e) (rf s d (.stepHold (catTen s d e)) 0 16)

/-- The status that the loss of a domain gives: BROWNOUT where it went down by brown-out, else FENCED (R356). -/
def downCode (s : State) (d n : Nat) : Nat := if (dom s d n).brown then Code.brownout else Code.fenced

/-- An entry is used: each word with one flipped bit is corrected and counted; an uncorrectable word enters CAT_UNCORR, once until the
entry is freed (R48). -/
def useEntry (s : State) (h : Nat) : State :=
  let d := hDie h
  let e := hEntry h
  if s.sup.catUpsets.isEmpty || !handleForm s h || !domUp s d 47 then s
  else
    let fixed := ((List.range 4).filter (fun w => catFlips s d e w == 1)).length
    let s1 := s.onSup (fun u => { u with catCorrected := SMap.set u.catCorrected d (SMap.get u.catCorrected d 0 + fixed) })
    match catBadWord s d e with
    | some w =>
      if s.sup.catReported.contains (4096 * d + e) then s1
      else logEvent (s1.onSup (fun u => { u with catReported := u.catReported ++ [4096 * d + e] })) d (ev 0x06 e w)
    | none => s1

/-- Checks 1-3 of R64 for a handle that names a buffer with the bytes [ta, ta + n). -/
def checkBufferHandle (s : State) (h ta n : Nat) : Verdict :=
  let d := hDie h
  let e := hEntry h
  firstFail [
    failIf (!handleForm s h) ⟨Code.badArg, 0, 0, 0, 0⟩,
    failIf (!domUp s d 47) ⟨downCode s d 47, 0, 0, 0, 0⟩,
    failIf (entryLost s h) ⟨Code.uncorrectable, 0, 0, 0, 0⟩,
    failIf (!handleCurrent s h) ⟨Code.stale, 0, 0, 0, 0⟩,
    failIf (catIsWindow s d e || ta < catBase s d e * 4096 || (catBase s d e + catExtent s d e + 1) * 4096 < ta + n)
      ⟨Code.badArg, 0, 0, 0, 0⟩]

/-- Checks 1-3 of R64 for a handle that names a window with the bytes [off, off + n). -/
def checkWindowRange (s : State) (h off n : Nat) : Verdict :=
  let d := hDie h
  let e := hEntry h
  firstFail [
    failIf (!handleForm s h) ⟨Code.badArg, 0, 0, 0, 0⟩,
    failIf (!domUp s d 47) ⟨downCode s d 47, 0, 0, 0, 0⟩,
    failIf (entryLost s h) ⟨Code.uncorrectable, 0, 0, 0, 0⟩,
    failIf (!handleCurrent s h) ⟨Code.stale, 0, 0, 0, 0⟩,
    failIf (!catIsWindow s d e || (catExtent s d e + 1) * catPage s d e < off + n) ⟨Code.badArg, 0, 0, 0, 0⟩]

/-- Checks 1-3 of R64 for a window, and check 4 of its entry's TEN. -/
def checkWindowHandle (s : State) (ten h off n : Nat) : Verdict :=
  firstFail [
    checkWindowRange s h off n,
    failIf (ten != catTen s (hDie h) (hEntry h)) ⟨Code.denied, 0, 0, catTen s (hDie h) (hEntry h), off⟩]

/-- The master is the bank's owner (R40). -/
def isOwner (own : Word) (b ident : Nat) : Bool :=
  let owner := field own 0 12
  match field own 19 3 with
  | 1 => ident == identOf (field own 16 3) owner
  | 2 => ident == identOf (field own 16 3) owner
  | _ => ident == identOf (pbDie b) owner

/-- The ownership or a remap entry of the bank is unsafe: every access returns FENCED (R319). -/
def bankUnsafe (s : State) (b : Nat) : Bool :=
  isUnsafe s (pbDie b) (.bankOwn (pbBank b)) || (List.range 4).any (fun n => isUnsafe s (pbDie b) (.bankRemap (pbBank b) n))

/-- Checks 4-6 of R64 at a bank: tags, owner or policy for the direction, retirement. A bank of a domain that is not UP is
refused as R356 lays down in their place. -/
def checkBank (s : State) (ident ten : Nat) (h : Option Nat) (ta : Nat) (write : Bool) : Verdict :=
  let b := taPkgBank ta
  let own := ownOf s b
  let d := pbDie b
  let pol := field own 22 2
  let allowed := isOwner own b ident || pol == 2 || (pol == 1 && !write)
  firstFail [
    failIf (!domUp s d (bankDomain (pbBank b))) ⟨downCode s d (bankDomain (pbBank b)), 0, 0, 0, 0⟩,
    failIf (bankUnsafe s b) ⟨Code.fenced, 0, 0, 0, 0⟩,
    failIf (ten != ownTen own || (match h with | some h => ten != catTen s (hDie h) (hEntry h) | none => false))
      ⟨Code.denied, 0, 0, ownTen own, ta⟩,
    failIf (!allowed) ⟨Code.denied, 0, 0, ownTen own, ta⟩,
    failIf (retired s b) ⟨Code.fenced, 0, 0, 0, 0⟩]

/-- STATE of a core's carrel bank 3: 0 PLAIN, 1 CACHE, 2 DRAINING (R78). -/
def carrelState (s : State) (d core : Nat) : Nat := rf s d (.carrelCtl core) 18 2

/-- R82: a transfer that names carrel bank 3 in cache mode is refused with STATE. -/
def checkCacheBank (s : State) (ta : Nat) : Verdict :=
  let b := taPkgBank ta
  failIf (isCarrel b && b % 4 == 3 && carrelState s (pbDie b) (carrelCore b) != 0) ⟨Code.state, 0, 0, 0, 0⟩

/-- R152: a write against the class of its folio: a SEAL slot takes FOLIO only, every other write all but FOLIO. -/
def checkClass (s : State) (ta : Nat) (sealSlot : Bool) : Verdict :=
  let f := isFolioClass s (taFolio ta)
  firstFail [failIf (!sealSlot && f) ⟨Code.sealFail, 1, 0, 0, 0⟩, failIf (sealSlot && !f) ⟨Code.sealFail, 2, 0, 0, 0⟩]

/-- R308: a write slot to a held entry whose EP differs from the entry's EPOCH. -/
def checkHeld (s : State) (h : Option Nat) (ep : Nat) : Verdict :=
  match h with
  | none => .pass
  | some h => failIf (catHeld s (hDie h) (hEntry h) && ep != catEpoch s (hDie h) (hEntry h)) ⟨Code.state, 0, 0, 0, 0⟩

/-- One bank side of a transfer: checks 1-6, then for a write the class and held checks (R64, R152, R308). -/
def checkBankSide (s : State) (ident ten : Nat) (h : Option Nat) (ta n : Nat) (write sealSlot : Bool) (ep : Nat) : Verdict :=
  firstFail [
    (match h with | some h => checkBufferHandle s h ta n | none => .pass),
    checkBank s ident ten h ta write,
    (if write then checkClass s ta sealSlot else .pass),
    (if write then checkHeld s h ep else .pass)]

/-- A CORE endpoint (R203). -/
def checkCore (s : State) (ten a n : Nat) : Verdict :=
  let d := apDie a
  let c := apCore a
  firstFail [
    failIf (2 ^ 30 ≤ a || !s.present d || 2 ^ 18 < a % 2 ^ 18 + n) ⟨Code.badArg, 0, 0, 0, 0⟩,
    failIf (ten != coreTag s d c) ⟨Code.denied, 0, 1, coreTag s d c, a⟩,
    failIf (coreFenced s d c) ⟨Code.fenced, 0, 0, 0, 0⟩]

/-- A multicast group: its own checks, then each member in order (R238). `d` is the context's die. -/
def checkGroup (s : State) (ident ten d g off n : Nat) : Verdict :=
  let cfg := if g < 0x100 then regGet s d (.mcgCfg g) else regGet s d (.pmcgCfg (g - 0x100))
  firstFail ([
    failIf (0x140 ≤ g) ⟨Code.badArg, 0, 0, 0, 0⟩,
    failIf (field cfg 16 4 != ten) ⟨Code.denied, 0, 2, field cfg 16 4, 0⟩,
    failIf (!bit cfg 23) ⟨Code.state, 0, 0, 0, 0⟩]
    ++ (groupMembers s d g).map (fun m =>
      if m.1 then
        let ta := (m.2 + off) % 2 ^ 33
        firstFail [failIf (!s.present (taDie ta)) ⟨Code.badArg, 0, 0, 0, 0⟩,
                   checkBankSide s ident ten none ta n true false 0]
      else checkCore s ten (m.2 + off) n))

/-! ### Page descriptors (R59-R62) -/

/-- The TA of descriptor i of a window (R59). -/
def descriptorTa (s : State) (h i : Nat) : Nat := catBase s (hDie h) (hEntry h) * 4096 + 8 * i

/-- The descriptor of a window page as the translator of its die holds it (R61). -/
def heldDescriptor (s : State) (h off : Nat) : Option (BitVec 64) :=
  let d := hDie h
  let e := hEntry h
  (s.remote.translator.find? (fun t => t.die == d && t.entry == e && t.page == off / catPage s d e)).map (·.word)

/-- A window transfer against its descriptor (R60): 0 where it proceeds, HALTED where the page counts as not present,
DENIED for a write of a page without WRITE or a page outside the tenancy's store range (R62). -/
def checkDescriptor (s : State) (ten h : Nat) (w : BitVec 64) (write : Bool) : Verdict :=
  let n := w.toNat
  let d := hDie h
  let size := catPage s d (hEntry h)
  let start := n / 2 ^ 16 % 2 ^ 21 * 2 ^ 16
  let port := n / 2 ^ 61 % 2
  let range := regGet s d (.storeRange port ten)
  firstFail [
    failIf (n / 2 ^ 63 % 2 == 0 || n / 2 ^ 37 % 2 ^ 24 != 0 || n % 2 ^ 16 != 0 || start % size != 0
        || 128 * 10 ^ 9 < start + size) ⟨Code.halted, 0, 0, 0, 0⟩,
    failIf (write && n / 2 ^ 62 % 2 == 0) ⟨Code.denied, 0, 0, ten, start⟩,
    failIf (start / 2 ^ 21 < field range 0 16 || field range 16 16 ≤ (start + size - 1) / 2 ^ 21)
      ⟨Code.denied, 0, 0, ten, start⟩]

/-! ### The events of a refusal -/

/-- An ACCESS_DENIED event, at most one for each master in a regulation window; REFUSED counts every refused transfer
(R136, R327). -/
def noteDenied (s : State) (d ident ten : Nat) (v : Verdict) (aux task : Nat) : State :=
  let w := s.frame / 16
  if SMap.find s.security.denialSeen ident == some w then s
  else
    logEvent (s.onSecurity (fun x => { x with denialSeen := SMap.set x.denialSeen ident w })) d
      { ev 0x04 (v.ten + 16 * v.kind) aux with
        ten := some (BitVec.ofNat 4 ten), master := BitVec.ofNat 16 ident, task := BitVec.ofNat 16 task,
        addr := BitVec.ofNat 48 v.addr }

end Sys2Proof.Machine
end

