-- ==== Sys2Proof/Machine/Cmd.lean ====
section
/-! DEFINITION. Command slots: where a command's words stand, and how a command ends (R395-R400, R405, R464). -/

namespace Sys2Proof.Machine

open Sys2Proof

end Sys2Proof.Machine

namespace Sys2Proof

open Sys2Proof.Machine

/-- Die of a command slot. -/
def CmdSrc.die : CmdSrc → Nat
  | .slot d _ _ => d.toNat | .side d _ => d.toNat | .core d _ => d.toNat

/-- CMD_CTL, SIDE_CTL or STREAM_CMD_CTL of the slot. -/
def CmdSrc.ctl : CmdSrc → Reg
  | .slot _ w n => .cmdCtl w.toNat n.toNat | .side _ w => .sideCtl w.toNat | .core _ c => .streamCtl c.toNat

/-- Its argument word n. A side slot has argument word 0 alone (R405). -/
def CmdSrc.arg : CmdSrc → Nat → Reg
  | .slot _ w i, n => .cmdArg w.toNat i.toNat n | .side _ w, _ => .sideArg w.toNat | .core _ c, n => .streamArg c.toNat n

/-- Its status word. -/
def CmdSrc.sts : CmdSrc → Reg
  | .slot _ w n => .cmdSts w.toNat n.toNat | .side _ w => .sideSts w.toNat | .core _ c => .streamSts c.toNat

/-- Its result word n. -/
def CmdSrc.res : CmdSrc → Nat → Reg
  | .slot _ w i, n => .cmdRes w.toNat i.toNat n | .side _ w, n => .sideRes w.toNat n | .core _ c, n => .streamRes c.toNat n

/-- How many argument words the slot has. -/
def CmdSrc.args : CmdSrc → Nat
  | .side _ _ => 1 | _ => 16

/-- How many result words. -/
def CmdSrc.results : CmdSrc → Nat
  | .side _ _ => 2 | _ => 8

/-- The host window of the slot; none for a core. -/
def CmdSrc.win : CmdSrc → Option Nat
  | .slot _ w _ => some w.toNat | .side _ w => some w.toNat | .core _ _ => none

/-- The slot is a side slot. -/
def CmdSrc.isSide : CmdSrc → Bool
  | .side _ _ => true | _ => false

end Sys2Proof

namespace Sys2Proof.Machine

open Sys2Proof

/-- Tenancy of the issuer (R325). -/
def cmdTen (s : State) (src : CmdSrc) : Nat :=
  match src with
  | .slot _ w _ => w.toNat | .side _ w => w.toNat | .core d c => coreTag s d.toNat c.toNat

/-- STATE of the slot: 0 FREE, 1 QUEUED, 2 RUNNING, 3 COMPLETE (R395). -/
def cmdState (s : State) (src : CmdSrc) : Nat := rf s src.die src.ctl 30 2

/-- Its OPCODE. -/
def cmdOpcode (s : State) (src : CmdSrc) : Nat := rf s src.die src.ctl 0 8

/-- Argument word n. -/
def cmdArg (s : State) (src : CmdSrc) (n : Nat) : Word := regGet s src.die (src.arg n)

/-- A field of an argument word. -/
def cmdArgF (s : State) (src : CmdSrc) (n lo k : Nat) : Nat := field (cmdArg s src n) lo k

/-- The slot's command has been dispatched (or started, in a side slot) and its own step is to come. -/
def cmdReady (s : State) (src : CmdSrc) (op : Nat) : Bool :=
  s.sup.cmds.any (fun c => c == (src, CmdProgress.dispatched)) && cmdOpcode s src == op

/-- The package master identity that a command's events name: the core's own; none for a host window. -/
def cmdIdent (src : CmdSrc) : Nat :=
  match src with | .core d c => identOf d.toNat c.toNat | _ => 0x7FFF

/-- A saturating count in a field of CMD_CNT (R399). -/
def cmdCount (s : State) (d w lo n : Nat) : State :=
  regField s d (.cmdCnt w) lo n (min (rf s d (.cmdCnt w) lo n + 1) (2 ^ n - 1))

/-- The window whose CMD_CNT counts a slot's commands: its own; a core has none, and its commands count in the window of its tenancy
(DEDUCED from R181 and R11, log 42). -/
def cntWin (s : State) (src : CmdSrc) : Nat := cmdTen s src

/-- What a refused command counts: STATE, or REFUSED for BAD_ARG, STALE, DENIED and FENCED; DENIED enters CMD_DENIED with
the issuer's tenancy (R181, R399, R414). -/
def cmdRefusedCount (s : State) (src : CmdSrc) (code : Nat) : State :=
  let d := src.die
  let w := cntWin s src
  let s1 :=
    if code == Code.state then cmdCount s d w 16 16
    else if code == Code.badArg || code == Code.stale || code == Code.denied || code == Code.fenced then cmdCount s d w 8 8
    else s
  if code == Code.denied then
    logEvent s1 d { ev 0x03 (cmdOpcode s src + 256 * (src.win.getD 0)) 0 with
      ten := some (BitVec.ofNat 4 (cmdTen s src)), master := BitVec.ofNat 16 (cmdIdent src) }
  else s1

/-- A command completes: status and result words are written, STATE becomes COMPLETE, the counts and the interrupt of the
slot follow (R396, R399, R400). A slot that is not RUNNING takes no completion. -/
def completeCmd (s : State) (src : CmdSrc) (st : Word) (res : List Nat := []) : State :=
  if cmdState s src != 2 then s else
  let d := src.die
  let s0 := cmdRefusedCount s src (stCode st)
  let s1 := regSet s0 d src.sts st
  let s2 := (List.range src.results).foldl (fun s i =>
    if i < res.length then regSet s d (src.res i) (word (res.getD i 0)) else regReset s d (src.res i)) s1
  let s3 := regField s2 d src.ctl 30 2 3
  let s4 := s3.onSup (fun u => { u with
    cmds := u.cmds.filter (fun c => c.1 != src), inputs := u.inputs.filter (fun c => c.1 != src), allocs := u.allocs.filter (fun a => a.src != src) })
  match src with
  | .slot _ w _ => if bit (regGet s d src.ctl) 27 then setIrq s4 d w.toNat 0 else s4
  | .side _ w =>
    let s5 := s4.onSup (fun u => { u with sideOrder := u.sideOrder.filter (fun c => c.1 != src) })
    if bit (regGet s d src.ctl) 27 then setIrq s5 d w.toNat 1 else s5
  | .core _ _ => s4

/-- A command completes with a code alone. -/
def endCmd (s : State) (src : CmdSrc) (code : Nat) : State := completeCmd s src (stWord code)

/-- A command whose checks have passed goes on by itself (R397). -/
def continueCmd (s : State) (src : CmdSrc) : State :=
  s.onSup (fun u => { u with cmds := u.cmds.map (fun c => if c.1 == src then (src, .inProgress) else c) })

/-- The command of this slot goes on by itself. -/
def cmdOngoing (s : State) (src : CmdSrc) : Bool := s.sup.cmds.any (fun c => c == (src, CmdProgress.inProgress))

/-- The commands in progress with an opcode whose slots `p` picks complete. -/
def completeWhere (s : State) (op : Nat) (p : CmdSrc → Bool) (st : Word) (res : List Nat := []) : State :=
  ((s.sup.cmds.filter (fun c => c.2 == .inProgress && cmdOpcode s c.1 == op && p c.1)).map (·.1)).foldl
    (fun s src => completeCmd s src st res) s

/-- Place of a status in the order of R11. -/
def statusRank (code : Nat) : Nat :=
  if code == Code.badArg then 0 else if code == Code.stale then 1 else if code == Code.denied then 2 else if code == Code.state then 3
  else if code == Code.fenced then 4 else 5

/-- The status that the issuer itself earns a command: STATE where its window's tenancy is not ACTIVE, ALMANAC apart (R328, R399);
FENCED for a fenced core (R390); DONE where neither holds. -/
def issuerStatus (s : State) (src : CmdSrc) : Nat :=
  match src with
  | .core d c => if coreFenced s d.toNat c.toNat then Code.fenced else Code.done
  | _ => if cmdOpcode s src != 0x60 && tenState s src.die (cmdTen s src) != 1 then Code.state else Code.done

/-- The status of a command with these checks of its own, in their order: the first that fails, or the issuer's status where that
stands ahead of it in R11. -/
def cmdStatus (s : State) (src : CmdSrc) (checks : List (Bool × Nat)) : Nat :=
  let own := match checks.find? (·.1) with | some c => c.2 | none => Code.done
  let common := issuerStatus s src
  if common == Code.done then own
  else if own == Code.done || statusRank common < statusRank own then common else own

/-- A command that a check fails completes with its status; where all pass, `go` runs (R11). -/
def cmdChecked (s : State) (src : CmdSrc) (checks : List (Bool × Nat)) (go : State → State) : State :=
  let code := cmdStatus s src checks
  if code == Code.done then go s else endCmd s src code

/-- Bytes of the DATA page that a command takes as input: as it stood when the command was dispatched (R398). -/
def cmdInput (s : State) (src : CmdSrc) (n : Nat) : List Byte :=
  match s.sup.inputs.find? (fun c => c.1 == src) with
  | some c => c.2.take n
  | none => match src.win with | some w => pageRead s src.die w 0 0 n | none => []

/-- The side command that the side controller executes: one at a time, in the order of GO, from the release of reset (R406, R423). -/
def sideTurn (s : State) (src : CmdSrc) : Bool :=
  !(bootOf s src.die).asserted && ((s.sup.sideOrder.find? (fun c => c.1.die == src.die)).map (·.1)) == some src

/-- A command's own step: it acts where its slot has been dispatched with this opcode. A side command waits for its turn. -/
def cmdAct (s : State) (src : CmdSrc) (op : Nat) (go : State → State) : Host.Outcome State Fault Refusal :=
  act s [src.die]
    (if !cmdReady s src op || (src.isSide && !sideTurn s src) then s
     else go s)

end Sys2Proof.Machine
end

