-- ==== Sys2Proof/Machine/StreamBase.lean ====
section
/-! DEFINITION. The shared operations of the stream machine (R173-R200): contexts, their runs, sequencers, folio digests
(R294), halts (R191), task aborts (R193), and what the status of a slot does to its stream (R190). -/

namespace Sys2Proof.Machine

open Sys2Proof

/-! ### Contexts -/

/-- Progress at the start of an instruction. -/
def Progress.zero : Progress := ⟨0x1FF, 0, 0, 0, 0, [], 0, false, 0, none⟩

/-- The registers of a context that holds nothing (R196). -/
def CtxRegs.zero : CtxRegs :=
  ⟨List.replicate 8 0, List.replicate 4 0, List.replicate 6 0, List.replicate 6 false, List.replicate 6 0,
   List.replicate 4 0, 0, 0, false, false, 0, 0⟩

/-- A context in the IDLE state (R173, R179). -/
def Ctx.idle : Ctx :=
  { st := .idle, regs := .zero, d := 0, image := ⟨[], []⟩, shadow := none, key := none, pcn := 0, points := [], bl := 0,
    bn := 0, task := 0xFFFF, group := 0, hcause := 0, acause := 0, origin := 0, runs := 0, faddr := 0, fdetail := 0, seq := 0,
    recs := [], prog := .zero, onSeq := false, seqSince := 0, nextAt := 0, ready := false, readySince := 0, wait := .none,
    opFlight := false, listed := false, lapsed := false, opSince := 0, started := false, stop := .no, loading := none,
    sealedFolios := [], snapshot := false, stopFrame := 0, stopAt := 0, stallLogged := false, scattered := [], lostPoints := 0 }

/-- Die, cluster and slot of a context ID (R12). -/
def ctxDie (c : CtxId) : Nat := c.toNat / 32768
def ctxCluster (c : CtxId) : Nat := c.toNat / 2048 % 16
def ctxSlot (c : CtxId) : Nat := c.toNat % 2048

/-- A context. -/
def ctxOf (s : State) (c : CtxId) : Ctx := SMap.get s.streams.ctxs c.toNat .idle

/-- A context replaced. -/
def ctxSet (s : State) (c : CtxId) (x : Ctx) : State :=
  s.onStreams (fun t => { t with ctxs := SMap.set t.ctxs c.toNat x })

/-- A context changed. -/
def ctxMod (s : State) (c : CtxId) (f : Ctx → Ctx) : State := ctxSet s c (f (ctxOf s c))

/-- The contexts that the state lists: every other one is IDLE. -/
def allCtxs (s : State) : List (CtxId × Ctx) := s.streams.ctxs.map (fun e => (BitVec.ofNat 18 e.1, e.2))

/-- The contexts of a hall that the state lists, in ascending slot. -/
def hallCtxs (s : State) (d cl : Nat) : List (CtxId × Ctx) :=
  (allCtxs s).filter (fun e => ctxDie e.1 == d && ctxCluster e.1 == cl)

/-- Whether a range register's entries hold number n (R46, R174): COUNT in its field from bit `clo`, BASE in bits from
`blo`. -/
def inRange (base count n : Nat) : Bool := base ≤ n && n < base + count

/-- The tenancy whose range holds a context slot (R174). -/
def ctxTenOf (s : State) (d cl slot : Nat) : Option Nat :=
  (List.range 16).find? (fun t => inRange (rf s d (.ctxRange cl t) 0 11) (rf s d (.ctxRange cl t) 16 12) slot)

/-- The tenancy of a context; 16 where no range holds its slot, which no issuer has. -/
def ctxTen (s : State) (c : CtxId) : Nat := (ctxTenOf s (ctxDie c) (ctxCluster c) (ctxSlot c)).getD 16

/-- The package master identity of a context's group (R176). -/
def ctxIdent (s : State) (c : CtxId) : Nat := identOf (ctxDie c) (groupMaster (ctxCluster c) (ctxOf s c).group.toNat)

/-! ### Folio digests (R294) -/

/-- Product in GF(2^128) with field polynomial x^128 + x^7 + x^2 + x + 1. -/
def gfDigest (a b : Nat) : Nat :=
  (List.range 128).reverse.foldl (fun acc i =>
    let t := if acc < 2 ^ 127 then 2 * acc else (2 * acc) ^^^ (2 ^ 128 + 0x87)
    if b.testBit i then t ^^^ a else t) 0

/-- One slot folded into a digest (R294). -/
def foldSlot (k d : BitVec 128) (data : List Byte) : BitVec 128 :=
  let step := fun (acc x : Nat) => gfDigest (acc ^^^ x) k.toNat
  let blocks := (List.range (ceilDiv data.length 16)).foldl (fun acc i => step acc (leNat ((data.drop (16 * i)).take 16))) d.toNat
  BitVec.ofNat 128 (step blocks data.length)

/-- The key of the enabled digest-key entry of a die whose tenancy and task match (R297, R299). -/
def digestKey (s : State) (d ten task : Nat) : Option (BitVec 128) :=
  let base := rf s d (.djobRange ten) 0 8
  let count := rf s d (.djobRange ten) 16 9
  match (List.range 256).find? (fun n =>
      inRange base count n && bit (regGet s d (.djobCfg n)) 23 && rf s d (.djobCfg n) 0 16 == task) with
  | some n => some (BitVec.ofNat 128 (((List.range 4).map (fun i => (regGet s d (.djobKey n i)).toNat * 2 ^ (32 * i))).foldl (· + ·) 0))
  | none => none

/-! ### Runs (R177, R195, R196, R299) -/

/-- Fields of a descriptor (R177). -/
def descTask (l : List Word) : Nat := field (l.getD 0 0) 16 16
def descGroup (l : List Word) : Nat := field (l.getD 0 0) 8 6
def descPlen (l : List Word) : Nat := field (l.getD 0 0) 0 7
def descProg (l : List Word) : Nat := field (l.getD 1 0) 0 27
def descStart (l : List Word) : Nat := field (l.getD 2 0) 16 16
def descMode (l : List Word) : Nat := field (l.getD 2 0) 0 2
def descEpoch (l : List Word) : Nat := field (l.getD 3 0) 16 16

/-- The initial registers of a run (R196). -/
def startRegs (l : List Word) : CtxRegs :=
  { CtxRegs.zero with
    a := (List.range 8).map (fun i => BitVec.ofNat 48 (l.getD (8 + i) 0).toNat)
    h := (List.range 4).map (fun i => BitVec.ofNat 20 (field (l.getD (4 + i) 0) 0 20))
    ep := BitVec.ofNat 16 (descEpoch l) }

/-- START is not later than the current frame (R183, R13). -/
def startReached (s : State) (l : List Word) : Bool := descMode l == 0 || !epochLater (descStart l) (frameCount s % 65536)

/-- A run begins from an image: every register of R196 takes its initial value (PC_N and the payloads are kept where a
shadow takes effect), the key is latched, the context is ARMED and ready as R183 says. -/
def startRun (s : State) (c : CtxId) (im : Image) (shadow : Bool) : State :=
  let l := im.desc
  let rdy := startReached s l
  ctxMod s c (fun x =>
    { x with
      st := .armed, regs := startRegs l, d := 0, image := im,
      key := digestKey s (ctxDie c) (ctxTen s c) (descTask l),
      pcn := if shadow then x.pcn else 0, points := if shadow then x.points else [],
      lostPoints := if shadow then x.lostPoints else 0, bl := 0, bn := 0,
      task := BitVec.ofNat 16 (descTask l), group := BitVec.ofNat 6 (descGroup l),
      hcause := 0, acause := 0, origin := 0, faddr := 0, fdetail := 0, seq := 0,
      recs := [], prog := .zero, onSeq := false, ready := rdy, readySince := s.now, wait := .none,
      opFlight := false, listed := false, lapsed := false, started := false, stop := .no, loading := none, sealedFolios := [],
      snapshot := true, stallLogged := false })

/-! ### Sequencers (R184, R185) -/

/-- Outstanding slots of a context: requested and not yet delivered (R185). -/
def outstanding (x : Ctx) : Nat := (x.recs.filter (fun r => r.st == .outstanding)).length

/-- Outstanding slots of a hall's request table. -/
def hallOutstanding (s : State) (d cl : Nat) : Nat := ((hallCtxs s d cl).map (fun e => outstanding e.2)).foldl (· + ·) 0

/-- Room under both limits of R185. -/
def roomFor (s : State) (c : CtxId) : Bool :=
  outstanding (ctxOf s c) < 64 && hallOutstanding s (ctxDie c) (ctxCluster c) < 4096

/-- A context is made ready (R184). -/
def makeReady (s : State) (c : CtxId) : State :=
  ctxMod s c (fun x => { x with ready := true, readySince := s.now, wait := .none, listed := false })

/-- A context leaves its sequencer; with nothing to wait for it is ready again at once (R184). -/
def leaveSeq (s : State) (c : CtxId) (w : Wait) : State :=
  ctxMod s c (fun x => { x with onSeq := false, wait := w, ready := w == .none, readySince := s.now, opSince := s.now })

/-! ### Halts and aborts (R190-R193) -/

/-- A presented request leaves its arbiter: it has kept its banks active up to this cycle (R361). -/
def endRequest (s : State) (id : Nat) : State :=
  match s.fabric.slots.find? (fun x => x.id == id && x.stage == .waiting && x.presented) with
  | none => s
  | some x => s.onBanks (fun k => { k with
      lastActive := (x.bankEnds s).foldl (fun m e =>
        SMap.set m (taPkgBank e.1) (max s.now (SMap.get k.lastActive (taPkgBank e.1) 0))) k.lastActive })

/-- A slot's request taken out of the arbiters: its merge pins go with it (R154). -/
def dropSlot (s : State) (id : Nat) : State :=
  ((endRequest s id).onFabric (fun f => { f with
    slots := f.slots.filter (fun x => x.id != id),
    plan := { f.plan with requests := f.plan.requests.filter (fun r => r.slot != id) } })).onBanks
    (fun b => { b with merge := b.merge.map (fun e => { e with pins := e.pins.filter (· != id) }) })

/-- A load of ARM or REARM, which is no slot of a stream (R178). -/
def SlotKind.isLoad : SlotKind → Bool
  | .load _ => true | _ => false

/-- The slots of a context's stream. -/
def slotsOf (s : State) (c : CtxId) : List Slot := s.fabric.slots.filter (fun x => x.ctx == some c && !x.kind.isLoad)

/-- The loads of a context have no taker any more: those not yet granted go, the others are delivered to nobody. -/
def dropLoads (s : State) (c : CtxId) : State :=
  let mine := s.fabric.slots.filter (fun x => x.ctx == some c && x.kind.isLoad)
  let s1 := (mine.filter (fun x => x.stage == .waiting)).foldl (fun s x => dropSlot s x.id) s
  s1.onFabric (fun f => { f with slots := f.slots.map (fun x => if x.ctx == some c && x.kind.isLoad then { x with ctx := none } else x) })

/-- A record of a context changed. -/
def recMod (s : State) (c : CtxId) (seq : Nat) (f : SlotRec → SlotRec) : State :=
  ctxMod s c (fun x => { x with recs := x.recs.map (fun r => if r.seq == seq then f r else r) })

/-- A context in the waiting or halted lists of slip queues is taken off them (R242). -/
def unlist (s : State) (c : CtxId) : State :=
  (s.onQueues (fun q => { q with slipq := q.slipq.map (fun e =>
    (e.1, { e.2 with takers := e.2.takers.filter (· != c), givers := e.2.givers.filter (· != c) })) }))

/-- A context stops issuing (R191, R193): requests neither granted nor in a computed plan are withdrawn, slots handed off
or awaiting GETDATA are abandoned (R270), and it leaves its sequencer and every list of waiters. -/
def stopIssuing (s : State) (c : CtxId) : State :=
  let ungranted := (slotsOf s c).filter (fun x => x.stage == .translate || x.stage == .storeRead || x.stage == .waiting || x.stage == .toEngine)
  let gone := (slotsOf s c).filter (fun x => x.stage == .handedOff || x.stage == .atPeer)
  let s1 := ungranted.foldl (fun s x => recMod (dropSlot s x.id) c x.seq (fun r => { r with st := .withdrawn })) s
  let s2 := gone.foldl (fun s x => recMod s c x.seq (fun r => { r with st := .withdrawn })) s1
  let sent : Slot → Bool := fun x => s.remote.outMsgs.any (fun o => o.sent && o.slots.contains x.id)
  let s3 := gone.foldl (fun s x => if sent x
    then s.onFabric (fun f => { f with slots := f.slots.map (fun y => if y.id == x.id then { y with abandoned := true } else y) })
    else (dropSlot s x.id).onRemote (fun r => { r with outMsgs := r.outMsgs.filter (fun o => !o.slots.contains x.id) })) s2
  let s4 := s3.onRemote (fun r => { r with outStage := r.outStage.filter (fun o => o.ctx != c) })
  ctxMod (unlist s4 c) c (fun x => { x with
    onSeq := false, ready := false, wait := .none, listed := false,
    recs := x.recs.map (fun r => match r.st with | .pending _ _ _ _ => { r with st := .withdrawn } | _ => r) })

/-- Delivered slots at the head of the sequence leave it, each folded in its turn (R188). -/
def foldRecs (key : Option (BitVec 128)) (d : BitVec 128) : List SlotRec → BitVec 128 × List SlotRec
  | [] => (d, [])
  | r :: rest =>
    if r.st == .delivered then
      foldRecs key (match key, r.fold with | some k, some b => foldSlot k d b | _, _ => d) rest
    else (d, r :: rest)

/-- The sequence of a context settled. -/
def settle (x : Ctx) : Ctx :=
  let e := foldRecs x.key x.d x.recs
  { x with d := e.1, recs := e.2 }

/-- Opcode of the instruction at the context's IP. -/
def opcodeAt (x : Ctx) : Nat := field (x.image.prog.getD x.regs.ip 0) 26 6

/-- The saved position taken (R191): registers and progress as they stood before the first slot not delivered with DONE. A
GATHER or SCATTER that stands at an element slot issues its index slot again (R213); an XPOSE reads its rows again and goes
on at the saved slot (R217). -/
def savePosition (x : Ctx) : Ctx :=
  let y := match x.recs.head? with
    | some r => { x with regs := r.regs, prog := { r.prog with slots := r.spos }, seq := r.before }
    | none => x
  let op := opcodeAt y
  let p := y.prog
  let p' :=
    if op == 0x13 then { Progress.zero with skipTo := max p.slots p.skipTo }
    else if op == 0x11 || op == 0x12 then { p with reissue := p.reissue || !p.indices.isEmpty, indices := [] }
    else p
  { y with prog := p', recs := [] }

/-- The tile buffers of a context freed (R216). -/
def freeTiles (s : State) (c : CtxId) : State :=
  s.onStreams (fun t => { t with tiles := t.tiles.filter (fun x => x.ctx != c) })

/-- The effect of a status on the stream (R190). -/
inductive Effect where
  | none | halt (h : Nat) | abort (a : Nat)
deriving DecidableEq, Repr

/-- R190 by status: HALTED stands for a page not present (R60), CLOSED with DETAIL 1 for a remote window not yet open (R292).
A code that the table does not name aborts with ACAUSE 8. -/
def effectOf (st : Word) : Effect :=
  let code := stCode st
  if code == Code.done then .none
  else if code == Code.halted then .halt 2
  else if code == Code.stale then .halt 3
  else if code == Code.closed then .halt (if stDetail st == 1 then 4 else 5)
  else if code == Code.full then .halt 6
  else if code == Code.uncorrectable then .abort 3
  else if code == Code.denied then .abort 4
  else if code == Code.sealFail then .abort 5
  else if code == Code.badArg then .abort 6
  else if code == Code.fenced then .abort 7
  else if code == Code.brownout then .abort 10
  else .abort 8

/-- The halt cause of the saved position's slot where that slot returned a halting status (R191). -/
def headCause (x : Ctx) : Option (Nat × Word × BitVec 48) :=
  match x.recs.head? with
  | some r => match r.st with
    | .failed st a => match effectOf st with | .halt h => some (h, st, a) | _ => none
    | _ => none
  | none => none

/-- No context of the task is still to become ABORTED on any die, and every die has heard (R193). -/
def abortEnded (s : State) (a : TaskAbort) : Bool :=
  a.dies.isEmpty && !(allCtxs s).any (fun e =>
    e.2.task == a.task && ctxTen s e.1 == a.ten.toNat && (match e.2.stop with | .aborting _ _ => true | _ => false))

/-- An abort of the task is in progress (R193). -/
def abortInProgress (s : State) (task ten : Nat) : Bool :=
  s.streams.aborts.any (fun a => a.task.toNat == task && a.ten.toNat == ten)

/-- Task aborts that have ended are forgotten; the ABORT commands whose task has none left complete (R193, R401). -/
def endAborts (s : State) : State :=
  let s1 := s.onStreams (fun t => { t with aborts := t.aborts.filter (fun a => !abortEnded s a) })
  completeWhere s1 0x14 (fun src =>
    let c : CtxId := BitVec.ofNat 18 (cmdArgF s1 src 0 0 18)
    !abortInProgress s1 (ctxOf s1 c).task.toNat (ctxTen s1 c)) (stWord Code.done)

/-- The HALT commands that wait on a context complete with a status. -/
def endHalts (s : State) (c : CtxId) (code : Nat) : State :=
  completeWhere s 0x12 (fun src => cmdArgF s src 0 0 18 == c.toNat) (stWord code)

/-- A HALTED context goes on: to ARMED where it was halted before its first dispatch, else to RUNNING; the saved registers
stand since the halt (R191). -/
def resumeCtx (s : State) (c : CtxId) : State :=
  let x := ctxOf s c
  if x.st == .halted then
    let rdy := x.started || startReached s x.image.desc
    ctxMod (unlist s c) c (fun x => { x with
      st := if x.started then .running else .armed, hcause := 0, faddr := 0, fdetail := 0, ready := rdy, readySince := s.now,
      wait := .none, listed := false, onSeq := false })
  else s

/-- The list entry of a context halted with SLIPQ_FULL: at most 16 halted givers a queue (R242). Where the queue has gained an entry
since its engine answered, the context is resumed at once (DEDUCED, log 51); where it has been disabled, the automatic resume has
ended (R231). -/
def listGiver (s : State) (c : CtxId) (q : Nat) : State :=
  let v := SMap.get s.queues.slipq q ⟨0, 0, 0, [], [], 0⟩
  let d := q / 1024
  if !bit (regGet s d (.sqCfg (q / 64 % 16) (q % 64))) 23 then ctxMod s c (fun x => { x with listed := false, lapsed := true })
  else if v.count + v.reserved < 32 then resumeCtx s c
  else if v.givers.length < 16 then
    ctxMod (s.onQueues (fun k => { k with slipq := SMap.set k.slipq q { v with givers := v.givers ++ [c] } })) c
      (fun x => { x with listed := true, opSince := s.now, stallLogged := false })
  else
    let s1 := hardSetBit s d (.sqStat (q / 64 % 16) (q % 64)) 22
    ctxMod s1 c (fun x => { x with listed := false, opSince := s.now })

/-- Tile buffers of a hall in use (R216). -/
def hallTiles (s : State) (d cl : Nat) : Nat := (s.streams.tiles.filter (fun t => ctxDie t.ctx == d && ctxCluster t.ctx == cl)).length

/-- Contexts that wait for room, for their slots or for a tile buffer go on where they can (R184, R185, R187, R216). One at a limit with
no slot of its own outstanding waits for the table alone (DEDUCED, log 21). -/
def wakeWaiters (s : State) (d cl : Nat) : State :=
  (hallCtxs s d cl).foldl (fun s e =>
    let x := ctxOf s e.1
    if x.stop != .no || x.st != .running then s
    else if (x.wait == .room || (x.wait == .limit && outstanding x == 0)) && roomFor s e.1 then makeReady s e.1
    else if x.wait == .drain && x.recs.isEmpty then makeReady s e.1
    else if x.wait == .tile && hallTiles s d cl < 8 then makeReady s e.1
    else s) s

/-- The earliest slot not delivered with DONE is one of a COMBINE or SEAL (R187). -/
def headSingle (x : Ctx) : Bool :=
  match x.recs.head? with
  | some r => let op := opcodeAt { x with regs := r.regs }; op == 0x14 || op == 0x15
  | none => false

/-- A stopping context with no slot and no single-shot operation outstanding becomes HALTED or ABORTED (R191, R193). The
position that an aborted context reports is its current one; a COMBINE or SEAL stands at its slot until that is delivered
with DONE (R186, R187), but for the context that executed an illegal word, which records that word's IP (R227). -/
def finishStop (s : State) (c : CtxId) : State :=
  let x := ctxOf s c
  if outstanding x != 0 || x.opFlight then s
  else
    match x.stop with
    | .no => s
    | .halting h =>
      let h' := match headCause x with | some e => e.1 | none => h.toNat
      let y := savePosition { x with
        faddr := match headCause x with | some e => e.2.2 | none => x.faddr
        fdetail := match headCause x with | some e => BitVec.ofNat 16 (stDetail e.2.1) | none => x.fdetail }
      let s1 := ctxSet (freeTiles s c) c { y with st := .halted, lapsed := false, hcause := BitVec.ofNat 4 h', stop := .no, stopFrame := frameCount s, stopAt := s.now }
      let s2 := endHalts s1 c Code.done
      wakeWaiters (if h' == 7 && opcodeAt y == 0x19 then listGiver s2 c (field (y.image.prog.getD y.regs.ip 0) 0 13) else s2)
        (ctxDie c) (ctxCluster c)
    | .aborting a o =>
      let s1 := freeTiles (releaseSeals s (fun k => k.ctx == c.toNat) false) c
      let s2 := ctxMod s1 c (fun x => { (if headSingle x && a != 9 then savePosition x else x) with
        st := .aborted, acause := a, origin := o, hcause := 0, stop := .no, shadow := none, recs := [], stopFrame := frameCount s, stopAt := s.now })
      wakeWaiters (endAborts (endHalts s2 c Code.aborted)) (ctxDie c) (ctxCluster c)

/-- A context that is ARMED or RUNNING stops issuing for a halt with a cause (R191). -/
def startHalt (s : State) (c : CtxId) (h : Nat) : State :=
  let x := ctxOf s c
  if (x.st == .armed || x.st == .running) && x.stop == .no then
    finishStop (ctxMod (stopIssuing s c) c (fun x => { x with stop := .halting (BitVec.ofNat 4 h) })) c
  else s

/-- A context stops issuing for an abort of its task, where it is ARMED, RUNNING or HALTED (R193). -/
def startAbort (s : State) (c : CtxId) (a o : Nat) : State :=
  let x := ctxOf s c
  let already := match x.stop with | .aborting _ _ => true | _ => false
  if (x.st == .armed || x.st == .running || x.st == .halted) && !already then
    finishStop (ctxMod (stopIssuing s c) c (fun x => { x with stop := .aborting (BitVec.ofNat 4 a) (BitVec.ofNat 18 o) })) c
  else s

/-- Every context of a task on a die stops for its abort (R193). A load of a shadow that the abort finds in progress ends with STATE and
loads nothing (DEDUCED, log 20). -/
def abortOnDie (s : State) (d task ten a o : Nat) : State :=
  ((allCtxs s).filter (fun e => ctxDie e.1 == d && e.2.task.toNat == task && ctxTen s e.1 == ten)).foldl (fun s e =>
    let s1 := startAbort s e.1 a o
    match (ctxOf s1 e.1).loading with
    | some l => if !l.shadow || (ctxOf s1 e.1).st == .idle || (ctxOf s1 e.1).st == .done then s1 else
        completeCmd (dropLoads (ctxMod s1 e.1 (fun x => { x with loading := none })) e.1) l.src (stWord Code.state)
    | none => s1) s

/-- A task abort that starts on a die (R193): one TASK_ABORT event, the contexts of the die, and the word to every other
die of the ring. `self` is the context whose fault started it, with its own cause. -/
def taskAbort (s : State) (d task ten : Nat) (origin : Nat) (self : Option CtxId) (cause others : Nat) : State :=
  let s1 := logEvent s d { ev 0x0B origin cause with
    ten := some (BitVec.ofNat 4 ten), task := BitVec.ofNat 16 task }
  let far := (List.range s.dies).filter (fun e => e != d && dieOpen s e && dieOpen s d)
  let s2 := s1.onStreams (fun t => { t with aborts := t.aborts ++
    [⟨BitVec.ofNat 16 task, BitVec.ofNat 4 ten, BitVec.ofNat 18 origin, BitVec.ofNat 4 others, far⟩] })
  let s3 := match self with | some c => startAbort s2 c cause origin | none => s2
  endAborts (abortOnDie s3 d task ten others origin)

/-- The fault of a context starts an abort of its task (R193); a context whose abort is under way takes no second one. -/
def ctxAbort (s : State) (c : CtxId) (cause : Nat) : State :=
  let x := ctxOf s c
  match x.stop with
  | .aborting _ _ => s
  | _ => taskAbort s (ctxDie c) x.task.toNat (ctxTen s c) c.toNat (some c) cause 2

/-- The effect of a status on a context that has not stopped already (R190, R191). -/
def applyEffect (s : State) (c : CtxId) (e : Effect) (status : Word) (addr : BitVec 48) : State :=
  match e with
  | .none => s
  | .halt h =>
    if (ctxOf s c).stop == .no then
      startHalt (ctxMod s c (fun x => { x with faddr := addr, fdetail := BitVec.ofNat 16 (stDetail status) })) c h
    else s
  | .abort a =>
    match (ctxOf s c).stop with
    | .aborting _ _ => s
    | _ => ctxAbort (ctxMod s c (fun x => { x with faddr := addr, fdetail := BitVec.ofNat 16 (stDetail status) })) c a

/-- The status of a slot reaches its hall: the record takes it, the sequence settles, R190 applies, a stop may end, and
waiters go on. `fold` are the bytes of a slot that R295 folds. -/
def ctxSlotDone (s : State) (c : CtxId) (seq : Nat) (status : Word) (addr : BitVec 48) (fold : Option (List Byte)) : State :=
  let ok := stCode status == Code.done
  let s1 := recMod s c seq (fun r => { r with
    st := if ok then .delivered else .failed status addr, fold := if ok then fold else none })
  let s2 := ctxMod s1 c (fun x => settle { x with wait := if x.wait == .limit then .room else x.wait })
  let s3 := applyEffect s2 c (effectOf status) status addr
  wakeWaiters (finishStop s3 c) (ctxDie c) (ctxCluster c)

end Sys2Proof.Machine
end

