-- ==== Sys2Proof/Machine/Queues.lean ====
section
/-! DEFINITION. Sharing structures (R229-R258): the places, configuration and disabling of slip queues, combining queues,
result slots and multicast groups. -/

namespace Sys2Proof.Machine

open Sys2Proof

/-! ### Places (R240, R245, R255) -/

/-- Package bank number of exchange bank 352 + n of a cluster. -/
def exchangeBank (d cl n : Nat) : Nat := d * 8192 + cl * 512 + 352 + n

/-- Die, cluster and number of a QID (R206). -/
def qDie (q : Nat) : Nat := q / 1024
def qCl (q : Nat) : Nat := q / 64 % 16
def qNo (q : Nat) : Nat := q % 64

/-- SQ_CFG of a QID. -/
def sqReg (s : State) (q : Nat) : Word := regGet s (qDie q) (.sqCfg (qCl q) (qNo q))
/-- First line of a slip queue. -/
def sqLine (s : State) (q : Nat) : Nat :=
  exchangeBank (qDie q) (qCl q) (field (sqReg s q) 11 5) * 2048 + field (sqReg s q) 0 11
/-- A slip queue's contents. -/
def sqOf (s : State) (q : Nat) : SlipQ := SMap.get s.queues.slipq q ⟨0, 0, 0, [], [], 0⟩
def sqSet (s : State) (q : Nat) (v : SlipQ) : State := s.onQueues (fun k => { k with slipq := SMap.set k.slipq q v })

/-- Key, register and contents of a combining queue. -/
def cqKey (d cl n : Nat) : Nat := d * 256 + cl * 16 + n
def cqReg (s : State) (d cl n : Nat) : Word := regGet s d (.cqCfg cl n)
def CombQ.idle : CombQ := ⟨.idle, 0, 0, [], 0, 0, false, [], false, 0⟩
def cqOf (s : State) (k : Nat) : CombQ := SMap.get s.queues.comb k .idle
def cqSet (s : State) (k : Nat) (v : CombQ) : State := s.onQueues (fun q => { q with comb := SMap.set q.comb k v })
/-- First line and number of lines of its region (R245). -/
def cqRegion (s : State) (d cl n : Nat) : Nat × Nat :=
  (exchangeBank d cl (field (cqReg s d cl n) 14 5) * 2048 + 16 * field (cqReg s d cl n) 7 7, 16 * (field (cqReg s d cl n) 0 7 + 1))

/-- RS_CFG of the block of result slot i of die d, the slot's contents and its line. -/
def rsReg (s : State) (d i : Nat) : Word := regGet s d (.rsCfg (i / 16))
def rsOf (s : State) (d i : Nat) : ResSlot := SMap.get s.queues.results (d * 4096 + i) ⟨0, false, false, 0⟩
def rsSet (s : State) (d i : Nat) (v : ResSlot) : State :=
  s.onQueues (fun q => { q with results := SMap.set q.results (d * 4096 + i) v })
def rsLine (s : State) (d i : Nat) : Nat :=
  exchangeBank d (i / 256) (field (rsReg s d i) 7 5) * 2048 + 16 * field (rsReg s d i) 0 7 + i % 16

/-! ### Events -/

/-- STRUCT_EVENT of a structure of a die (R414): kind 1 slip queue, 2 combining queue, 3 result block, 4 die group, 5
package group, 6 ballot. -/
def structEvent (s : State) (d kind num ten reason addr : Nat) : State :=
  logEvent s d { ev 0x0E (kind * 2 ^ 28 + num) reason with ten := some (BitVec.ofNat 4 ten), addr := BitVec.ofNat 48 addr }

/-! ### Combining queues (R245-R250) -/

/-- FMT, MODE, CONTRIB and SPAN of a queue's round (R246). -/
def cqFmt (s : State) (d cl n : Nat) : Nat := rf s d (.cqCtl cl n) 21 2
def cqOrdered (s : State) (d cl n : Nat) : Bool := bit (regGet s d (.cqCtl cl n)) 20
def cqContrib (s : State) (d cl n : Nat) : Nat := rf s d (.cqCtl cl n) 8 12
def cqSpan (s : State) (d cl n : Nat) : Nat := rf s d (.cqCtl cl n) 0 8

/-- The checks of a COMBINE slot at its queue (R218, R234, R248-R250, R253), in the order of R11. -/
def cqVerdict (s : State) (ten d cl n off cidx len : Nat) : Verdict :=
  let v := cqOf s (cqKey d cl n)
  let cfg := cqReg s d cl n
  let ord := cqOrdered s d cl n
  let span := cqSpan s d cl n
  let contrib := cqContrib s d cl n
  let bytes := if cqFmt s d cl n == 2 then 2 * off + 2 * len else off + len
  firstFail [
    failIf (!s.present d || off % 64 != 0 || 64 * (cqRegion s d cl n).2 < bytes || (ord && contrib + 1 ≤ cidx))
      ⟨Code.badArg, 0, 0, 0, 0⟩,
    failIf (field cfg 19 4 != ten) ⟨Code.denied, 0, 2, field cfg 19 4, 0⟩,
    failIf (!bit cfg 23) ⟨Code.state, 0, 0, 0, 0⟩,
    failIf (v.fault) ⟨Code.uncorrectable, 0, 0, 0, 0⟩,
    failIf (v.st == .complete && !ord && span != 0) ⟨Code.state, 0, 0, 0, 0⟩,
    failIf (ord && span ≤ SMap.get v.counts cidx 0) ⟨Code.state, 0, 0, 0, 0⟩]

/-- COMBINE slots to a queue that are presented or granted and are to take an entry of its window when they arrive: those ahead of NEXT.
That a presented one keeps an entry free for itself, so that the window never overflows, is deduced (R250; DEDUCED, log 52). -/
def cqComing (s : State) (d cl n id : Nat) : Nat :=
  (s.fabric.slots.filter (fun x => x.id != id && ((x.stage == .waiting && x.presented) || x.stage == .planned || (x.stage == .granted && stCode x.status == Code.done))
    && (match x.dst with
        | .combining e k m _ c => e.toNat == d && k.toNat == cl && m.toNat == n && decide ((cqOf s (cqKey d cl n)).next < c.toNat)
        | _ => false))).length

/-- Whether COMBINE slot number `id` may be presented (R247, R250): while STATE is RUNNING, where in ORDERED mode a slot ahead of NEXT
needs a free window entry within 31 of NEXT. A slot to a disabled or foreign queue is presented, to return its status (R234). -/
def cqPresentable (s : State) (id ten d cl n off cidx len : Nat) : Bool :=
  let v := cqOf s (cqKey d cl n)
  let cfg := cqReg s d cl n
  !s.present d || field cfg 19 4 != ten || !bit cfg 23
    || (v.st == .running && ((cqVerdict s ten d cl n off cidx len).code != 0 || !cqOrdered s d cl n || cidx == v.next
          || (v.next < cidx && cidx < v.next + 32 && v.window.length + cqComing s d cl n id < 32)))

/-! ### Disabling (R231) -/

/-- The queue of a context's instruction at IP. -/
def queueAtIp (x : Ctx) : Nat := field (x.image.prog.getD x.regs.ip 0) 0 13

/-- The contexts that wait on a queue whose list was full: takers, or halted givers (R242). -/
def unlistedOf (s : State) (q : Nat) (giver : Bool) : List CtxId :=
  ((allCtxs s).filter (fun e => queueAtIp e.2 == q && !e.2.listed && (if giver then e.2.st == .halted && e.2.hcause == 7
    else e.2.st == .running && e.2.wait == .queue && e.2.stop == .no))).map (·.1)

/-- A slip queue disabled: its slips are lost, its waiting takers, listed or not, end with STATE, its halted givers stay HALTED and are
resumed no more. -/
def disableSlipq (s : State) (q : Nat) (event : Bool) : State :=
  let d := qDie q
  let ten := field (sqReg s q) 16 4
  let takers := (sqOf s q).takers ++ unlistedOf s q false
  let givers := (sqOf s q).givers ++ unlistedOf s q true
  let s1 := regField s d (.sqCfg (qCl q) (qNo q)) 23 1 0
  let s2 := s1.onQueues (fun k => { k with slipq := SMap.erase k.slipq q })
  let s3 := givers.foldl (fun s c => ctxMod s c (fun x => { x with listed := false, lapsed := true })) s2
  let s4 := if event then structEvent s3 d 1 q ten 1 0 else s3
  takers.foldl (fun s c =>
    if opcodeAt (ctxOf s c) == 0x18 then ctxAbort s c 8 else makeReady s c) s4

/-- A combining queue disabled. -/
def disableComb (s : State) (d cl n : Nat) (event : Bool) : State :=
  let ten := field (cqReg s d cl n) 19 4
  let s1 := regField s d (.cqCfg cl n) 23 1 0
  let s2 := s1.onQueues (fun k => { k with comb := SMap.erase k.comb (cqKey d cl n) })
  if event then structEvent s2 d 2 (cl * 16 + n) ten 1 0 else s2

/-- A block of result slots disabled: no slot is ready; SEQ and LEN stand until it is enabled (R231, R255). -/
def disableBlock (s : State) (d b : Nat) (event : Bool) : State :=
  let ten := rf s d (.rsCfg b) 16 4
  let s1 := regField s d (.rsCfg b) 23 1 0
  let s2 := (List.range 16).foldl (fun s i => let r := rsOf s d (16 * b + i)
    rsSet s d (16 * b + i) { r with ready := false, read := false }) s1
  if event then structEvent s2 d 3 b ten 1 0 else s2

/-- A multicast group disabled: 4 a die group, 5 a package group. -/
def disableGroup (s : State) (d g : Nat) (event : Bool) : State :=
  let r := if g < 256 then Reg.mcgCfg g else .pmcgCfg (g - 256)
  let ten := rf s d r 16 4
  let s1 := regField s d r 23 1 0
  if event then structEvent s1 d (if g < 256 then 4 else 5) (if g < 256 then g else g - 256) ten 1 0 else s1

/-- The registers of a die that stand enabled and that `p` picks. -/
def enabledRegs (s : State) (d : Nat) (p : Reg → Bool) : List Reg :=
  s.regs.filterMap (fun e => match keyReg s e.1 with
    | some (x, r) => if x == d && p r && bit e.2 23 then some r else none
    | none => none)

/-- One structure disabled, by its configuration register. -/
def disableReg (s : State) (d : Nat) (event : Bool) : Reg → State
  | .sqCfg k q => disableSlipq s (d * 1024 + k * 64 + q) event
  | .cqCfg k n => disableComb s d k n event
  | .rsCfg b => disableBlock s d b event
  | .mcgCfg g => disableGroup s d g event
  | .pmcgCfg p => disableGroup s d (256 + p) event
  | _ => s

/-- The exchange bank that holds an enabled structure; none for a group. -/
def structBank (d : Nat) (r : Reg) (w : Word) : Option Nat :=
  match r with
  | .sqCfg k _ => some (exchangeBank d k (field w 11 5))
  | .cqCfg k _ => some (exchangeBank d k (field w 14 5))
  | .rsCfg b => some (exchangeBank d (b / 16) (field w 7 5))
  | _ => none

/-- First line of its bank and number of lines of a structure. -/
def structLines (r : Reg) (w : Word) : Nat × Nat :=
  match r with
  | .sqCfg _ _ => (field w 0 11, 2)
  | .cqCfg _ _ => (16 * field w 7 7, 16 * (field w 0 7 + 1))
  | _ => (16 * field w 0 7, 16)

/-- The configuration registers that R229 and R231 apply to. -/
def isStruct : Reg → Bool
  | .sqCfg _ _ => true | .cqCfg _ _ => true | .rsCfg _ => true | .mcgCfg _ => true | .pmcgCfg _ => true | _ => false

/-- Enabled structures of a bank. -/
def structsOf (s : State) (b : Nat) : List Reg :=
  (enabledRegs s (pbDie b) isStruct).filter (fun r => structBank (pbDie b) r (regGet s (pbDie b) r) == some b)

/-- A folio holds a line of an enabled structure (R230). -/
def structFolio (s : State) (f : Nat) : Bool :=
  (structsOf s (foBank f)).any (fun r =>
    let l := structLines r (regGet s (pbDie (foBank f)) r)
    l.1 / 64 ≤ f % 32 && f % 32 ≤ (l.1 + l.2 - 1) / 64)

/-- Every enabled structure of a bank disabled, each with an event (R231). -/
def disableBank (s : State) (b : Nat) : State :=
  (structsOf s b).foldl (fun s r => disableReg s (pbDie b) true r) s

/-- Every enabled structure of a die disabled, as domain 47 goes down (R231); what its queue engines keep of the result slots is at its
reset value (R8, R257). -/
def disableDie (s : State) (d : Nat) : State :=
  ((enabledRegs s d isStruct).foldl (fun s r => disableReg s d true r) s).onQueues (fun q => { q with
    results := SMap.eraseIf q.results (fun i => i / 4096 == d) })

/-! ### Writes of configuration registers (R229, R236, R237) -/

/-- A hardened register written: all three copies take the value, and a repair that was to come is dropped (R317-R319). The value that
the state holds is the majority's. -/
def hardSet (s : State) (d : Nat) (r : Reg) (v : Word) : State :=
  (regSet s d r v).onReplicas (fun x => { x with
    unsafeRegs := SMap.erase x.unsafeRegs (key d r), strays := SMap.erase x.strays (key d r) })

/-- The hardware changes a hardened register that has a LAST field: LAST keeps the status of the last write. -/
def hardChange (s : State) (d : Nat) (r : Reg) (v : Word) : State := hardSet s d r (setField v 24 8 (rf s d r 24 8))

/-- A register as the checks of a write see it: an unsafe one as its reset value (R319). -/
def regSeen (s : State) (d : Nat) (r : Reg) : Word := if isUnsafe s d r then r.resetVal else regGet s d r

/-- The value of a package copy as die d reads it: a write through d that is not yet in force shows at once (R237, R301); LAST is the
status of the latest write. -/
def copyView (s : State) (d : Nat) (r : Reg) : Word :=
  match (s.queues.copies.filter (fun c => c.die == d && c.code == r.code)).getLast?, r with
  | some c, .pmcgMem _ _ _ => c.value
  | some c, _ => setField c.value 24 8 (rf s d r 24 8)
  | none, _ => regSeen s d r

/-- A refused write of a register with a LAST field: LAST takes the status and REG_REFUSED is entered (R42, R229). -/
def refuseLast (s : State) (d : Nat) (r : Reg) (code : Nat) (ten : Option Nat) : State :=
  logRefused (regField s d r 24 8 code) d r code ten

/-- TEN and reserved bits of a configuration register. -/
def structTen (r : Reg) (w : Word) : Nat := match r with | .cqCfg _ _ => field w 19 4 | _ => field w 16 4
def structReserved (r : Reg) (w : Word) : Bool :=
  match r with
  | .sqCfg _ _ => field w 20 3 != 0
  | .cqCfg _ _ => false
  | .rsCfg _ => field w 20 3 != 0 || field w 12 4 != 0
  | _ => field w 20 2 != 0 || field w 7 9 != 0

/-- Fields below LAST, but for a group's PEND. -/
def structFields (r : Reg) (w : Word) : Nat :=
  match r with
  | .mcgCfg _ => field w 23 1 * 2 ^ 23 + field w 0 20
  | .pmcgCfg _ => field w 23 1 * 2 ^ 23 + field w 0 20
  | _ => field w 0 24

/-- The members of a group that a count takes in, as die d's copies show them. -/
def viewMembers (s : State) (d g count : Nat) : List (Bool × Nat) :=
  (List.range count).map (fun i =>
    let lo := if g < 256 then copyView s d (.mcgMem g i false) else copyView s d (.pmcgMem (g - 256) i false)
    let hi := if g < 256 then copyView s d (.mcgMem g i true) else copyView s d (.pmcgMem (g - 256) i true)
    (bit hi 31, lo.toNat + 2 ^ 32 * field hi 0 1))

/-- R237: members in use that name an absent die, another die (die groups), or a bad core address; and members that name a
fenced core or a retired bank. -/
def membersBad (s : State) (d g : Nat) (l : List (Bool × Nat)) : Bool :=
  l.any (fun m =>
    let die := if m.1 then taDie m.2 else apDie m.2
    !s.present die || (g < 256 && die != d) || (!m.1 && 2 ^ 30 ≤ m.2))
def membersFenced (s : State) (l : List (Bool × Nat)) : Bool :=
  l.any (fun m => if m.1 then retired s (taPkgBank m.2) else coreFenced s (apDie m.2) (apCore m.2))

/-- Group number of a group register: package groups from 256. -/
def groupNo : Reg → Option Nat
  | .mcgCfg g => some g | .pmcgCfg p => some (256 + p) | .mcgMem g _ _ => some g | .pmcgMem p _ _ => some (256 + p) | _ => none

/-- The limit of a group's members (R236). -/
def groupLimit (g : Nat) : Nat := if g < 256 then 32 else 64

/-- The status of a write to a configuration register (R229, R237). -/
def structStatus (s : State) (d w : Nat) (r : Reg) (v : Word) : Nat :=
  let old := copyView s d r
  let en := bit v 23
  let bank := structBank d r v
  let lines := structLines r v
  let grp := groupNo r
  let members := match grp with | some g => viewMembers s d g (min (field v 0 7) (groupLimit g)) | none => []
  let misplaced := match r with
    | .sqCfg _ _ => field v 0 1 != 0
    | .cqCfg _ _ => 128 < field v 7 7 + field v 0 7 + 1
    | _ => false
  let badGroup := match grp with
    | some g => en && (field v 0 7 == 0 || groupLimit g < field v 0 7 || membersBad s d g members)
    | none => false
  let clash := match bank with
    | some b => en && (
        (enabledRegs s d isStruct).any (fun o => o != r && structBank d o (regGet s d o) == some b &&
          (let l := structLines o (regGet s d o); l.1 < lines.1 + lines.2 && lines.1 < l.1 + l.2))
        || ownTen (regGet s d (.bankOwn (pbBank b))) != structTen r v
        || (List.range 32).any (fun f => lines.1 / 64 ≤ f && f ≤ (lines.1 + lines.2 - 1) / 64 && isFolioClass s (b * 32 + f)))
    | none => false
  if structReserved r v || misplaced || badGroup then Code.badArg
  else if w != 0 then Code.denied
  else if clash then Code.state
  else if bit old 23 && structFields r v % 2 ^ 23 != structFields r old % 2 ^ 23 then Code.state
  else if (match bank with | some b => retired s b | none => false) || (en && membersFenced s members) then Code.fenced
  else Code.done

/-- A write of a package copy: its die shows it at once, every die takes it at the second window edge (R237, R301). -/
def copyWrite (s : State) (d : Nat) (r : Reg) (v : Word) : State :=
  s.onQueues (fun q => { q with copies := q.copies ++ [⟨d, r.code, v, 2, s.frame⟩] })

/-- A write to a sharing-structure configuration register (R229): accepted, it enables, disables or keeps the structure. -/
def structWrite (s : State) (d w : Nat) (r : Reg) (v : Word) : State :=
  let st := structStatus s d w r v
  let old := copyView s d r
  if st != Code.done then refuseLast s d r st (some (structTen r old))
  else
    let nv := word (structFields r v)
    match r with
    | .pmcgCfg _ => copyWrite (regField s d r 24 8 Code.done) d r nv
    | _ =>
      let s1 := if bit old 23 && !bit v 23 then disableReg s d false r else s
      let s2 := hardSet s1 d r nv
      if bit v 23 && !bit old 23 then
        match r with
        | .sqCfg k q => s2.onQueues (fun x => { x with slipq := SMap.erase x.slipq (d * 1024 + k * 64 + q) })
        | .cqCfg k n => s2.onQueues (fun x => { x with comb := SMap.erase x.comb (cqKey d k n) })
        | .rsCfg b => s2.onQueues (fun x => { x with results := SMap.eraseIf x.results (fun i => i / 16 == d * 256 + b) })
        | _ => s2
      else s2

/-- A write of both halves of a member register (R236, R237): while EN is 1 every member in use is checked. Its status stands in LAST of the group,
and the event of a refused one names the member register by its LO offset. -/
def memberWrite (s : State) (d w : Nat) (g m : Nat) (lo hi : Word) : State :=
  let cfg := if g < 256 then Reg.mcgCfg g else .pmcgCfg (g - 256)
  let rl := if g < 256 then Reg.mcgMem g m false else .pmcgMem (g - 256) m false
  let rh := if g < 256 then Reg.mcgMem g m true else .pmcgMem (g - 256) m true
  let c := copyView s d cfg
  let new := (bit hi 31, lo.toNat + 2 ^ 32 * field hi 0 1)
  let used := if bit c 23 then (viewMembers s d g (min (field c 0 7) (groupLimit g))).set m new else []
  let st :=
    if field hi 1 30 != 0 || membersBad s d g used then Code.badArg
    else if w != 0 then Code.denied
    else if membersFenced s used then Code.fenced
    else Code.done
  if st != Code.done then logRefused (regField s d cfg 24 8 st) d rl st (some (field c 16 4))
  else
    let s1 := regField s d cfg 24 8 Code.done
    if g < 256 then hardSet (hardSet s1 d rl lo) d rh hi
    else copyWrite (copyWrite s1 d rl lo) d rh hi

/-- Where a die's unit holds a ballot. -/
def ballotKey (d b : Nat) : Nat := d * 256 + b

/-- The package copies in force at a window edge (R237, R301): each written value reaches every open die in the order of
acceptance, by frame, then die; a die that is not open takes the copies as it opens (R428). LAST of a die stays its own. A write of EN = 1 empties the ballot of
a die that takes it, one of EN = 0 ends its retries (R301, R304). -/
def copiesEdge (s : State) : State :=
  let due := sortBy (fun a b => a.frame < b.frame || (a.frame == b.frame && a.die ≤ b.die)) (s.queues.copies.filter (fun c => c.edges ≤ 1))
  let s1 := s.onQueues (fun q => { q with copies := (q.copies.filter (fun c => 1 < c.edges)).map (fun c => { c with edges := c.edges - 1 }) })
  due.foldl (fun s c =>
    match Reg.ofCode s.dies c.code with
    | none => s
    | some r =>
      ((List.range s.dies).filter (fun d => d == c.die || (dieOpen s d && dieOpen s c.die))).foldl (fun s d =>
        match r with
        | .pmcgMem _ _ _ => if domUp s d 47 then hardSet s d r c.value else s
        | .pmcgCfg _ => if domUp s d 47 then hardSet s d r (setField c.value 24 8 (rf s d r 24 8)) else s
        | .ballotCfg b =>
          (hardSet s d r (setField c.value 24 8 (rf s d r 24 8))).onReplicas (fun x => { x with ballots :=
            (if bit c.value 23 then SMap.erase x.ballots (ballotKey d b)
             else x.ballots.map (fun e => if e.1 == ballotKey d b then (e.1, { e.2 with verdictWaiting := false }) else e)) })
        | _ => s) s) s1

end Sys2Proof.Machine
end

