-- ==== Sys2Proof/Machine/Present.lean ====
section
/-! DEFINITION. What a request must meet before it is presented to its arbiter: collations (R147-R151), merge entries
(R154), seal contexts (R165), combining queues (R247, R250); and the bank cycles that R89 leaves free. -/

namespace Sys2Proof.Machine

open Sys2Proof

/-! ### Free bank cycles (R89, R157) -/

/-- The slice port segments of a stack bank, outward and inward. -/
def sliceSegs (b : Nat) : List Nat :=
  [segOf (pbDie b) (pbCluster b) 0 (pbLocal b / 8) 0, segOf (pbDie b) (pbCluster b) 0 (pbLocal b / 8) 1]

/-- A position of a segment is reserved (R104). -/
def resvOf (s : State) (sg k : Nat) : Word := regGet s (segDie sg) (.slotResv (sg % 65536) (k % 128))

/-- Visitor block of carrel bank j: round cc 8j + 4 to 8j + 7 (R75). -/
def inVisitorBlock (b c : Nat) : Bool := isCarrel b && decide (8 * (b % 4) + 4 ≤ c % 32) && decide (c % 32 ≤ 8 * (b % 4) + 7)

/-- A granted access or a flush holds the bank in cycle c (R19, R73, R89). -/
def bankHeld (s : State) (b c : Nat) : Bool := s.fabric.holds.any (fun h => h.bank == b && h.first ≤ c && c ≤ h.last)

/-- Cycle c of a bank is one that R89 leaves free: nothing holds it, it lies in no hold of a reserved position of its slice
port, and for a carrel bank in no visitor block while no owner port requests the bank. A paused or sleeping bank gives
none. -/
def freeCycle (s : State) (b c : Nat) : Bool :=
  !bankHeld s b c && (pauseOf s b).isNone && !asleep s b && domUp s (pbDie b) (bankDomain (pbBank b)) &&
  (if isCarrel b then
     !inVisitorBlock b c &&
       !s.fabric.slots.any (fun x => x.stage == .waiting && x.presented && x.ownCarrel s
          && (x.bankEnds s).any (fun e => taPkgBank e.1 == b))
   else
     !(sliceSegs b).any (fun sg => (List.range 4).any (fun i => i ≤ c && (c - i) % 2 == 0 && bit (resvOf s sg ((c - i) / 2)) 31)))

/-- End of the current frame: the first cycle of the next. -/
def frameEnd (s : State) : Nat := 256 * (s.frame + 1)

/-- The first cycle from `from'` on, in the current frame, that begins n free cycles of the bank; none while the root is stopped (R371,
R372). -/
def nextFreeFrom (s : State) (b n from' : Nat) : Option Nat :=
  let start := max s.now from'
  if rootStopped s || dieStopped s (pbDie b) then none
  else ((List.range (frameEnd s - start)).map (· + start)).find? (fun c => (List.range n).all (fun i => freeCycle s b (c + i)))

/-- The first free cycles from now on. -/
def nextFree (s : State) (b n : Nat) : Option Nat := nextFreeFrom s b n s.now

/-- The bank is in use in n cycles from c (R89); transfers are numbered from 1, so 0 names none. -/
def useCycles (s : State) (b c n : Nat) : State :=
  touchBankTo (s.onFabric (fun f => { f with holds := f.holds ++ [⟨b, c, c + n - 1, 0x7FFF, 0⟩] })) b (c + n - 1)

/-! ### Merge entries (R154-R157) -/

/-- A slot pins an entry in cycle c: it is presented, or its array cycle of the entry's line is still to pass (R154). -/
def pinActive (s : State) (pl c id : Nat) : Bool :=
  s.fabric.slots.any (fun x => x.id == id && x.stage == .waiting && x.presented)
    || s.fabric.accs.any (fun a => a.slot == id && a.line == pl && a.write && c ≤ a.cycle)

/-- An entry that a write pins in cycle c (R154). -/
def pinned (s : State) (c : Nat) (e : MergeEntry) : Bool := e.pins.any (pinActive s e.line c)

/-- An entry that flushes as soon as its bank has a cycle pair: due, OPEN and not pinned (R157). -/
def flushWaits (s : State) (b c : Nat) (e : MergeEntry) : Bool := lnBank e.line == b && e.due && !e.closed && !pinned s c e

/-- A free cycle c of the bank goes to somebody that comes first (R157): a flush, where the next cycle is free too, for a parity
pass, a collation or the zeroing pass; a parity pass; a collation. `rank` 1 looks for flushes, 2 for parity passes too, 3 for
collations too, 4 for the zeroing pass too. -/
def cycleTaken (s : State) (b rank c : Nat) : Bool :=
  (freeCycle s b (c + 1) && s.banks.merge.any (flushWaits s b c))
    || (2 ≤ rank && s.banks.seals.any (fun c => foBank c.folio == b && c.parity.isSome))
    || (3 ≤ rank && s.banks.collations.any (fun c => foBank c.folio == b && (match c.st with | .reading n => decide (n < 64) | _ => false)))
    || (4 ≤ rank && (SMap.find s.banks.zeroing b).isSome)

/-- The first cycle of the current frame, from `from'` on, that begins n free cycles of the bank and goes to nobody that comes before
`rank`. -/
def nextCycle (s : State) (b n from' rank : Nat) : Option Nat :=
  let start := max s.now from'
  if rootStopped s || dieStopped s (pbDie b) then none
  else ((List.range (frameEnd s - start)).map (· + start)).find? (fun c =>
    (List.range n).all (fun i => freeCycle s b (c + i)) && !cycleTaken s b rank c)

/-- Lines of a write of n bytes at an address that are narrow in a WORD folio and have no OPEN entry. -/
def needsEntries (s : State) (ta n : Nat) : List Nat :=
  (linesOf ta n).filter (fun pl =>
    (classOf s (lnFolio pl)).code == 1 && isNarrow (lineEnables ta (List.replicate n 0) pl).1 && (openEntry s pl).isNone)

/-- Lines for which a slot's writes need merge entries. -/
def slotNeeds (s : State) (x : Slot) : List Nat :=
  ((x.bankEnds s).filter (·.2)).flatMap (fun e => needsEntries s e.1 x.len)

/-- Entries of a bank and of a cluster, held or reserved by presented writes (R154). -/
def entriesTaken (s : State) (p : Nat → Bool) : Nat :=
  (s.banks.merge.filter (fun e => p (lnBank e.line))).length
    + ((s.fabric.slots.filter (fun x => x.stage == .waiting)).flatMap (fun x => x.reserved.filter (fun pl => p (lnBank pl)))).length

/-- The entries that a write needs are free: 64 in its cluster, BANK_CAP in its bank (R154, R162). -/
def entriesFree (s : State) (need : List Nat) : Bool :=
  need.all (fun pl =>
    let b := lnBank pl
    let inBank := fun (c : Nat) => c == b
    let inCl := fun (c : Nat) => c / 512 == b / 512
    entriesTaken s inBank + (need.filter (fun q => inBank (lnBank q))).length ≤ bankCap s (pbDie b) (pbCluster b)
      && entriesTaken s inCl + (need.filter (fun q => inCl (lnBank q))).length ≤ 64)

/-! ### Collations (R147-R151) -/

/-- The folio codec group of a bank's half is powered (R24, R151). -/
def codecUp (s : State) (b : Nat) : Bool := domUp s (pbDie b) (44 + pbCluster b / 8)

/-- A folio's collation entry. -/
def collationOf (s : State) (f : Nat) : Option Collation := s.banks.collations.find? (fun e => e.folio == f)

def collationMod (s : State) (f : Nat) (g : Collation → Collation) : State :=
  s.onBanks (fun b => { b with collations := b.collations.map (fun e => if e.folio == f then g e else e) })

/-- The slice port or carrel of the package that a bank's codec entries belong to (R149): 48 slices and 32 carrels a cluster. -/
def codecUnit (b : Nat) : Nat := b / 512 * 80 + (if isCarrel b then 48 + (b % 512 - 384) / 4 else b % 512 / 8)

/-- A folio is named by a presented request or a granted slot (R149). -/
def folioNamed (s : State) (f : Nat) : Bool :=
  s.fabric.slots.any (fun x => ((x.stage == .waiting && x.presented) || x.stage == .granted || x.stage == .planned) &&
    (match x.src with | .bank ta _ => taFolio ta.toNat == f | _ => false))

/-- Task ID that a slot's events name; a descriptor or program read belongs to no task yet. -/
def slotTask (s : State) (x : Slot) : Nat :=
  match x.ctx with | some c => if x.kind.isLoad then 0xFFFF else (ctxOf s c).task.toNat | none => 0xFFFF

/-- A collation begins (R148, R149): it takes a free entry, else the least recently used unpinned one of its port, and waits
where there is none. A folio that is OPEN or all invalid is READY at once; a sleeping bank is woken. It keeps the master and task of the request that started
it, whose read its findings name (R172). -/
def startCollation (s : State) (f : Nat) (x : Slot) : State :=
  let b := foBank f
  let unit := s.banks.collations.filter (fun e => codecUnit (foBank e.folio) == codecUnit b)
  let cap := if isCarrel b then 2 else 8
  let free := unit.filter (fun e => !folioNamed s e.folio)
  let victim := free.foldl (fun acc e => match acc with
    | none => some e
    | some v => if e.used < v.used then some e else acc) (none : Option Collation)
  if (collationOf s f).isSome || !codecUp s b then s
  else
    let room := decide (unit.length < cap)
    match room, victim with
    | false, none => s
    | _, _ =>
      let s1 := if room then s else match victim with | some v => dropCollations s (· == v.folio) | none => s
      let zero := sealOf s f == .opened || (List.range 64).all (fun i => !lineValid s (foLine f + i))
      let e : Collation := ⟨f, if zero then .ready [] else .reading 0, [], s.now, s.now, x.ident, slotTask s x⟩
      let s2 := s1.onBanks (fun k => { k with collations := k.collations ++ [e] })
      if asleep s2 b && (pauseOf s2 b).isNone then startWake s2 b [] else s2

/-- A READY or FAILED entry (R147). -/
def collated (s : State) (f : Nat) : Bool :=
  match collationOf s f with
  | some e => match e.st with | .reading _ => false | _ => true
  | none => false

/-! ### Seal contexts (R165) -/

/-- The seal context of a folio. -/
def sealCtxOf (s : State) (f : Nat) : Option SealCtx := s.banks.seals.find? (fun c => c.folio == f)

def sealMod (s : State) (f : Nat) (g : SealCtx → SealCtx) : State :=
  s.onBanks (fun b => { b with seals := b.seals.map (fun c => if c.folio == f then g c else c) })

/-- A seal context is free at the folio's slice port (2) or carrel (1). -/
def sealFree (s : State) (f : Nat) : Bool :=
  let b := foBank f
  decide ((s.banks.seals.filter (fun c => codecUnit (foBank c.folio) == codecUnit b)).length < (if isCarrel b then 1 else 2))

/-- Folio and slot number of a SEAL slot, by its address. -/
def sealPlace (ta : Nat) : Nat × Nat := (taFolio ta, ta % 4096 / 256)

/-! ### Presentation -/

/-- The reads of FOLIO folios among the ends of a slot. -/
def slotFolio (s : State) (x : Slot) : Option Nat :=
  match x.src with
  | .bank ta _ => if isFolioClass s (taFolio ta.toNat) then some (taFolio ta.toNat) else none
  | _ => none

/-- A FOLIO read may be presented (R147, R151, R164). -/
def folioOk (s : State) (x : Slot) : Bool :=
  match slotFolio s x with
  | some f => sealOf s f != .sealing && codecUp s (foBank f) && collated s f
  | none => true

/-- A SEAL slot may be presented: its half's codec is powered, and a slot 0 with no context has one free (R165, R151). -/
def sealOk (s : State) (x : Slot) : Bool :=
  match x.kind, x.dst with
  | .seal, .bank ta _ =>
    let p := sealPlace ta.toNat
    !isFolioClass s p.1 || (codecUp s (foBank p.1) && (p.2 != 0 || (sealCtxOf s p.1).isSome || sealFree s p.1))
  | _, _ => true

/-- A COMBINE slot may be presented (R247, R250). -/
def combineOk (s : State) (x : Slot) : Bool :=
  match x.dst with
  | .combining d k n off cidx => cqPresentable s x.id x.ten.toNat d.toNat k.toNat n.toNat off.toNat cidx.toNat x.len
  | _ => true

/-- Room for a write's narrow lines (R154). -/
def mergeOk (s : State) (x : Slot) : Bool := entriesFree s (slotNeeds s x)

/-- A slot of the fabric replaced by its number. -/
def slotMod (s : State) (id : Nat) (f : Slot → Slot) : State :=
  s.onFabric (fun k => { k with slots := k.slots.map (fun x => if x.id == id then f x else x) })

/-- Pins of a slot on the entries of the lines it writes (R154, R155). -/
def pinLines (s : State) (x : Slot) : State :=
  let lines := ((x.bankEnds s).filter (·.2)).flatMap (fun e => linesOf e.1 x.len)
  s.onBanks (fun b => { b with merge := b.merge.map (fun e =>
    if lines.contains e.line && !e.closed && !e.pins.contains x.id then { e with pins := x.id :: e.pins } else e) })

/-- The codec reads ahead: a presented request for the second half of a folio starts the next folio's collation where it is
SEALED, has no entry and an unpinned entry is free (R149). -/
def readAhead (s : State) (x : Slot) : State :=
  match x.src with
  | .bank ta _ =>
    let f := taFolio ta.toNat
    if isFolioClass s f && 32 ≤ taLine ta.toNat % 64 && f % 32 != 31 && isFolioClass s (f + 1) && sealOf s (f + 1) == .sealed
    then startCollation s (f + 1) x else s
  | _ => s

/-- One waiting request: it is presented where every condition holds, and a FOLIO read without a collation starts one. -/
def presentOne (s : State) (id : Nat) : State :=
  match s.fabric.slots.find? (fun x => x.id == id) with
  | none => s
  | some x =>
    if x.stage != .waiting || x.presented || s.now < x.arrive then s
    else
      let s0 := match slotFolio s x with
        | some f => if sealOf s f == .sealing || (collationOf s f).isSome then s else startCollation s f x
        | none => s
      if folioOk s0 x && sealOk s0 x && combineOk s0 x && mergeOk s0 x then
        let s1 := match slotFolio s0 x with | some f => collationMod s0 f (fun e => { e with used := s0.now }) | none => s0
        let s2 := slotMod s1 id (fun y => { y with presented := true, reserved := slotNeeds s0 x, reached := s0.now })
        readAhead (pinLines s2 x) x
      else s0

/-- Waiting requests in the order of their arrival. -/
def waitingIds (s : State) : List Nat :=
  (sortBy (fun a b => a.arrive < b.arrive || (a.arrive == b.arrive && a.id ≤ b.id))
    (s.fabric.slots.filter (fun x => x.stage == .waiting && !x.presented))).map (·.id)

/-- Every waiting request that can be is presented. -/
def presentAll (s : State) : State := (waitingIds s).foldl presentOne s

end Sys2Proof.Machine
end

