-- ==== Sys2Proof/Machine/Array.lean ====
section
/-! DEFINITION. What a granted slot does in its array cycles (R67, R73, R155): reads and writes of lines in the order of their
cycles, the flushes of the merge buffer among them (R88), sealing (R165, R166), elements of SCATTER (R214). -/

namespace Sys2Proof.Machine

open Sys2Proof

/-! ### Seals (R165, R166) -/

/-- The lines of a SEAL slot as they are stored: data, CRC in check bytes 0-1, zeros in 2-7 (R166). -/
def sealRow (data : List Byte) (i : Nat) : List Byte :=
  let l := (data.drop (64 * i)).take 64
  l ++ leBytes 2 (crc16 l) ++ List.replicate 6 0

/-- A SEAL slot in its bank hold: the table of R165 below its first two rows, and what a slot that is taken writes (R166, R167). Its
grant has opened a context for slot 0; one that is gone by now was released. -/
def sealTake (s : State) (c ta : Nat) (data : List Byte) : State × Word :=
  let f := (sealPlace ta).1
  let n := (sealPlace ta).2
  let crcs := (List.range 4).map (fun i => crc16 ((data.drop (64 * i)).take 64))
  let taken := fun (s : State) =>
    let s1 := (List.range 4).foldl (fun s i => putRow s (taLine ta + i) (sealRow data i)) s
    sealMod s1 f (fun k => { k with next := n + 1, crcs := crcs, parity := if n = 15 then some 0 else none })
  match sealCtxOf s f with
  | none => (s, stWord Code.sealFail 3)
  | some k =>
    if k.ctx != c then (s, stWord Code.sealFail 4)
    else if n = k.next then (taken s, stWord Code.done)
    else if n + 1 = k.next then
      if crcs == k.crcs then (s, stWord Code.done) else (s, stWord Code.sealFail 5)
    else (s, stWord Code.sealFail 3)

/-- The grant of slot 0 of a folio with no context opens one: the folio is SEALING (R164, R165). -/
def openSeal (s : State) (c ta : Nat) : State :=
  let f := (sealPlace ta).1
  if (sealPlace ta).2 != 0 || (sealCtxOf s f).isSome then s
  else
    let s1 := setSeal (dropCollations s (· == f)) f .sealing
    let s2 := s1.onBanks (fun b => { b with seals := b.seals ++ [⟨c, f, 0, [], none⟩] })
    ctxMod s2 (BitVec.ofNat 18 c) (fun x => { x with sealedFolios := if x.sealedFolios.contains f then x.sealedFolios else x.sealedFolios ++ [f] })

/-! ### Elements of SCATTER (R214) -/

/-- The contexts whose SCATTERs go on: those with an element outstanding, or in the midst of an instruction (R214). -/
def scattering (s : State) : List CtxId :=
  (s.fabric.slots.filterMap (fun x => if x.kind == .scatterElem then x.ctx else none)
   ++ ((allCtxs s).filter (fun e => (e.2.st == .running || e.2.st == .halted) && (0 < e.2.prog.elems || 0 < e.2.prog.bytes))).map
        (·.1)).eraseDups

/-- What a context's elements have written, kept while its SCATTERs go on or those of a context that it went on together
with; `live` are the contexts that go on, `next` those that go on from now (R214, log 49). -/
def keepScattered (live next : List CtxId) (c : CtxId) (l : List Scattered) : List Scattered :=
  (l.map (fun r => { r with others := r.others.filter live.contains
    ++ (if live.contains c then next.filter (fun d => d != c && !r.others.contains d) else []) })).filter
    (fun r => live.contains c || !r.others.isEmpty)

/-- An element of context c is issued or granted: the marks that no SCATTER in progress needs are dropped. -/
def pruneScattered (s : State) (c : CtxId) : State :=
  let live := scattering s
  let next := if live.contains c then live else c :: live
  ((allCtxs s).filter (fun e => !e.2.scattered.isEmpty)).foldl (fun s e =>
    ctxMod s e.1 (fun x => { x with scattered := keepScattered live next e.1 x.scattered })) s

/-- The bytes that an element of context c writes in one line: each byte that overlaps an element of the same or of a concurrent
SCATTER ends with the value of one of them, free which (R214, log 49). -/
def mixScattered (s : State) (c : CtxId) (ta : Nat) (data : List Byte) : State × List Byte :=
  let marks := (allCtxs s).flatMap (fun e => e.2.scattered.filter (fun r => e.1 == c || r.others.contains c))
  let hit := (List.range data.length).map (fun i => marks.any (fun r => r.ta ≤ ta + i && ta + i < r.ta + r.len))
  if !hit.any id then (s, data)
  else
    let old := ((linesOf ta data.length).flatMap (fun pl => (readLine s pl).data)).drop (ta % 64)
    ({ s with draws := s.draws + data.length },
     (List.range data.length).map (fun i =>
       if hit.getD i false && Config.pick (s.draws + i) 2 == 0 then old.getD i 0 else data.getD i 0))

/-- A line of an element of a SCATTER written. -/
def writeElem (s : State) (c : CtxId) (pl ta : Nat) (data : List Byte) (merged : Bool) : State :=
  let s1 := pruneScattered s c
  let r := mixScattered s1 c ta data
  let m := lineEnables ta r.2 pl
  ctxMod (writeLine r.1 pl m.1 m.2 merged) c (fun x =>
    { x with scattered := x.scattered ++ [⟨ta, data.length, (scattering s1).filter (· != c)⟩] })

/-! ### Array cycles -/

/-- A slot's requests for its array taken back: its array cycles and bank holds to come. -/
def dropAccs (s : State) (id : Nat) : State :=
  s.onFabric (fun f => { f with accs := f.accs.filter (fun a => a.slot != id) })

/-- A transfer that is lost: it makes no array access any more, its bank holds are free, its positions pass empty (R103, R115), and a
merge entry that it alone was to fill is free again. -/
def dropBooked (s : State) (id : Nat) : State :=
  ((dropAccs s id).onFabric (fun f => { f with
    holds := f.holds.filter (fun h => h.slot != id),
    booked := f.booked.map (fun b => if b.slot == id then { b with slot := 0 } else b) })).onBanks
    (fun b => { b with merge := b.merge.filter (fun e => !(e.mask.all (!·) && e.pins == [id])) })

/-- LATE of a status word kept in another (R86). -/
def keepLate (old new : Word) : Word := setField new 9 1 (field old 9 1)

/-- The last line of a slot's source has been read: its findings are recorded, and it has its data, with CORRECTED where a line was
corrected (R146), or fails with UNCORRECTABLE, the place and kind of the first failing line and no data, and writes nothing (R145).
Corrections of a FOLIO slot are counted by its collation (R172). -/
def readsDone (s : State) (x : Slot) : State :=
  match x.src with
  | .bank ta _ =>
    let ls := sortBy (fun a b => a.line ≤ b.line) x.reads
    let r := readOver s ta.toNat x.len x.ident (slotTask s x) ls
    let s1 := slotMod r.1 x.id (fun y => { y with status := keepLate y.status r.2.status, data := r.2.data, reads := [] })
    if stCode r.2.status == Code.done then s1
    else (dropAccs s1 x.id).onRemote (fun k => { k with outMsgs := k.outMsgs.filter (fun o => !o.slots.contains x.id) })
  | _ => s

/-- A line read for a slot. -/
def readAcc (s : State) (x : Slot) (a : Acc) : State :=
  let y := { x with reads := x.reads ++ [readLine s a.line] }
  let s1 := slotMod s x.id (fun z => { z with reads := y.reads })
  if s.fabric.accs.any (fun b => b.slot == x.id && !b.write) then s1 else readsDone s1 y

/-- A line written for a slot. A SEAL slot is taken, or not, with its first line. -/
def writeAcc (s : State) (x : Slot) (a : Acc) : State :=
  match x.kind, x.ctx with
  | .seal, c =>
    let r := sealTake s (match c with | some c => c.toNat | none => 2 ^ 18) a.ref x.data
    slotMod (dropAccs r.1 x.id) x.id (fun y => { y with status := if stCode r.2 == Code.done then y.status else keepLate y.status r.2 })
  | .scatterElem, some c =>
    let first := max a.ref (a.line * 64)
    writeElem s c a.line first ((x.data.drop (first - a.ref)).take (64 * (a.line + 1) - first)) a.merged
  | _, _ =>
    let m := lineEnables a.ref x.data a.line
    writeLine s a.line m.1 m.2 a.merged

/-- One array access carried out, where it has not been taken back. -/
def applyAcc (s : State) (a : Acc) : State :=
  let s1 := s.onFabric (fun f => { f with accs := f.accs.erase a })
  if !s.fabric.accs.contains a then s
  else if a.slot = 0 then
    match s.banks.merge.find? (fun e => e.id == a.ref) with
    | some e => presentAll (flushEntry s1 e)
    | none => s1
  else
    match s.fabric.slots.find? (fun x => x.id == a.slot) with
    | some x => if a.write then writeAcc s1 x a else readAcc s1 x a
    | none => s1

/-- The order of array cycles: by cycle, within one the reads first. -/
def accBefore (a b : Acc) : Bool := a.cycle < b.cycle || (a.cycle == b.cycle && (!a.write || b.write))

/-- The array accesses of the cycles before t, in order. -/
def accsBefore (s : State) (t : Nat) : List Acc := sortBy accBefore (s.fabric.accs.filter (fun a => a.cycle < t))

/-- The flush of an entry claims its cycle pair (R88, R89, R154). -/
def startFlush (s : State) (e : MergeEntry) (t : Nat) : State :=
  (mergeMod s e.id (fun k => { k with closed := true })).onFabric (fun f => { f with accs := f.accs ++ [⟨t + 1, 0, e.line, true, false, e.id⟩] })

end Sys2Proof.Machine
end

