-- ==== Sys2Proof/Machine/Clock.lean ====
section
/-! DEFINITION. The passing of cycles (log 1), the counters that count cycles, the regulator (R119-R128), squalls
(R129-R132), bookings and their crossing (R98, R112). -/

namespace Sys2Proof.Machine

open Sys2Proof

/-! ### The regulator (R119-R128) -/

/-- Slots counted in USED of a master (R121, R122). -/
def usedOf (s : State) (ident : Nat) : Nat := rf s (ident / 4096) (.regUsed (ident % 4096)) 0 17

/-- BUDGET as written. -/
def budgetReg (s : State) (ident : Nat) : Nat := rf s (ident / 4096) (.regBudget (ident % 4096)) 0 16

/-- BUDGET in force in this window (R120). -/
def budgetOf (s : State) (ident : Nat) : Nat := SMap.get s.fabric.budgets ident 0xFFFF

/-- Slots counted for a master in this cycle: they demote it from the next cycle on (R123). -/
def usedNow (s : State) (ident : Nat) : Nat := if s.fabric.usedCc = s.now then SMap.get s.fabric.usedIn ident 0 else 0

/-- USED has exceeded BUDGET before this cycle: the master is demoted (R123). A decision for a position of the next window sees the
cleared state and the grants already counted for that window (R119, R125). -/
def demoted (s : State) (ident : Nat) (nextWindow : Bool) : Bool :=
  let b := if nextWindow then budgetReg s ident else budgetOf s ident
  let u := if nextWindow then SMap.get s.fabric.usedNext ident 0 else usedOf s ident
  b != 0xFFFF && b < u - usedNow s ident

/-- The enabled entries of a table of guests: key (32 x die + entry number), identity and budget (R127). -/
def guestsIn (m : SMap (Word × Word)) : List (Nat × Nat × Nat) :=
  m.filterMap (fun e => if bit e.2.1 31 then some (e.1, field e.2.1 12 3 * 4096 + field e.2.1 0 12, field e.2.2 0 16) else none)

/-- The guest entries in force (R128). -/
def guestEntries (s : State) : List (Nat × Nat × Nat) := guestsIn s.fabric.guests

/-- The guest entries as they stand after the next window edge: a write comes into force at the second edge after it (R128). -/
def guestsAfterEdge (s : State) : SMap (Word × Word) :=
  (s.fabric.guestPending.filter (fun g => g.edges ≤ 1)).foldl (fun m g => SMap.set m g.key (g.idw, g.limw)) s.fabric.guests

/-- The guest of an entry in force has passed its BUDGET in this window (R127, R128). -/
def guestOver (s : State) (e : Nat × Nat × Nat) : Bool := e.2.2 != 0xFFFF && e.2.2 < SMap.get s.fabric.guestCount e.1 0

/-- A guest is demoted on a die: its count exceeds the budget in force (R128). -/
def guestDemoted (s : State) (d ident : Nat) : Bool := (guestEntries s).any (fun e => e.1 / 32 == d && e.2.1 == ident && guestOver s e)

/-- USED has exceeded BUDGET, if only in this cycle: the master is demoted in the next (R123). -/
def passedBudget (s : State) (ident : Nat) : Bool := budgetOf s ident != 0xFFFF && budgetOf s ident < usedOf s ident

/-- The masters over budget, home or guest, each once (R136). -/
def demotedMasters (s : State) : List Nat :=
  (((s.regs.filterMap (fun e => match keyReg s e.1 with
      | some (d, .regUsed x) => if passedBudget s (identOf d x) then some (identOf d x) else none
      | _ => none)))
    ++ ((guestEntries s).filter (fun e => guestDemoted s (e.1 / 32) e.2.1)).map (·.2.1)).eraseDups

/-- The master has passed a budget, at home or as a guest of some die (R136). -/
def demotedNow (s : State) (ident : Nat) : Bool :=
  passedBudget s ident || (guestEntries s).any (fun e => e.2.1 == ident && guestDemoted s (e.1 / 32) ident)

/-- DEMOTE_WIN counts a window as the master is first demoted in it (R136). -/
def noteDemotion (before after : State) (ident : Nat) : State :=
  if demotedNow after ident && !demotedNow before ident then ctrAdd after (ident / 4096) (.masterCounter (ident % 4096) 5 false) 1
  else after

/-- One slot counted in USED (R122); within its cycle it demotes nobody (R123). -/
def countUsed (s : State) (ident : Nat) (nextWindow : Bool) : State :=
  let s0 := s.onFabric (fun f => { f with
    usedCc := s.now, usedIn := SMap.upd (if f.usedCc = s.now then f.usedIn else []) ident 0 (· + 1) })
  if nextWindow then s0.onFabric (fun f => { f with usedNext := SMap.upd f.usedNext ident 0 (· + 1) })
  else noteDemotion s0 (regSet s0 (ident / 4096) (.regUsed (ident % 4096)) (word (min (usedOf s ident + 1) 0x1FFFF))) ident

/-! ### Counters that count cycles -/

/-- The rank of an owner port (R73). -/
def portRank : OwnerPort → Nat
  | .ra => 0 | .rb => 1 | .w => 2

/-- Bank and lines of an own-carrel access. -/
def carrelPlace (s : State) (x : Slot) : Option (Nat × Nat) :=
  match (x.bankEnds s).head? with
  | some e => some (taPkgBank e.1, (linesOf e.1 x.len).length)
  | none => none

/-- An owner access granted in cycle c would meet the visitor block (R73, R74). -/
def meetsVisitors (b n c : Nat) : Bool := (List.range n).any (fun i => inVisitorBlock b (c + 1 + i))

/-- A hold of an owner access of another port than x's (R74). -/
def holdOfOther (s : State) (x : Slot) (h : Hold) : Bool :=
  s.fabric.slots.any (fun y => y.id == h.slot && y.ident == x.ident && y.port != x.port && y.ownCarrel s)

/-- An owner access granted in cycle c would meet a hold of another owner port, or another owner port that ranks above it requests the
bank (R73, R74). Waits on other holds of the bank, its own port's among them, are not of this kind. -/
def meetsOwners (s : State) (x : Slot) (b n c : Nat) : Bool :=
  s.fabric.holds.any (fun h => h.bank == b && h.first ≤ c + n && c + 1 ≤ h.last && holdOfOther s x h)
    || s.fabric.slots.any (fun y => y.id != x.id && y.stage == .waiting && y.presented && y.ownCarrel s
        && y.ident == x.ident && portRank y.port < portRank x.port
        && (match carrelPlace s y with | some p => p.1 == b | none => false))

/-- Waiting cycles of the owner ports (R74). -/
def carrelWaits (s : State) (dt : Nat) : State :=
  (s.fabric.slots.filter (fun x => x.stage == .waiting && x.presented && x.ownCarrel s)).foldl (fun s x =>
    match carrelPlace s x with
    | none => s
    | some (b, n) =>
      let cs := (List.range dt).map (· + s.now)
      let v := (cs.filter (meetsVisitors b n)).length
      let o := (cs.filter (fun c => !meetsVisitors b n c && meetsOwners s x b n c)).length
      ctrAdd (ctrAdd s (pbDie b) (.carrelCounter (carrelCore b) 1 false) v) (pbDie b) (.carrelCounter (carrelCore b) 0 false) o) s

/-- Positions of each class that pass on a die: EMPTY_c of a segment is this count less MOVED_c (R135). It stands at the die
counter indices 3-5, which no software reads. -/
def countPassed (s : State) (dt : Nat) : State :=
  let ps := (List.range ((s.now + dt) / 2 - s.now / 2)).map (· + s.now / 2)
  (List.range s.dies).foldl (fun s d => (List.range 3).foldl (fun s c =>
    ctrAdd s d (.dieCounter (3 + c) false) (ps.filter (fun p => posClass p == c)).length) s) s

/-- What `dt` cycles add to the counters that count cycles: WAIT_CC, DEMOTE_CC, the carrel waits, MRG_WAIT_CC, CQ_HELD_CC
(R136, R137, R163, R259). That the waits at the carrel switch count in WAIT_CC is the model's choice (R136; DESIGN CHOICE, log 43). -/
def countCycles (s : State) (dt : Nat) : State :=
  if dt = 0 then s else
  let waiting := s.fabric.slots.filter (fun x => x.stage == .waiting)
  let planned := s.fabric.slots.filter (fun x => x.stage == .planned)
  let masters := ((waiting.filter (·.presented) ++ planned).map (·.ident)).eraseDups
  let s1 := masters.foldl (fun s i => if assigned (i % 4096) then ctrAdd s (i / 4096) (.masterCounter (i % 4096) 4 false) dt else s) s
  let s2 := (demotedMasters s).foldl (fun s i =>
    let first := if demoted s i false || (guestEntries s).any (fun e => e.2.1 == i && guestDemoted s (e.1 / 32) i) then 0 else 1
    ctrAdd s (i / 4096) (.masterCounter (i % 4096) 6 false) (dt - first)) s1
  let lacking := ((waiting.filter (fun x => !x.presented && !mergeOk s x)).flatMap (fun x =>
    (slotNeeds s x).map (fun pl => lnBank pl / 512))).eraseDups
  let s3 := lacking.foldl (fun s c => clusterCount s (c / 16) (c % 16) 5 dt) s2
  let held := ((waiting.filter (fun x => !x.presented && !combineOk s x)).filterMap (fun x => match x.dst with
    | .combining d k _ _ _ => some (d.toNat * 16 + k.toNat) | _ => none)).eraseDups
  let s4 := held.foldl (fun s c => clusterCount s (c / 16) (c % 16) 11 dt) s3
  countPassed (carrelWaits s4 dt) dt

/-! ### Signal lanes (R116) -/

/-- The signal lanes from a hall or a hub to a hall or a hub, by the routes of data: mesh links within a die, service spokes to and from
its own hub, ring spokes and the edges of the shorter direction between dies (R20, R23, R25). -/
def tokenPath (n d : Nat) (a : Option Nat) (e : Nat) (b : Option Nat) : List Nat :=
  if d == e then
    match a, b with
    | some x, some y => meshLinks d x y
    | some x, none => [segOf d x 5 0 1]
    | none, some y => [segOf d y 5 0 0]
    | none, none => []
  else (match a with | some x => [segOf d x 4 0 1] | none => []) ++ ringLanes n d e 0
    ++ (match b with | some y => [segOf e y 4 0 0] | none => [])

/-- A lane's queue holds fewer than 128 tokens. -/
def laneRoom (ts : List Token) (l : Nat) : Bool := decide ((ts.filter (fun t => t.lane == some l)).length < 128)

/-- The token stands at the end of its path. -/
def Token.arrived (t : Token) : Bool := t.lane.isNone && t.path.isEmpty

/-- A token sets out: it enters its first lane where that has room, else its sender holds it. -/
def enterLane (ts : List Token) (t : Token) : List Token :=
  ts ++ [match t.path with
    | l :: rest => if laneRoom ts l then { t with lane := some l, path := rest } else t
    | [] => t]

/-- One token's turn in a cycle: it leaves its lane for the next one, or for its receiver, where fewer than 2 have left that lane in the
cycle and the next one has room. `left` lists the lanes that tokens have left. -/
def tokenTurn (ts : List Token) (left : List Nat) (t : Token) : List Token × List Nat :=
  let may := (match t.lane with | some l => decide ((left.filter (· == l)).length < 2) | none => !t.path.isEmpty)
    && (match t.path with | l :: _ => laneRoom ts l | [] => true)
  if may then
    (ts.map (fun u => if u.id == t.id then { u with lane := u.path.head?, path := u.path.tail } else u), t.lane.toList ++ left)
  else (ts, left)

/-- One cycle of the lanes: 2 tokens over each, the oldest first. -/
def laneTick (ts : List Token) : List Token :=
  ((sortBy (fun (a b : Token) => a.born < b.born || (a.born == b.born && a.id ≤ b.id)) ts).foldl
    (fun acc t => tokenTurn acc.1 acc.2 t) (ts, [])).1

/-- `dt` cycles of the lanes; the contexts that hold a token for a full lane try again when it has moved (R116). -/
def moveTokens (s : State) (dt : Nat) : State :=
  if s.streams.tokens.all (·.arrived) then s
  else
    let ts := (List.range dt).foldl (fun ts _ => if ts.all (·.arrived) then ts else laneTick ts) s.streams.tokens
    let freed := (s.streams.tokens.filterMap (·.lane)).filter (fun l => !laneRoom s.streams.tokens l && laneRoom ts l)
    let s1 := s.onStreams (fun t => { t with tokens := ts })
    if freed.isEmpty then s1
    else (allCtxs s1).foldl (fun s e =>
      if e.2.wait == .lane && e.2.st == .running && e.2.stop == .no then makeReady s e.1 else s) s1

/-! ### Time (log 1) -/

/-- Booked positions that have been crossed by cycle t leave the books and count in MOVED; those that pass empty count nothing
(R112, R135). -/
def crossBookings (s : State) (t : Nat) : State :=
  let done := s.fabric.booked.filter (fun b => 2 * b.pos + 2 ≤ t && b.slot != 0)
  done.foldl (fun s b => segCount s (segDie b.seg) (b.seg % 65536) b.cls)
    (s.onFabric (fun f => { f with booked := f.booked.filter (fun b => t < 2 * b.pos + 2),
                                   holds := f.holds.filter (fun h => t ≤ h.last) }))

/-- The repairs of hardened registers whose control-clock cycle has passed by cycle t: one copy has taken the majority's value (R318). -/
def repairStrays (s : State) (t : Nat) : State :=
  (s.replicas.strays.filter (fun e => e.2.2 < t)).foldl (fun s e =>
    match keyReg s e.1 with
    | some (d, r) =>
      logEvent (regField (s.onReplicas (fun x => { x with strays := SMap.erase x.strays e.1 })) d .hardenStat 16 16
        (min (rf s d .hardenStat 16 16 + 1) 0xFFFF)) d (ev 0x15 r.code e.2.1.toNat)
    | none => s) s

/-- Cycles pass up to cycle t, in which no array is accessed. -/
def passTo (s0 : State) (t : Nat) : State :=
  let s := repairStrays s0 t
  if t ≤ s.now then s0
  else { crossBookings (countCycles (moveTokens s (t - s.now)) (t - s.now)) t with now := t }

/-- Cycles pass up to cycle t, and the array accesses that fall in them take effect in their order (R67). -/
def runTo (s : State) (t : Nat) : State :=
  passTo ((accsBefore s t).foldl (fun s a => applyAcc (passTo s (a.cycle + 1)) a) s) t

/-- Cycles pass up to cycle t; a request that enters in the next cycle (R216) is presented then. -/
def advanceTo (s : State) (t : Nat) : State :=
  if s.now < t && s.fabric.slots.any (fun x => s.now < x.arrive) then runTo (presentAll (runTo s (s.now + 1))) t
  else runTo s t

/-- The counters of a die copied to its snapshot (R134). -/
def capture (s : State) (d : Nat) : State :=
  let mine := s.fabric.counters.filter (fun e => e.1 / 2 ^ 40 == d)
  let s1 := s.onFabric (fun f => { f with
    snaps := mine.foldl (fun m e => SMap.set m e.1 e.2) (SMap.eraseIf f.snaps (fun k => k / 2 ^ 40 == d)) })
  regField (regSet s1 d .perfSnapFrame (word (frameCount s % 2 ^ 32))) d .perfCtl 3 1 1

/-- The counters of a die set to 0. -/
def clearCounters (s : State) (d : Nat) : State :=
  s.onFabric (fun f => { f with counters := SMap.eraseIf f.counters (fun k => k / 2 ^ 40 == d) })

/-- The snapshots and clears requested in the frame that has ended, the snapshots first (R134). -/
def perfTurn (s : State) : State :=
  let s1 := s.fabric.clearWanted.foldl clearCounters (s.fabric.snapWanted.foldl capture s)
  s1.onFabric (fun f => { f with snapWanted := [], clearWanted := [] })

/-- Frame cc 0 of the next frame: the shared frame count advances (R91), the ring-plan age of every cross-die request that
has not been granted rises (R99), and the requested snapshots and clears are made (R134). -/
def frameStart (s : State) : State :=
  let s1 := advanceTo s (frameEnd s)
  let s2 := s1.onFabric (fun f => { f with slots := f.slots.map (fun x =>
    if x.stage == .waiting && x.presented && x.crossDie s1 then { x with ringAge := min (x.ringAge + 1) 255 } else x) })
  perfTurn { s2 with frame := s.frame + 1 }

/-- One idle cycle: cc and package time move on (log 3, log 12); during a relock package time alone (R371). -/
def idleCycle (s : State) : State :=
  let s1 := if rootStopped s then s else if s.now + 1 = frameEnd s then frameStart s else advanceTo s (s.now + 1)
  { s1 with draws := s1.draws + 1, pkgTime := s1.pkgTime + BitVec.ofNat 64 (Config.packageTimeStep s1.draws) }

/-- An event whose time is cycle t: it comes about where t has come or lies in the current frame (log 1), and no relock stops the
clocks (R371). -/
def atCycle (s : State) (t : Nat) (f : State → State) : State :=
  if !rootStopped s && t < frameEnd s then f (advanceTo s t) else s

/-- The present cycle is frame cc 0: where the spec has a thing happen at frame cc 0, its command acts in no other cycle. -/
def frameCc0 (s : State) : Bool := s.now == 256 * s.frame

/-- A slot by its number and stage. -/
def slotAt (s : State) (id : Nat) (st : Stage) : Option Slot := s.fabric.slots.find? (fun x => x.id == id && x.stage == st)

/-- An event of a granted slot in cycle t, or now where t has passed: the slot as it stands then, with the data and the status that its
array accesses have left. -/
def atSlot (s : State) (x : Slot) (t : Nat) (f : State → Slot → State) : State :=
  atCycle s (max s.now t) (fun u => match slotAt u x.id .granted with | some y => f u y | none => u)

/-- The same in the cycle in which the slot is due. -/
def atDue (s : State) (x : Slot) (f : State → Slot → State) : State := atSlot s x x.due f

/-- The same of an event in a bank: none comes about on a dozing die (R372). -/
def atBank (s : State) (b t : Nat) (f : State → State) : State := if dieStopped s (pbDie b) then s else atCycle s t f

/-! ### Bookings -/

/-- A position of a segment is booked (R98). -/
def isBooked (s : State) (sg pos : Nat) : Bool := s.fabric.booked.any (fun b => b.seg == sg && b.pos == pos)

/-- FREEZE of a segment (R112). -/
def frozen (s : State) (sg : Nat) : Bool := bit (regGet s (segDie sg) (.segCtl (sg % 65536))) 0

/-- Positions booked and not yet crossed: INFLIGHT (R112). -/
def inflight (s : State) (sg : Nat) : Nat := (s.fabric.booked.filter (fun b => b.seg == sg && b.slot != 0)).length

/-- Where the position after the last one decided on a die is kept. -/
def decidedTo (s : State) (d : Nat) : Nat := SMap.get s.fabric.decided d 0

def markDecided (s : State) (d p : Nat) : State :=
  s.onFabric (fun f => { f with decided := SMap.set f.decided d (p + 1) })

/-- The route of a slot booked (R98). -/
def bookRoute (s : State) (x : Slot) (route : List (Nat × Nat)) : State :=
  route.foldl (fun s r =>
    s.onFabric (fun f => { f with booked := f.booked ++ [⟨r.1, r.2, x.id, clsNo x.cls⟩] })) s

/-! ### Squalls (R129-R132) -/

/-- Squall counters: index of SQ_BURST, SQ_ROUTE, SQ_RET, SQ_DUAL, SQ_HAND by cause code 1-5 (R135, R463). -/
def squallIndex (cause : Nat) : Nat := 7 + cause

/-- Segment of a squall record (R130). -/
def squallSeg (w : BitVec 64) : Nat := w.toNat / 2 ^ 32 % 65536

/-- A record enters a die's log: those of one cycle stand in ascending order of segment ID, and a full log discards it, which LOST
counts (R130, R132). -/
def enterSquall (s : State) (d : Nat) (w : BitVec 64) : State :=
  let log := SMap.get s.fabric.squalls d []
  let lost := rf s d .squallCtl 16 8
  let was := SMap.get s.fabric.squallNow d ⟨0, 0, 0, []⟩
  let m : SquallNow := if was.cycle = s.now then was else ⟨s.now, 0, lost, []⟩
  if log.length < 64 then
    let old := log.take (log.length - m.count)
    let fresh := insertBy (fun a b => squallSeg a ≤ squallSeg b) w (log.drop (log.length - m.count))
    s.onFabric (fun k => { k with squalls := SMap.set k.squalls d (old ++ fresh),
                                  squallNow := SMap.set k.squallNow d { m with count := m.count + 1 } })
  else
    let s1 := s.onFabric (fun k => { k with squallNow := SMap.set k.squallNow d { m with dropped := m.dropped ++ [w] } })
    if lost < 255 then regField s1 d .squallCtl 16 8 (lost + 1) else s1

/-- A squall raised for a reserved position: counted, and recorded where it is the segment's first of the frame (R130): of the
position's frame, which the record names (DESIGN CHOICE, log 43). -/
def raiseSquall (s : State) (sg pos cause holder : Nat) : State :=
  let d := segDie sg
  let f := pos / 128
  let s1 := segCount s d (sg % 65536) (squallIndex cause)
  if SMap.find s.fabric.squallSeen (sg * 2 + f % 2) == some f then s1
  else
    let s2 := s1.onFabric (fun k => { k with squallSeen := SMap.set k.squallSeen (sg * 2 + f % 2) f })
    enterSquall s2 d (BitVec.ofNat 64
      (((f - s.frameBase) % 65536) * 2 ^ 48 + (sg % 65536) * 2 ^ 32 + cause * 2 ^ 29 + (pos % 128) * 2 ^ 22 + holder))

/-! ### Requests -/

/-- A new transfer: it takes the next number and arrives now. -/
def newSlot (s : State) (x : Slot) : State :=
  s.onFabric (fun f => { f with nextSlot := f.nextSlot + 1, slots := f.slots ++ [{ x with id := f.nextSlot + 1, arrive := s.now }] })

/-- A new transfer that enters in the next cycle. -/
def newSlotNext (s : State) (x : Slot) : State :=
  s.onFabric (fun f => { f with nextSlot := f.nextSlot + 1, slots := f.slots ++ [{ x with id := f.nextSlot + 1, arrive := s.now + 1 }] })

/-- A transfer before its request: no data, no grant. -/
def blankSlot (ident : Nat) (ten : Nat) (cls : SlotClass) (kind : SlotKind) (src dst : Endp) (len : Nat) : Slot :=
  { id := 0, ident := ident, ten := BitVec.ofNat 4 ten, cls := cls, kind := kind, src := src, dst := dst, len := len, data := [],
    ctx := none, seq := 0, ep := 0, arrive := 0, reached := 0, stage := .waiting, status := 0, faddr := 0, grantCc := 0, due := 0, ringAge := 0,
    port := .ra, write := false, presented := false, reserved := [], resv := false, missed := false,
    abandoned := false, reads := [] }

/-- The window end of a transfer: its handle, offset and whether it is written (R59). -/
def Slot.windowEnd (x : Slot) : Option (Nat × Nat × Bool) :=
  match x.src, x.dst with
  | .store h o, _ => some (h.toNat, o.toNat, false)
  | _, .store h o => some (h.toNat, o.toNat, true)
  | _, _ => none

/-- The ends of a transfer with a window end are of legal types for its kind: a source window wants a read, a destination window a
write, and only one end may be a window (R209). A remote position takes either. -/
def windowTypes (x : Slot) (write : Bool) : Bool :=
  let both := match x.src, x.dst with | .store _ _, .store _ _ => true | _, _ => false
  let remote := match x.src, x.dst with | .remote _ _, _ => true | _, .remote _ _ => true | _, _ => x.cls == .remote
  !both && (if write then remote || x.cls != .read else !(x.cls == .write && (x.kind == .emit || x.kind == .scatterElem)))

/-- The verdict of a window end (R60, R61, R64, R209): its handle, the types that its kind requires, its tenancy, its descriptor. -/
def windowVerdict (s : State) (x : Slot) (h o : Nat) (write : Bool) : Verdict :=
  firstFail [
    checkWindowRange s h o x.len,
    failIf (!windowTypes x write) ⟨Code.badArg, 0, 0, 0, 0⟩,
    checkWindowHandle s x.ten.toNat h o x.len,
    (match heldDescriptor s h o with
     | some w => checkDescriptor s x.ten.toNat h w write
     | none => .pass)]

/-- Where a window transfer goes next: it waits for a descriptor that the translator does not hold (R61); a read of the
memory stack that no check refuses goes to the store port (R103); every other request goes to its arbiter, a transfer
between the store port and the remote engine to the engine (R269). -/
def windowStage (s : State) (x : Slot) : Stage :=
  match x.windowEnd with
  | some (h, o, write) =>
    if (windowVerdict s x h o write).code != 0 then .waiting
    else if (heldDescriptor s h o).isNone then .translate
    else if !write then .storeRead
    else .waiting
  | none => .waiting

/-- A use of a held descriptor makes it the most recent (R61). -/
def useDescriptor (s : State) (x : Slot) : State :=
  match x.windowEnd with
  | none => s
  | some (h, o, _) =>
    let mine := fun (t : Descriptor) => t.die == hDie h && t.entry == hEntry h && t.page == o / catPage s (hDie h) (hEntry h)
    s.onRemote (fun r => { r with translator := r.translator.filter (fun t => !mine t) ++ r.translator.filter mine })

/-- Where a request goes first. A GET's request travels to the engine (R268). -/
def firstStage (s : State) (x : Slot) : Stage :=
  match x.src with | .remote _ _ => .toEngine | _ => windowStage s x

/-- A request enters. -/
def request (s : State) (x : Slot) : State :=
  presentAll (newSlot (useDescriptor s x) { x with stage := firstStage s x })

/-- A request that enters in the next cycle (R216). -/
def requestNext (s : State) (x : Slot) : State := newSlotNext (useDescriptor s x) { x with stage := firstStage s x }

/-- Descriptors that `p` picks leave the translator; transfers that wait for their grant on one of them are translated again
(R61). -/
def dropDescriptors (s : State) (p : Descriptor → Bool) : State :=
  let gone := s.remote.translator.filter p
  let hit : Slot → Bool := fun x => match x.windowEnd with
    | some (h, o, write) => x.stage == .waiting && (write || x.data.isEmpty)
        && gone.any (fun t => t.die == hDie h && t.entry == hEntry h && t.page == o / catPage s (hDie h) (hEntry h))
    | none => false
  (s.onRemote (fun r => { r with translator := r.translator.filter (fun t => !p t) })).onFabric
    (fun f => { f with slots := f.slots.map (fun x => if hit x then { x with stage := .translate, presented := false, reserved := [] } else x) })

end Sys2Proof.Machine
end

