-- ==== Sys2Proof/Machine/Cache.lean ====
section
/-! DEFINITION. Pauses of banks that follow one another (R72, R87), and the carrel cache (R78-R85): its blocks, hits, misses,
fills and write-backs. -/

namespace Sys2Proof.Machine

open Sys2Proof

/-! ### Pauses -/

/-- A pause of a bank begins; a sleeping bank is woken first, and the pauses in progress or waiting go before it (R72, R87, R347). -/
def startPause (s : State) (b : Nat) (k : Pause) : State :=
  match pauseOf s b with
  | none => if asleep s b then startWake s b [k] else setPause s b ⟨k, s.now, []⟩
  | some p => setPause s b { p with behind := p.behind ++ [k] }

/-- A pause is over: the one behind it begins. -/
def nextPause (s : State) (b : Nat) : State :=
  match pauseOf s b with
  | some p => match p.behind with
    | k :: rest => touchBank (setPause s b ⟨k, s.now, rest⟩) b
    | [] => endPause s b
  | none => s

/-- Address of an end, as FADDR records it (R186). -/
def Endp.addr : Endp → BitVec 48
  | .bank ta _ => ta.setWidth 48 | .store _ o => o | .core a => a | .remote _ o => o | .mcast _ o => o
  | .combining _ _ _ o _ => o | _ => 0

/-- An end that has a TA or a window offset, the addresses that FADDR gives (R186). -/
def Endp.hasAddr : Endp → Bool
  | .bank _ _ | .store _ _ | .remote _ _ => true | _ => false

/-- FADDR of a slot whose named end failed: that end's TA or window offset, else the other end's (R186). -/
def endAddr (failed other : Endp) : BitVec 48 := if !failed.hasAddr && other.hasAddr then other.addr else failed.addr

/-! ### Blocks of the cache (R79) -/

/-- Package number of carrel bank 3 of a core. -/
def cacheBank (d core : Nat) : Nat := d * 8192 + core / 32 * 512 + 384 + core % 32 * 4 + 3

/-- Block number of way w of set n of a core's cache; where its 256 bytes stand in carrel bank 3 (DESIGN CHOICE, log 22). -/
def cacheBlk (d core set way : Nat) : Nat := (d * 512 + core) * 512 + set * 8 + way
def blkCore (blk : Nat) : Nat × Nat := (blk / 512 / 512, blk / 512 % 512)
def blkTa (blk : Nat) : Nat := cacheBank (blkCore blk).1 (blkCore blk).2 * 2 ^ 17 + blk % 512 * 256

/-- The tag of the block that a place lies in: by TA, or by catalogue entry and window offset. -/
def cacheTag : Endp → Option CacheTag
  | .bank ta _ => some (.ta (ta.toNat / 256))
  | .store h o => some (.window h (o.toNat / 256))
  | _ => none

/-- Two tags name one block; a window's tag names its entry, whatever the generation. -/
def sameBlock : CacheTag → CacheTag → Bool
  | .ta a, .ta b => a == b
  | .window h a, .window g b => a == b && hDie h.toNat == hDie g.toNat && hEntry h.toNat == hEntry g.toNat
  | _, _ => false

/-- Set of a tag: bits [13:8] of the TA or of the offset. -/
def tagSet : CacheTag → Nat
  | .ta a => a % 64 | .window _ a => a % 64

/-- The block itself as an end of a transfer. -/
def tagEnd : CacheTag → Endp
  | .ta a => .bank (BitVec.ofNat 33 (a * 256)) none
  | .window h a => .store h (BitVec.ofNat 48 (a * 256))

/-- Address of a block, for its event. -/
def tagAddr : CacheTag → Nat
  | .ta a => a * 256 | .window _ a => a * 256

/-- The way that holds a tag. -/
def cacheHit (s : State) (d core : Nat) (t : CacheTag) : Option Nat :=
  ((List.range 8).map (cacheBlk d core (tagSet t))).find? (fun blk => match SMap.find s.banks.cacheWays blk with
    | some w => sameBlock w.tag t | none => false)

/-- Blocks of a core's cache. -/
def cacheBlocks (s : State) (d core : Nat) : List (Nat × CacheWay) :=
  s.banks.cacheWays.filter (fun e => e.1 / 512 == d * 512 + core)

/-- DIRTY of CARREL_CTL counts the dirty blocks held (R78). -/
def countDirty (s : State) (d core : Nat) : State :=
  regField s d (.carrelCtl core) 0 10 ((cacheBlocks s d core).filter (·.2.dirty)).length

/-- A way filled, changed or emptied. -/
def setWay (s : State) (blk : Nat) (w : Option CacheWay) : State :=
  let s1 := s.onBanks (fun b => { b with cacheWays := match w with
    | some v => SMap.set b.cacheWays blk v | none => SMap.erase b.cacheWays blk })
  countDirty s1 (blkCore blk).1 (blkCore blk).2

/-- Node of a tree pseudo-LRU at a depth on the way to leaf w of 8: 0; 1-2; 3-6. -/
def lruNode (w depth : Nat) : Nat := 2 ^ depth - 1 + w / 2 ^ (3 - depth)

/-- Bits of a set's tree after a use of way w: each node on its path points to the other side (R79). -/
def lruUse (bits w : Nat) : Nat :=
  (List.range 3).foldl (fun b k =>
    let n := lruNode w k
    let right := w / 2 ^ (2 - k) % 2 == 1
    if right then b &&& (127 - 2 ^ n) else b ||| 2 ^ n) bits

/-- The way that a set's tree points to. -/
def lruVictim (bits : Nat) : Nat :=
  (List.range 3).foldl (fun w k => 2 * w + (if bits.testBit (2 ^ k - 1 + w) then 1 else 0)) 0

/-- Use of a block noted in its set's tree. -/
def touchBlk (s : State) (blk : Nat) : State :=
  s.onBanks (fun b => { b with cacheLru := SMap.upd b.cacheLru (blk / 8) 0 (fun t => lruUse t (blk % 8)) })

/-- The bytes of a block's lines as stored: under byte parity, whatever class the bank's folios have (DEDUCED, log 22). -/
def cacheRead (s : State) (ta n : Nat) : List LineRead := (linesOf ta n).map (readByteLine s)

/-- Bytes written into a block. -/
def cacheWrite (s : State) (ta : Nat) (data : List Byte) : State :=
  (linesOf ta data.length).foldl (fun s pl =>
    let m := lineEnables ta data pl
    putRow s pl (directRow 0 (seenBytes s pl) m.2 m.1)) s

/-! ### The way of an access through the cache (R80, R83) -/

/-- The target of a plain access. -/
def Slot.target (x : Slot) : Endp :=
  match x.kind with
  | .cacheAcc t => t
  | _ => if x.write then x.dst else x.src

/-- The core of an access. -/
def slotCore (x : Slot) : Nat × Nat := (x.ident / 4096, x.ident % 4096)

/-- A place that plain accesses reach through the cache: a single-port stack bank, or a store window; not a FOLIO folio. -/
def cacheable (s : State) : Endp → Bool
  | .bank ta _ => decide (taBank ta.toNat < 352) && !isFolioClass s (taFolio ta.toNat)
  | .store _ _ => true
  | _ => false

/-- Blocks of a core that a fill or a write-back in progress holds. -/
def blkBusy (s : State) (blk : Nat) : Bool :=
  s.fabric.slots.any (fun x => match x.kind with | .cacheFill b _ => b == blk | .cacheBack b a => b == blk && a != 0 | _ => false)

/-- The same block is on its way in or out for another access. -/
def blockMoving (s : State) (x : Slot) (t : CacheTag) : Bool :=
  s.fabric.slots.any (fun y => y.ident == x.ident && (match y.kind with
    | .cacheFill _ _ => (match cacheTag y.src with | some u => sameBlock u t | none => false)
    | .cacheBack _ a => a != 0 && (match cacheTag y.dst with | some u => sameBlock u t | none => false)
    | _ => false))

/-- The way that a miss takes: an empty one, else the one that the tree points to, else any that no transfer holds. -/
def takeWay (s : State) (d core : Nat) (t : CacheTag) : Option Nat :=
  let ways := ((List.range 8).map (cacheBlk d core (tagSet t))).filter (fun b => !blkBusy s b)
  let victim := cacheBlk d core (tagSet t) (lruVictim (SMap.get s.banks.cacheLru ((d * 512 + core) * 64 + tagSet t) 0))
  match ways.find? (fun b => (SMap.find s.banks.cacheWays b).isNone) with
  | some b => some b
  | none => if ways.contains victim then some victim else ways.head?

/-- A fill requested on the core's port (R83). -/
def requestFill (s : State) (x : Slot) (blk : Nat) (t : CacheTag) : State :=
  request s (blankSlot x.ident x.ten.toNat .read (.cacheFill blk x.id) (tagEnd t) .requester 256)

/-- A write-back of a block's bytes as they stand. -/
def requestBack (s : State) (ident ten blk acc : Nat) (t : CacheTag) : State :=
  request s { blankSlot ident ten .write (.cacheBack blk acc) .requester (tagEnd t) 256 with
    data := (cacheRead s (blkTa blk) 256).flatMap (·.data), write := true }

/-- An access that waits in `cached` goes on: as an uncached one in plain mode, to the carrel switch on a hit, else by a
write-back of a dirty victim and a fill. CAR_HIT or CAR_MISS counts it once (R137). During a drain it stays (R85). -/
def cacheTry (s : State) (id : Nat) : State :=
  match s.fabric.slots.find? (fun x => x.id == id && x.stage == .cached) with
  | none => s
  | some x =>
    let d := (slotCore x).1
    let core := (slotCore x).2
    let st := carrelState s d core
    let t := x.target
    if st == 2 then s
    else if st == 0 || !cacheable s t then slotMod s id (fun y => { y with stage := windowStage s x })
    else match cacheTag t with
      | none => s
      | some tag =>
        match cacheHit s d core tag with
        | some blk =>
          let place := Endp.bank (BitVec.ofNat 33 (blkTa blk + t.addr.toNat % 256)) none
          slotMod s id (fun y => { y with
            kind := .cacheAcc t, stage := .waiting, src := if y.write then .requester else place,
            dst := if y.write then place else .requester })
        | none =>
          let s1 := if x.missed then s else ctrAdd s d (.carrelCounter core 4 false) 1
          let s0 := slotMod s1 id (fun y => { y with missed := true })
          if blockMoving s x tag then s0
          else match takeWay s d core tag with
            | none => s0
            | some blk =>
              match SMap.find s.banks.cacheWays blk with
              | some w =>
                let s1 := setWay s0 blk none
                if w.dirty then requestBack s1 x.ident x.ten.toNat blk id w.tag else requestFill s1 x blk tag
              | none => requestFill s0 x blk tag

/-- Every access of a core that waits for the cache tries again. -/
def cacheRetry (s : State) (d core : Nat) : State :=
  presentAll (((s.fabric.slots.filter (fun x => x.stage == .cached && slotCore x == (d, core))).map (·.id)).foldl cacheTry s)

/-- An access that has lost its block, or that a drain stops, waits for the cache again. -/
def uncache (s : State) (x : Slot) : State :=
  slotMod s x.id (fun y => { y with
    kind := .plain, stage := .cached, presented := false, src := if y.write then .requester else y.target,
    dst := if y.write then y.target else .requester })

/-- The block of an access still stands where the access was sent. -/
def stillHit (s : State) (x : Slot) : Bool :=
  match x.kind, cacheTag x.target with
  | .cacheAcc _, some t =>
    (match cacheHit s (slotCore x).1 (slotCore x).2 t, (x.bankEnds s).head? with
     | some blk, some e => e.1 / 256 == blkTa blk / 256
     | _, _ => false)
  | .cacheAcc _, none => false
  | _, _ => true

/-! ### Entry, exit and end of cache mode (R78, R81, R85) -/

/-- Every tag of a core's cache invalid and 0 (R352). -/
def clearTags (s : State) (d core : Nat) : State :=
  countDirty (s.onBanks (fun b => { b with
    cacheWays := SMap.eraseIf b.cacheWays (fun k => k / 512 == d * 512 + core),
    cacheLru := SMap.eraseIf b.cacheLru (fun k => k / 64 == d * 512 + core) })) d core

/-- A drain whose last dirty block is gone clears the bank (R85). -/
def drainStep (s : State) (d core : Nat) : State :=
  if carrelState s d core == 2 && rf s d (.carrelCtl core) 0 10 == 0
      && !(match pauseOf s (cacheBank d core) with | some p => p.kind == .cacheClear false || p.behind.contains (.cacheClear false) | none => false)
  then startPause s (cacheBank d core) (.cacheClear false) else s

/-- Cache mode ends without write-back: DIRTY enters an event (R85). An entry whose clear still runs ends without effect. -/
def endCache (s : State) (d core : Nat) : State :=
  let dirty := rf s d (.carrelCtl core) 0 10
  let s1 := if carrelState s d core == 0 then s else logEvent (clearTags s d core) d (ev 0x08 core dirty)
  if rf s d (.carrelCtl core) 16 4 == 0 then s1
  else regField (regField s1 d (.carrelCtl core) 18 2 0) d (.carrelCtl core) 16 1 0

/-- The drain begins: accesses on their way to the switch are held, and every dirty block is written back (R85). -/
def startDrain (s : State) (d core : Nat) : State :=
  let s1 := regField (regField (regField s d (.carrelCtl core) 18 2 2) d (.carrelCtl core) 16 1 0) d (.carrelCtl core) 24 8 Code.done
  let mine := s1.fabric.slots.filter (fun x => slotCore x == (d, core) && x.stage == .waiting
    && (match x.kind with | .cacheAcc _ => true | _ => false))
  let s2 := mine.foldl uncache s1
  let s3 := ((cacheBlocks s2 d core).filter (·.2.dirty)).foldl (fun s e =>
    requestBack s (identOf d core) (coreTag s d core) e.1 0 e.2.tag) s2
  drainStep s3 d core

/-- The writer of CARREL_CTL is the owning core or the window of the bank's tenancy (R78). -/
def carrelWriterOk (s : State) (d core : Nat) : CarrelWriter → Bool
  | .core c => c.toNat == core
  | .window w => w.toNat == ownTen (ownOf s (cacheBank d core))

/-- A write of MODE (R78, R81, R85). An entry that is clearing its bank takes no write of MODE 0 (DESIGN CHOICE, log 23). -/
def carrelCtlWrite (s : State) (d core : Nat) (writer : CarrelWriter) (val : Word) : State :=
  let st := carrelState s d core
  let old := rf s d (.carrelCtl core) 16 1
  let mode := field val 16 1
  let last := fun (s : State) (c : Nat) => regField s d (.carrelCtl core) 24 8 c
  let b := cacheBank d core
  let own := regGet s d (.bankOwn (pbBank b))
  if !carrelWriterOk s d core writer then last s Code.denied
  else if st == 2 then last s Code.state
  else if mode == old then last s Code.done
  else if mode == 1 then
    if field own 19 3 != 1 || field own 16 3 != d || field own 0 12 != core || bankCovered s b then last s Code.state
    else if coreFenced s d core || retired s b then last s Code.fenced
    else startPause (regField s d (.carrelCtl core) 16 1 1) b (.cacheClear true)
  else if st == 1 then startDrain s d core
  else last s Code.state

/-- CARREL_CACHE_ENTER: a write of MODE = 1. -/
def execCarrelCacheEnter (d : Die) (core : CoreNo) (writer : CarrelWriter) (val : Word) (s : State) :
    Host.Outcome State Fault Refusal :=
  act s [d.toNat]
    (if bit val 16 && regUp s d.toNat (.carrelCtl core.toNat) then presentAll (carrelCtlWrite s d.toNat core.toNat writer val) else s)

/-- CARREL_CACHE_EXIT: a write of MODE = 0. -/
def execCarrelCacheExit (d : Die) (core : CoreNo) (writer : CarrelWriter) (val : Word) (s : State) :
    Host.Outcome State Fault Refusal :=
  act s [d.toNat]
    (if !bit val 16 && regUp s d.toNat (.carrelCtl core.toNat) then presentAll (carrelCtlWrite s d.toNat core.toNat writer val) else s)

/-- CARREL_CLEAR_END: 16 cc after its beginning the clear of carrel bank 3 ends, and cache mode begins or is over (R72, R81,
R85). -/
def execCarrelClearEnd (d : Die) (core : CoreNo) (s : State) : Host.Outcome State Fault Refusal :=
  let b := cacheBank d.toNat core.toNat
  act s [d.toNat]
    (match pauseOf s b with
     | some ⟨.cacheClear entering, start, _⟩ =>
       atBank s b (max s.now (start + 16)) (fun s =>
         let s1 := touchBank (nextPause (clearTags (clearValid s b) d.toNat core.toNat) b) b
         let cache := entering && bit (regGet s1 d.toNat (.carrelCtl core.toNat)) 16
         let s2 := regField s1 d.toNat (.carrelCtl core.toNat) 18 2 (if cache then 1 else 0)
         let s3 := if cache then regField s2 d.toNat (.carrelCtl core.toNat) 24 8 Code.done else s2
         cacheRetry s3 d.toNat core.toNat)
     | _ => s)

/-! ### Fills and write-backs delivered (R83, R84) -/

/-- A fill delivered: its block stands in the cache and the accesses that wait go on. A refused fill returns its status to the
core. A cache that is no longer in use takes no block. -/
def fillDone (s : State) (x : Slot) (blk acc : Nat) : State :=
  let d := (slotCore x).1
  let core := (slotCore x).2
  let s0 := dropSlot s x.id
  if stCode x.status == Code.done then
    match cacheTag x.src with
    | some t =>
      if carrelState s d core == 1 then
        cacheRetry (touchBlk (setWay (cacheWrite s0 (blkTa blk) (fit 256 x.data)) blk (some ⟨t, false⟩)) blk) d core
      else cacheRetry s0 d core
    | none => s0
  else
    match s.fabric.slots.find? (fun y => y.id == acc) with
    | some y => cacheRetry (dropSlot ((countLate s0 y.ident (setField x.status 9 1 1)).emitOut (.access y.ident (setField x.status 9 1 1) [])) acc) d core
    | none => cacheRetry s0 d core

/-- The fill of an access that a missed block waits for is lost: it is no status to anyone, and the access is lost with it (R103; log 32). -/
def fillLost (s : State) (x : Slot) (acc : Nat) : State :=
  cacheRetry (dropSlot (dropSlot s x.id) acc) (slotCore x).1 (slotCore x).2

/-- A write-back is over: its block is no longer dirty, or the fill of the access that waits follows (R84, R85). -/
def backOver (s : State) (x : Slot) (blk acc : Nat) : State :=
  let d := (slotCore x).1
  let core := (slotCore x).2
  let s1 := dropSlot s x.id
  if acc == 0 then
    drainStep (match SMap.find s1.banks.cacheWays blk with
      | some w => setWay s1 blk (some { w with dirty := false }) | none => s1) d core
  else
    match s1.fabric.slots.find? (fun y => y.id == acc && y.stage == .cached) with
    | some y =>
      (match cacheTag y.target with
       | some t => if carrelState s1 d core == 1 then requestFill s1 y blk t else cacheRetry s1 d core
       | none => cacheRetry s1 d core)
    | none => cacheRetry s1 d core

/-- A write-back delivered: a refused one discards its block with an event (R84). -/
def backDone (s : State) (x : Slot) (blk acc : Nat) : State :=
  backOver (if stCode x.status == Code.done then s
    else logEvent s (slotCore x).1 { ev 0x08 (slotCore x).2 x.status.toNat with
      addr := x.dst.addr, ten := some x.ten, master := BitVec.ofNat 16 x.ident }) x blk acc

/-! ### Plain and host accesses (R36, R64, R80, R325, R389) -/

/-- The end that a plain access names. -/
def accessEnd : AccessTarget → Endp
  | .ta a => .bank a none
  | .window h off => .store h off

/-- The target of an access lies on a die that is present. -/
def accessValid (s : State) : AccessTarget → Bool
  | .ta a => s.present (taDie a.toNat)
  | .window _ _ => true

/-- PLAIN_ACCESS_REQUEST: a load or a store of 1 to 256 bytes in one block. An invalid TA returns BAD_ARG, a fenced core
FENCED; a cached place goes by the cache; everything else is requested at its arbiter or at the carrel switch. A store with fewer bytes
than its length is one whose core does not give its data (R114; DESIGN CHOICE, log 50). -/
def execPlainAccessRequest (d : Die) (core : CoreNo) (port : OwnerPort) (write : Bool) (target : AccessTarget) (len : Nat)
    (data : List Byte) (s : State) : Host.Outcome State Fault Refusal :=
  act s [d.toNat]
    (let ident := identOf d.toNat core.toNat
     let e := accessEnd target
     let x := { blankSlot ident (coreTag s d.toNat core.toNat) (if write then .write else .read) .plain
       (if write then .requester else e) (if write then e else .requester) len with
       port := port, write := write, data := if write then data.take len else [] }
     if len = 0 || 256 < e.addr.toNat % 256 + len then s
     else if !accessValid s target then s.emitOut (.access ident (stWord Code.badArg) [])
     else if coreFenced s d.toNat core.toNat then s.emitOut (.access ident (stWord Code.fenced) [])
     else if carrelState s d.toNat core.toNat != 0 && cacheable s e then
       presentAll (cacheTry (newSlot s { x with stage := .cached }) (s.fabric.nextSlot + 1))
     else request s x)

/-- HOST_WINDOW_ACCESS: an access through host window t, of the host port or of a steward core whose STEW_TEN is t (R325); it
carries tenancy t. -/
def execHostWindowAccess (d : Die) (via : HostVia) (win : Win) (write : Bool) (ta : TA) (len : Nat) (data : List Byte)
    (s : State) : Host.Outcome State Fault Refusal :=
  act s [d.toNat]
    (let m := match via with | .host => 0x830 | .steward _ => 0x820
     let mine := match via with | .host => true | .steward i => rf s d.toNat (.stewTen i.toNat) 0 4 == win.toNat
     let ident := identOf d.toNat m
     let e := Endp.bank ta none
     if len = 0 || 256 < ta.toNat % 256 + len || !mine then s
     else if !s.present (taDie ta.toNat) then s.emitOut (.access ident (stWord Code.badArg) [])
     else request s { blankSlot ident win.toNat (if write then .write else .read) .host
       (if write then .requester else e) (if write then e else .requester) len with
       write := write, data := if write then fit len data else [] })

end Sys2Proof.Machine
end

