-- ==== Sys2Proof/Machine/Crypto.lean ====
section
/-! DEFINITION. The algorithms of the standards that the manual names and does not restate (log 10): SHA-384 (FIPS 180-4), HMAC and
HKDF (RFC 2104, RFC 5869), AES-256 (FIPS 197), GCM (SP 800-38D), AES key unwrap (RFC 3394), and ECDH and ECDSA over P-384 (FIPS 186,
SP 800-56A). Byte strings of these standards have their most significant byte first (R334). PRESUMED: the algorithms are the
standards', taken from outside the manual. -/

namespace Sys2Proof.Machine

open Sys2Proof

/-- `n` bytes of a number, most significant byte first. -/
def beBytes (n v : Nat) : List Byte := (leBytes n v).reverse

/-- A list cut into pieces of n, of which there are `count`. -/
def pieces {α : Type} (n count : Nat) (l : List α) : List (List α) := (List.range count).map (fun i => (l.drop (n * i)).take n)

/-! ### SHA-384 (FIPS 180-4), HMAC (RFC 2104), HKDF (RFC 5869) -/

/-- The constants of the 80 rounds. -/
def shaK : List Nat :=
  [0x428A2F98D728AE22, 0x7137449123EF65CD, 0xB5C0FBCFEC4D3B2F, 0xE9B5DBA58189DBBC,
   0x3956C25BF348B538, 0x59F111F1B605D019, 0x923F82A4AF194F9B, 0xAB1C5ED5DA6D8118,
   0xD807AA98A3030242, 0x12835B0145706FBE, 0x243185BE4EE4B28C, 0x550C7DC3D5FFB4E2,
   0x72BE5D74F27B896F, 0x80DEB1FE3B1696B1, 0x9BDC06A725C71235, 0xC19BF174CF692694,
   0xE49B69C19EF14AD2, 0xEFBE4786384F25E3, 0x0FC19DC68B8CD5B5, 0x240CA1CC77AC9C65] ++
  [0x2DE92C6F592B0275, 0x4A7484AA6EA6E483, 0x5CB0A9DCBD41FBD4, 0x76F988DA831153B5,
   0x983E5152EE66DFAB, 0xA831C66D2DB43210, 0xB00327C898FB213F, 0xBF597FC7BEEF0EE4,
   0xC6E00BF33DA88FC2, 0xD5A79147930AA725, 0x06CA6351E003826F, 0x142929670A0E6E70,
   0x27B70A8546D22FFC, 0x2E1B21385C26C926, 0x4D2C6DFC5AC42AED, 0x53380D139D95B3DF,
   0x650A73548BAF63DE, 0x766A0ABB3C77B2A8, 0x81C2C92E47EDAEE6, 0x92722C851482353B] ++
  [0xA2BFE8A14CF10364, 0xA81A664BBC423001, 0xC24B8B70D0F89791, 0xC76C51A30654BE30,
   0xD192E819D6EF5218, 0xD69906245565A910, 0xF40E35855771202A, 0x106AA07032BBD1B8,
   0x19A4C116B8D2D0C8, 0x1E376C085141AB53, 0x2748774CDF8EEB99, 0x34B0BCB5E19B48A8,
   0x391C0CB3C5C95A63, 0x4ED8AA4AE3418ACB, 0x5B9CCA4F7763E373, 0x682E6FF3D6B2B8A3,
   0x748F82EE5DEFB2FC, 0x78A5636F43172F60, 0x84C87814A1F0AB72, 0x8CC702081A6439EC] ++
  [0x90BEFFFA23631E28, 0xA4506CEBDE82BDE9, 0xBEF9A3F7B2C67915, 0xC67178F2E372532B,
   0xCA273ECEEA26619C, 0xD186B8C721C0C207, 0xEADA7DD6CDE0EB1E, 0xF57D4F7FEE6ED178,
   0x06F067AA72176FBA, 0x0A637DC5A2C898A6, 0x113F9804BEF90DAE, 0x1B710B35131C471B,
   0x28DB77F523047D84, 0x32CAAB7B40C72493, 0x3C9EBE0A15C9BEBC, 0x431D67C49C100D4C,
   0x4CC5D4BECB3E42B6, 0x597F299CFC657E2A, 0x5FCB6FAB3AD6FAEC, 0x6C44198C4A475817]

/-- The initial hash value of SHA-384. -/
def shaInit : List Nat :=
  [0xCBBB9D5DC1059ED8, 0x629A292A367CD507, 0x9159015A3070DD17, 0x152FECD8F70E5939,
   0x67332667FFC00B31, 0x8EB44A8768581511, 0xDB0C2E0D64F98FA7, 0x47B5481DBEFA4FA4]

/-- The state of the compression: the eight working words, and the sixteen words of the message schedule to come. -/
structure Sha where
  v : List (BitVec 64)
  w : List (BitVec 64)

/-- One round. -/
def shaRound (h : Sha) (k : Nat) : Sha :=
  let v := fun (i : Nat) => h.v.getD i 0
  let w := fun (i : Nat) => h.w.getD i 0
  let t1 := v 7 + ((v 4).rotateRight 14 ^^^ (v 4).rotateRight 18 ^^^ (v 4).rotateRight 41)
    + ((v 4 &&& v 5) ^^^ (~~~(v 4) &&& v 6)) + BitVec.ofNat 64 k + w 0
  let t2 := ((v 0).rotateRight 28 ^^^ (v 0).rotateRight 34 ^^^ (v 0).rotateRight 39) + ((v 0 &&& v 1) ^^^ (v 0 &&& v 2) ^^^ (v 1 &&& v 2))
  let next := ((w 14).rotateRight 19 ^^^ (w 14).rotateRight 61 ^^^ (w 14) >>> 6) + w 9
    + ((w 1).rotateRight 1 ^^^ (w 1).rotateRight 8 ^^^ (w 1) >>> 7) + w 0
  ⟨[t1 + t2, v 0, v 1, v 2, v 3 + t1, v 4, v 5, v 6], h.w.drop 1 ++ [next]⟩

/-- A block of 128 bytes. -/
def shaBlock (h : List (BitVec 64)) (block : List Byte) : List (BitVec 64) :=
  let w := (pieces 8 16 block).map (fun b => BitVec.ofNat 64 (beNat b))
  List.zipWith (· + ·) h (shaK.foldl shaRound ⟨h, w⟩).v

/-- SHA-384 of a byte string. -/
def sha384 (m : List Byte) : List Byte :=
  let padded := m ++ [0x80] ++ List.replicate ((239 - m.length % 128) % 128) 0 ++ beBytes 16 (8 * m.length)
  let h := (pieces 128 (padded.length / 128) padded).foldl shaBlock (shaInit.map (BitVec.ofNat 64))
  (h.take 6).flatMap (fun x => beBytes 8 x.toNat)

/-- HMAC-SHA-384. -/
def hmac (key m : List Byte) : List Byte :=
  let k := fit 128 (if 128 < key.length then sha384 key else key)
  sha384 (k.map (· ^^^ 0x5C) ++ sha384 (k.map (· ^^^ 0x36) ++ m))

/-- A 256-bit key as the 32 bytes of its string, which registers and commands hold in rising order (R5, R332). -/
def keyBytes (k : BitVec 256) : List Byte := leBytes 32 k.toNat
def bytesKey (l : List Byte) : BitVec 256 := BitVec.ofNat 256 (leNat (l.take 32))

/-- HKDF-SHA-384 with 32 bytes of output (R331): input keying material, salt, info. -/
def hkdf (ikm salt info : List Byte) : BitVec 256 := bytesKey (hmac (hmac salt ikm) (info ++ [1]))

/-! ### AES-256 (FIPS 197) -/

/-- Multiplication by x in GF(2^8). -/
def xtime (a : Byte) : Byte := (a <<< 1) ^^^ (if a.msb then 0x1B else 0)

/-- Multiplication in GF(2^8), over n bits of the first factor. -/
def aesMul : Nat → Byte → Byte → Byte
  | 0, _, _ => 0
  | n + 1, a, b => (if a.getLsbD 0 then b else 0) ^^^ aesMul n (a >>> 1) (xtime b)

/-- The square of an element of GF(2^8). -/
def aesSq (a : Byte) : Byte := aesMul 8 a a

/-- The inverse in GF(2^8), 0 for 0: the power 254. -/
def aesInv (a : Byte) : Byte :=
  let a2 := aesSq a
  let a4 := aesSq a2
  let a8 := aesSq a4
  let a16 := aesSq a8
  let a32 := aesSq a16
  let a64 := aesSq a32
  aesMul 8 (aesSq a64) (aesMul 8 a64 (aesMul 8 a32 (aesMul 8 a16 (aesMul 8 a8 (aesMul 8 a4 a2)))))

/-- The S-box and its inverse. -/
def sbox (a : Byte) : Byte :=
  let b := aesInv a
  b ^^^ b.rotateLeft 1 ^^^ b.rotateLeft 2 ^^^ b.rotateLeft 3 ^^^ b.rotateLeft 4 ^^^ 0x63
def sboxInv (a : Byte) : Byte := aesInv (a.rotateLeft 1 ^^^ a.rotateLeft 3 ^^^ a.rotateLeft 6 ^^^ 0x05)

/-- Two byte strings added, to the length of the shorter. -/
def xorBytes (a b : List Byte) : List Byte := List.zipWith (· ^^^ ·) a b

/-- Words 8 to 59 of the key schedule, one after the other. -/
def nextKeyWord (ws : List (List Byte)) (i : Nat) : List (List Byte) :=
  let last := ws.getD (i - 1) []
  let t := if i % 8 = 0 then xorBytes ((last.rotateLeft 1).map sbox) [BitVec.ofNat 8 (2 ^ (i / 8 - 1)), 0, 0, 0]
    else if i % 8 = 4 then last.map sbox else last
  ws ++ [xorBytes (ws.getD (i - 8) []) t]

/-- The 15 round keys. -/
def roundKeys (key : List Byte) : List (List Byte) :=
  pieces 16 15 (((List.range 52).map (· + 8)).foldl nextKeyWord (pieces 4 8 key)).flatten

/-- A column multiplied by the circulant matrix whose first row is `m`. -/
def mixColumn (m col : List Byte) : List Byte :=
  (List.range 4).map (fun r => (List.range 4).foldl (fun acc c => acc ^^^ aesMul 8 (m.getD ((c + 4 - r) % 4) 0) (col.getD c 0)) 0)

/-- The columns of a state mixed. -/
def mixColumns (m s : List Byte) : List Byte := (pieces 4 4 s).flatMap (mixColumn m)

/-- Rows of a state shifted, row r by k * r columns. -/
def shiftRows (k : Nat) (s : List Byte) : List Byte := (List.range 16).map (fun i => s.getD ((i + 4 * k * (i % 4)) % 16) 0)

/-- AES-256 of a block of 16 bytes. -/
def aesEncrypt (key block : List Byte) : List Byte :=
  let ks := roundKeys key
  let s := ((List.range 13).map (· + 1)).foldl (fun s i =>
    xorBytes (mixColumns [2, 3, 1, 1] (shiftRows 1 (s.map sbox))) (ks.getD i [])) (xorBytes block (ks.getD 0 []))
  xorBytes (shiftRows 1 (s.map sbox)) (ks.getD 14 [])

/-- The inverse cipher. -/
def aesDecrypt (key block : List Byte) : List Byte :=
  let ks := roundKeys key
  let s := ((List.range 13).map (13 - ·)).foldl (fun s i =>
    mixColumns [14, 11, 13, 9] (xorBytes ((shiftRows 3 s).map sboxInv) (ks.getD i []))) (xorBytes block (ks.getD 14 []))
  xorBytes ((shiftRows 3 s).map sboxInv) (ks.getD 0 [])

/-! ### GCM (SP 800-38D) and key unwrap (RFC 3394) -/

/-- One bit of a multiplication in GF(2^128), x from its first bit on: sum so far and the multiple of y. -/
def ghashBit (x : BitVec 128) (p : BitVec 128 × BitVec 128) (i : Nat) : BitVec 128 × BitVec 128 :=
  (if x.getMsbD i then p.1 ^^^ p.2 else p.1, (p.2 >>> 1) ^^^ (if p.2.getLsbD 0 then (0xE1#128) <<< 120 else 0))

/-- Multiplication in GF(2^128) in GCM's order of bits. -/
def ghashMul (x y : BitVec 128) : BitVec 128 := ((List.range 128).foldl (ghashBit x) (0, y)).1

/-- A byte string padded with zeros to whole blocks of 16, as numbers. -/
def ghashBlocks (l : List Byte) : List (BitVec 128) :=
  let n := (l.length + 15) / 16
  (pieces 16 n (fit (16 * n) l)).map (fun b => BitVec.ofNat 128 (beNat b))

/-- GHASH of additional data and ciphertext. -/
def ghash (h : BitVec 128) (aad c : List Byte) : BitVec 128 :=
  (ghashBlocks aad ++ ghashBlocks c ++ [BitVec.ofNat 128 (8 * aad.length * 2 ^ 64 + 8 * c.length)]).foldl (fun y x => ghashMul (y ^^^ x) h) 0

/-- The key stream of n bytes: counter blocks from 2 on. -/
def gcmStream (key iv : List Byte) (n : Nat) : List Byte :=
  (List.range ((n + 15) / 16)).flatMap (fun i => fit 16 (aesEncrypt key (iv ++ beBytes 4 ((i + 2) % 2 ^ 32))))

/-- The tag of a ciphertext. -/
def gcmTag (key iv aad c : List Byte) : List Byte :=
  let h := BitVec.ofNat 128 (beNat (aesEncrypt key (List.replicate 16 0)))
  fit 16 (xorBytes (beBytes 16 (ghash h aad c).toNat) (aesEncrypt key (iv ++ beBytes 4 1)))

/-- AES-256-GCM encryption (R288): key, IV of 12 bytes, additional data, plaintext; ciphertext and 16-byte tag. -/
def gcmSeal (key : BitVec 256) (iv aad plain : List Byte) : List Byte × List Byte :=
  let c := xorBytes plain (gcmStream (keyBytes key) iv plain.length)
  (c, gcmTag (keyBytes key) iv aad c)

/-- AES-256-GCM decryption (R288, R434): key, IV, additional data, ciphertext, tag; none where the tag does not verify. -/
def gcmOpen (key : BitVec 256) (iv aad cipher tag : List Byte) : Option (List Byte) :=
  if tag == gcmTag (keyBytes key) iv aad cipher then some (xorBytes cipher (gcmStream (keyBytes key) iv cipher.length)) else none

/-- Step j, i of the unwrapping of n blocks: the integrity register and the blocks. -/
def unwrapStep (key : List Byte) (n : Nat) (p : List Byte × List (List Byte)) (t : Nat) : List Byte × List (List Byte) :=
  let i := (t - 1) % n
  let b := aesDecrypt key (xorBytes p.1 (beBytes 8 t) ++ p.2.getD i [])
  (b.take 8, p.2.set i (b.drop 8))

/-- AES key unwrap of 48 bytes (R332): none where the integrity check fails. -/
def kwUnwrap (kek : BitVec 256) (c : List Byte) : Option (List Byte) :=
  let n := 5
  let r := ((List.range (6 * n)).map (6 * n - ·)).foldl (unwrapStep (keyBytes kek) n) (c.take 8, pieces 8 n (c.drop 8))
  if r.1 == List.replicate 8 0xA6 then some r.2.flatten else none

/-! ### P-384 (FIPS 186, SP 800-56A) -/

/-- The field, the coefficient b, the order of the group, and its base point. -/
def ecP : Nat := 2 ^ 384 - 2 ^ 128 - 2 ^ 96 + 2 ^ 32 - 1
def ecB : Nat := 0xB3312FA7E23EE7E4988E056BE3F82D19181D9C6EFE8141120314088F5013875AC656398D8A2ED19D2A85C8EDD3EC2AEF
def ecN : Nat := 0xFFFFFFFFFFFFFFFFFFFFFFFFFFFFFFFFFFFFFFFFFFFFFFFFC7634D81F4372DDF581A0DB248B0A77AECEC196ACCC52973
def ecG : Nat × Nat :=
  (0xAA87CA22BE8B05378EB1C71EF320AD746E1D3B628BA79B9859F741E082542A385502F25DBF55296C3A545E3872760AB7,
   0x3617DE4A96262C6F5D9E98BF9292DC29F8F41DBD289A147CE9DA3113B5F0B8C00A60B1CE1D7E819D7A431D7C90EA0E5F)

/-- Powers modulo m, over the lowest `n` bits of the exponent. -/
def powMod (m : Nat) : Nat → Nat → Nat → Nat
  | 0, _, _ => 1 % m
  | n + 1, a, e => (if e % 2 = 1 then a else 1) * powMod m n (a * a % m) (e / 2) % m

/-- The inverse modulo a prime of 384 bits. -/
def invMod (m a : Nat) : Nat := powMod m 384 (a % m) (m - 2)

/-- A pair of numbers is a point of the curve. -/
def onCurve (q : Nat × Nat) : Bool :=
  q.1 < ecP && q.2 < ecP && (q.2 * q.2) % ecP == (q.1 * q.1 * q.1 + (ecP - 3) * q.1 + ecB) % ecP

/-- The sum of two points; none is the point at infinity. -/
def ecAdd (a b : Option (Nat × Nat)) : Option (Nat × Nat) :=
  match a, b with
  | none, q => q
  | q, none => q
  | some p, some q =>
    if p.1 == q.1 && (p.2 + q.2) % ecP == 0 then none
    else
      let l := if p.1 == q.1 then (3 * p.1 * p.1 + ecP - 3) * invMod ecP (2 * p.2) % ecP
        else (q.2 + ecP - p.2) * invMod ecP (q.1 + ecP - p.1) % ecP
      let x := (l * l + 2 * ecP - p.1 - q.1) % ecP
      some (x, (l * (p.1 + ecP - x) + ecP - p.2) % ecP)

/-- A multiple of a point, over the lowest `n` bits of the factor. -/
def ecMul : Nat → Nat → Option (Nat × Nat) → Option (Nat × Nat)
  | 0, _, _ => none
  | n + 1, k, q => ecAdd (if k % 2 = 1 then q else none) (ecMul n (k / 2) (ecAdd q q))

/-- A point as 96 bytes, X then Y, and back. -/
def pointBytes (q : Option (Nat × Nat)) : List Byte :=
  match q with | some p => beBytes 48 p.1 ++ beBytes 48 p.2 | none => List.replicate 96 0
def bytesPoint (l : List Byte) : Nat × Nat := (beNat (l.take 48), beNat ((l.drop 48).take 48))

/-- Whether 96 bytes, X then Y, are a point of P-384 (R336). -/
def isPoint (l : List Byte) : Bool := l.length == 96 && onCurve (bytesPoint l)

/-- A private key in the range of the standard. -/
def ecKey (k : Nat) : Nat := 1 + k % (ecN - 1)

/-- The ephemeral public key of the n-th draw (R331), 96 bytes. -/
def ephemeralPub (n : Nat) : List Byte := pointBytes (ecMul 384 (ecKey (Config.ephemeralKey n)) (some ecG))

/-- The x-coordinate of the ECDH shared point of the n-th ephemeral key with a public key (R331), 48 bytes. -/
def ecdhX (n : Nat) (pub : List Byte) : List Byte :=
  match ecMul 384 (ecKey (Config.ephemeralKey n)) (some (bytesPoint pub)) with
  | some q => beBytes 48 q.1
  | none => List.replicate 48 0

/-- The ECDSA signature, r then s, of a byte string by a private key with the nonce k. -/
def ecSign (key k : Nat) (m : List Byte) : List Byte :=
  let r := match ecMul 384 k (some ecG) with | some q => q.1 % ecN | none => 0
  beBytes 48 r ++ beBytes 48 (invMod ecN k * (beNat (sha384 m) + r * key) % ecN)

/-- Whether an ECDSA signature over a byte string verifies under a public key. -/
def ecVerify (pub m sig : List Byte) : Bool :=
  let r := beNat (sig.take 48)
  let s := beNat ((sig.drop 48).take 48)
  let w := invMod ecN s
  let q := ecAdd (ecMul 384 (beNat (sha384 m) * w % ecN) (some ecG)) (ecMul 384 (r * w % ecN) (some (bytesPoint pub)))
  0 < r && r < ecN && 0 < s && s < ecN && (match q with | some p => p.1 % ecN == r | none => false)

/-- The signature of a die's device key over a byte string, with the n-th nonce (R334, R336). -/
def deviceSign (d : Die) (n : Nat) (m : List Byte) : List Byte := ecSign (ecKey (Config.deviceKey d)) (ecKey (Config.nonce n)) m

/-- Whether a signature verifies under the Ralligil firmware signing key (R432). -/
def firmwareSigned (m sig : List Byte) : Bool := ecVerify Config.firmwarePub m sig

end Sys2Proof.Machine
end

