-- ==== Sys2Proof/Machine/StreamDecode.lean ====
section
/-! DEFINITION. The encodings of the stream instruction set (R199-R219) and which of them are illegal (R227). -/

namespace Sys2Proof.Machine

open Sys2Proof

/-- An end as an instruction names it: kind 0 HANDLE, 1 CORE, 2 REMOTE, 3 MCAST, handle register, address register
(R202). -/
structure EndField where
  kind : Nat
  h : Nat
  a : Nat
deriving DecidableEq, Repr

/-- A decoded stream instruction. -/
inductive SInstr where
  | endI
  | fence (seals : Bool)
  | epoch (inc : Bool) (value : Nat)
  | loop (l count : Nat)
  | endl (l : Nat)
  | br (cond target : Nat)
  | set (stride : Bool) (idx value : Nat)
  | step (ad src sx mode : Nat)
  | seth (h handle : Nat)
  | emit (write : Bool) (src dst : EndField) (pi : Bool) (len group : Nat)
  | gather (scatter : Bool) (x y i : EndField) (ss esz : Nat) (pi stop : Bool) (n : Nat)
  | xpose (src dst : EndField) (ss ds : Nat) (wide : Bool)
  | combine (src : EndField) (da qdie qcl qnum : Nat) (pi : Bool) (n cidx : Nat)
  | seal (src dst : EndField) (n : Nat) (pi : Bool)
  | take (h : Nat) (block : Bool) (qid : Nat)
  | give (h : Nat) (block : Bool) (part : Nat) (fromSl : Bool) (qid : Nat)
  | waitslip (kind : Nat) (block : Bool) (target : Nat)
  | digest (mode : Nat) (clr : Bool) (target : Nat)
  | signal (arrive : Bool) (payload target : Nat)
deriving DecidableEq, Repr

/-- Words that an instruction occupies in the linear decode (R199, R201). -/
def sizeOfWord (w : Word) : Nat :=
  match field w 26 6 with
  | 0x07 => 2 | 0x11 => 2 | 0x12 => 2 | 0x14 => 2
  | 0x10 => if bit w 9 then 2 else 1
  | 0x1D => if field w 24 2 == 0 then 2 else 1
  | _ => 1

/-- The word indexes at which the linear decode of a program of n words starts its instructions, from index i (R199). -/
def startsFrom (prog : List Word) : Nat → Nat → List Nat
  | 0, _ => []
  | fuel + 1, i => if i < prog.length then i :: startsFrom prog fuel (i + sizeOfWord (prog.getD i 0)) else []

/-- The instruction boundaries of a program. -/
def starts (prog : List Word) : List Nat := startsFrom prog prog.length 0

/-- A handle field must be 0 where its kind does not use it (R202, R227). -/
def endOk (e : EndField) : Bool := e.h == 0 || e.kind == 0 || e.kind == 2

/-- The combinations of R209: source kind, destination kind, write kind. -/
def emitOk (sk dk : Nat) (k : Bool) : Bool :=
  match sk, dk, k with
  | 0, 0, _ => true | 0, 1, false => true | 0, 3, false => true | 0, 2, false => true | 1, 0, true => true
  | 2, 0, false => true | _, _, _ => false

/-- The instruction that two words spell, where no field of them is illegal (R206, R208, R211, R215, R218, R219, R227). -/
def decodeWords (w v : Word) : Option SInstr :=
  let ok := fun (c : Bool) (i : SInstr) => if c then some i else none
  match field w 26 6 with
  | 0x01 => ok (field w 0 26 == 0) .endI
  | 0x02 => ok (field w 0 25 == 0) (.fence (bit w 25))
  | 0x03 => ok (field w 16 9 == 0 && (!bit w 25 || field w 0 16 == 0)) (.epoch (bit w 25) (field w 0 16))
  | 0x04 => ok (field w 23 3 ≤ 5) (.loop (field w 23 3) (field w 0 23 + 1))
  | 0x05 => ok (field w 23 3 ≤ 5 && field w 0 23 == 0) (.endl (field w 23 3))
  | 0x06 => ok (field w 23 3 ≤ 4 && field w 7 16 == 0) (.br (field w 23 3) (field w 0 7))
  | 0x07 => ok (field w 16 6 == 0 && (!bit w 25 || field w 22 3 ≤ 3))
      (.set (bit w 25) (field w 22 3) (field w 0 16 * 2 ^ 32 + v.toNat))
  | 0x08 => ok (field w 16 2 != 3 && field w 0 16 == 0) (.step (field w 23 3) (field w 20 3) (field w 18 2) (field w 16 2))
  | 0x09 => ok (field w 20 4 == 0) (.seth (field w 24 2) (field w 0 20))
  | 0x10 =>
    let src : EndField := ⟨field w 23 2, field w 21 2, field w 18 3⟩
    let dst : EndField := ⟨field w 16 2, field w 14 2, field w 11 3⟩
    let x := bit w 9
    let bytes := if x then field v 0 17 else 0
    let group := if x then field v 23 9 else 0x1FF
    ok (!bit w 8 && emitOk src.kind dst.kind (bit w 25) && endOk src && endOk dst
        && (!x || (field v 17 6 == 0 && bytes ≤ 0x10000 && (bytes == 0 || field w 0 8 == 0)
            && (if dst.kind == 3 then group < 0x140 || group == 0x1FF else group == 0))))
      (.emit (bit w 25) src dst (bit w 10) (if bytes != 0 then bytes else (field w 0 8 + 1) * 256) group)
  | 0x11 | 0x12 =>
    let y : EndField := ⟨field w 19 2, field w 17 2, field w 14 3⟩
    ok (y.kind ≤ 1 && endOk y && field w 0 3 == 0 && field v 16 15 == 0)
      (.gather (field w 26 6 == 0x12) ⟨0, field w 24 2, field w 21 3⟩ y ⟨0, field w 12 2, field w 9 3⟩ (field w 7 2)
        (field w 4 3) (bit w 3) (bit v 31) (field v 0 16 + 1))
  | 0x13 =>
    let dst : EndField := ⟨field w 19 2, field w 17 2, field w 14 3⟩
    ok (dst.kind ≤ 1 && endOk dst && field w 0 9 == 0)
      (.xpose ⟨0, field w 24 2, field w 21 3⟩ dst (field w 12 2) (field w 10 2) (bit w 9))
  | 0x14 =>
    let src : EndField := ⟨field w 24 2, field w 22 2, field w 19 3⟩
    ok (src.kind ≤ 1 && endOk src && field w 0 4 == 0 && field v 16 8 == 0)
      (.combine src (field w 16 3) (field w 13 3) (field w 9 4) (field w 5 4) (bit w 4) (field v 24 8 + 1) (field v 0 16))
  | 0x15 =>
    let src : EndField := ⟨field w 24 2, field w 22 2, field w 19 3⟩
    ok (src.kind ≤ 1 && endOk src && field w 0 5 == 0)
      (.seal src ⟨0, field w 17 2, field w 14 3⟩ (field w 6 8 + 1) (bit w 5))
  | 0x18 => ok (field w 13 10 == 0) (.take (field w 24 2) (bit w 23) (field w 0 13))
  | 0x19 => ok (field w 13 5 == 0) (.give (field w 24 2) (bit w 23) (field w 19 4) (bit w 18) (field w 0 13))
  | 0x1A =>
    let t := field w 0 15
    ok (field w 15 8 == 0 && (match field w 24 2 with | 0 => t < 2 ^ 13 | 1 => true | 2 => t == 0 | _ => t < 2 ^ 12))
      (.waitslip (field w 24 2) (bit w 23) t)
  | 0x1C =>
    let t := field w 0 15
    ok (field w 15 8 == 0 && (match field w 24 2 with
        | 0 => !bit w 23 && t == 0 | 1 => true | 2 => t < 2 ^ 11 | _ => false))
      (.digest (field w 24 2) (bit w 23) t)
  | 0x1D =>
    let k := field w 24 2
    ok (k ≤ 1 && field w 12 12 == 0 && (k == 1 || field v 18 14 == 0)) (.signal (k == 1) (field w 0 12) (field v 0 18))
  | _ => none

/-- The instruction number of a word index; none where no instruction starts there. -/
def instrNumber (prog : List Word) (i : Nat) : Option Nat := (starts prog).findIdx? (· == i)

/-- The instruction at a word index, where its encoding is legal and it lies within the program and below number 64
(R227). -/
def instrAt (prog : List Word) (i : Nat) : Option SInstr :=
  match instrNumber prog i with
  | none => none
  | some n =>
    if n < 64 && i + sizeOfWord (prog.getD i 0) ≤ prog.length then
      match decodeWords (prog.getD i 0) (prog.getD (i + 1) 0) with
      | some (.br c t) => if (instrNumber prog t).isSome then some (.br c t) else none
      | r => r
    else none

/-- What the state of the context adds to legality (R227): a live counter for ENDL, BL 0b00 for ARRIVE, an ARRIVE before a
WAITSLIP BARRIER of the same barrier. -/
def liveOk (x : Ctx) : SInstr → Bool
  | .endl l => x.regs.live.getD l false
  | .signal true _ _ => x.bl == 0
  | .waitslip 3 _ t => x.bl != 0 && t == x.bn.toNat
  | _ => true

/-- The legal instruction at a context's IP. -/
def currentInstr (x : Ctx) : Option SInstr :=
  match instrAt x.image.prog x.regs.ip with
  | some i => if liveOk x i then some i else none
  | none => none

/-- Word index after the instruction at IP. -/
def afterIp (x : Ctx) : Nat := x.regs.ip + sizeOfWord (x.image.prog.getD x.regs.ip 0)

/-! ### Registers named by fields (R196, R197) -/

def addrReg (r : CtxRegs) (i : Nat) : Nat := (r.a.getD i 0).toNat
def strideReg (r : CtxRegs) (i : Nat) : Nat := (r.s.getD i 0).toNat
def handleReg (r : CtxRegs) (i : Nat) : Nat := (r.h.getD i 0).toNat
/-- PART of the last slip (R196). -/
def partOf (r : CtxRegs) : Nat := field r.sl 20 4

/-- Address register i replaced. -/
def setAddr (r : CtxRegs) (i v : Nat) : CtxRegs := { r with a := r.a.set i (BitVec.ofNat 48 v) }

/-- A post-increment of two registers: one that both fields name advances once, by the first advance (R205). -/
def advance2 (r : CtxRegs) (i n j m : Nat) : CtxRegs :=
  let r1 := setAddr r i (addrReg r i + n)
  if i == j then r1 else setAddr r1 j (addrReg r j + m)

/-- A product of an unsigned number and a signed stride, modulo 2^48 (R197). -/
def timesStride (n : Nat) (s : BitVec 48) : Nat := (n * s.toNat) % 2 ^ 48

end Sys2Proof.Machine
end

