-- ==== Sys2Proof/Machine/RemoteBase.lean ====
section
/-! DEFINITION. Outbound windows and key slots as the fabric needs them: the checks of a PUT or GET slot (R266) and the
counters of key slots (R289). -/

namespace Sys2Proof.Machine

open Sys2Proof

/-- Key slot k of tenancy t on die d (R330). -/
def keyIdx (d t k : Nat) : Nat := d * 512 + t * 32 + k

/-- The key of a slot. -/
def keyOf (s : State) (d t k : Nat) : Option (BitVec 256) := SMap.find s.security.keySlots (keyIdx d t k)

/-- The counter of a key slot (R289). -/
def sealCount (s : State) (d t k : Nat) : Nat := SMap.get s.remote.counters (keyIdx d t k) 0

/-- A window number lies in a range register of R262. -/
def inWinRange (w : Word) (n : Nat) : Bool := inRange (field w 0 10) (field w 16 11) n

/-- The tenancy whose ROUT or RIN range holds a window; none where no range does. -/
def routTen (s : State) (d n : Nat) : Option Nat := (List.range 16).find? (fun t => inWinRange (regGet s d (.routRange t)) n)
def rinTen (s : State) (d n : Nat) : Option Nat := (List.range 16).find? (fun t => inWinRange (regGet s d (.rinRange t)) n)

/-- NODE of a die; 0x7FFF where it is not set (R261). -/
def nodeOf (s : State) (d : Nat) : Nat := rf s d .remNode 0 15

/-- Outbound window of a reference (R265). -/
def refWin (r : Nat) : Nat := r % 1024

/-- The remote end of a slot: its reference, its offset, and whether it is a PUT. -/
def Slot.remoteEnd (x : Slot) : Option (Nat × Nat × Bool) :=
  match x.src, x.dst with
  | _, .remote r o => some (r.toNat, o.toNat, true)
  | .remote r o, _ => some (r.toNat, o.toNat, false)
  | _, _ => none

/-- Die of the local end of a remote slot. -/
def Slot.localDie (s : State) (x : Slot) (put : Bool) : Nat :=
  if put then (x.origin s).die else match x.dests s with | b :: _ => b.die | [] => 0

/-- The slot's own record of its context: registers and place before its instruction, and slot of the instruction. -/
def slotRec (s : State) (x : Slot) : Option SlotRec :=
  match x.ctx with
  | some c => (ctxOf s c).recs.find? (fun r => r.seq == x.seq)
  | none => none

/-- Length of the EMIT that a slot belongs to, and the sequence number of that EMIT's first slot. -/
def emitOf (s : State) (x : Slot) : Nat × Nat :=
  match x.ctx, slotRec s x with
  | some c, some r =>
    match instrAt (ctxOf s c).image.prog r.regs.ip with
    | some (.emit _ _ _ _ len _) => (len, x.seq - r.spos)
    | _ => (x.len, x.seq)
  | _, _ => (x.len, x.seq)

/-- The outbound window sends rings of messages (R263). -/
def outRing (s : State) (d n : Nat) : Bool := bit (regGet s d (.rwinExt n)) 26

/-- The checks of a PUT or GET slot when the engine takes it (R266). -/
def checkRemote (s : State) (x : Slot) : Verdict :=
  match x.remoteEnd with
  | none => .pass
  | some (r, off, put) =>
    let d := hDie r
    let n := refWin r
    let t := x.ten.toNat
    let cfg := regGet s d (.rwinCfg n)
    let ext := regGet s d (.rwinExt n)
    firstFail [
      failIf (r / 2 ^ 15 % 2 != 0 || r / 2 ^ 10 % 4 != 0 || !s.present d || x.localDie s put != d) ⟨Code.badArg, 0, 0, 0, 0⟩,
      failIf (r / 2 ^ 16 % 16 != field cfg 15 4) ⟨Code.stale, 0, 0, 0, 0⟩,
      failIf (!inWinRange (regGet s d (.routRange t)) n) ⟨Code.denied, 0, 2, (routTen s d n).getD 0, off⟩,
      failIf (!bit cfg 23 || nodeOf s d == 0x7FFF) ⟨Code.state, 0, 0, 0, 0⟩,
      failIf (if bit ext 26 then !put || 65472 < (emitOf s x).1 else (field ext 0 26 + 1) * 4096 < off + x.len)
        ⟨Code.badArg, 0, 0, 0, 0⟩,
      failIf (bit cfg 22 && 2 ^ 64 - 1 ≤ sealCount s d t (field ext 27 5)) ⟨Code.sealFail, 3, 0, 0, 0⟩,
      failIf (!domUp s d 46) ⟨Code.fenced, 0, 0, 0, 0⟩]

/-! ### Messages (R272, R277, R288, R289) -/

end Sys2Proof.Machine

namespace Sys2Proof

open Sys2Proof.Machine

/-- The 32-byte header of a message (R272). -/
def RemoteMsg.header (m : RemoteMsg) : List Byte :=
  [m.kind, if m.sealedFlag then 1 else 0] ++ leBytes 2 m.snode.toNat ++ [m.sdie, m.ddie] ++ leBytes 2 m.dnode.toNat
    ++ leBytes 2 m.swin.toNat ++ leBytes 2 m.dwin.toNat ++ leBytes 2 m.epoch.toNat ++ leBytes 2 m.acc.toNat
    ++ leBytes 6 m.offset.toNat ++ leBytes 2 m.len.toNat ++ [0, m.code] ++ leBytes 2 m.detail.toNat ++ [0, 0, 0, 0]

end Sys2Proof

namespace Sys2Proof.Machine

open Sys2Proof

/-- The IV of a message sealed under key slot k of a die whose counter stands at n (R289). -/
def sealIv (s : State) (d k n : Nat) : List Byte :=
  leBytes 2 (nodeOf s d) ++ [BitVec.ofNat 8 (d * 32 + k), 0] ++ leBytes 8 n

/-- A message sealed under a key slot, whose counter advances (R288, R289); none where the slot holds no key or seals no
further message. -/
def sealMsg (s : State) (d t k : Nat) (m : RemoteMsg) : Option (State × RemoteMsg) :=
  let n := sealCount s d t k
  match keyOf s d t k with
  | none => none
  | some key =>
    if 2 ^ 64 - 1 ≤ n then none
    else
      let iv := sealIv s d k n
      let m1 := { m with sealedFlag := true }
      let c := gcmSeal key iv m1.header m.payload
      some (s.onRemote (fun r => { r with counters := SMap.set r.counters (keyIdx d t k) (n + 1) }),
        { m1 with payload := c.1, iv := iv, tag := c.2 })

/-- A message leaves by the link block. -/
def sendMsg (s : State) (d : Nat) (m : RemoteMsg) : State := s.emitOut (.message (BitVec.ofNat 3 d) m)

/-- The header of the message for a slot, from the window's registers as they stand when the engine takes the slot (R266,
R277). `kind` is 1 PUT, 2 MSG, 3 GETREQ. -/
def outHeader (s : State) (d n kind seq off len : Nat) : RemoteMsg :=
  let cfg := regGet s d (.rwinCfg n)
  let peer := regGet s d (.rwinPeer n)
  { kind := BitVec.ofNat 8 kind, sealedFlag := bit cfg 22, snode := BitVec.ofNat 16 (nodeOf s d), sdie := BitVec.ofNat 8 d,
    ddie := BitVec.ofNat 8 (field cfg 19 3), dnode := BitVec.ofNat 16 (field cfg 0 15), swin := BitVec.ofNat 16 n,
    dwin := BitVec.ofNat 16 (field peer 0 10), epoch := BitVec.ofNat 16 (field peer 16 16),
    acc := BitVec.ofNat 16 (field peer 12 4 * 4096 + seq % 4096), offset := BitVec.ofNat 48 off, len := BitVec.ofNat 16 len,
    code := 0, detail := 0, payload := [], iv := [], tag := [] }

/-- The engine takes a slot that its checks pass: the header of its message stands from now on. -/
def takeRemote (s : State) (x : Slot) : State :=
  match x.remoteEnd with
  | none => s
  | some (r, off, put) =>
    let d := hDie r
    let n := refWin r
    let ring := outRing s d n
    let e := emitOf s x
    let m := if !put then outHeader s d n 3 x.seq off x.len
      else if ring then outHeader s d n 2 e.2 0 e.1 else outHeader s d n 1 x.seq off x.len
    s.onRemote (fun k => { k with outMsgs := k.outMsgs.filter (fun o => !o.slots.contains x.id) ++
      [⟨[x.id], d, x.ten.toNat, field (regGet s d (.rwinExt n)) 27 5, ring, false, m⟩] })

end Sys2Proof.Machine
end

