-- ==== Sys2Proof/Machine/Grant.lean ====
section
/-! DEFINITION. The grant of a transfer (R64, R65, R98, R100): its path, its bank holds, its checks, what it moves, and its
delivery. -/

namespace Sys2Proof.Machine

open Sys2Proof

/-! ### Paths and bank holds (R19, R96, R98, R467) -/

/-- Carrel end of a slot at a core port segment; its bank of the core. -/
def carrelAt (s : State) (x : Slot) (sg : Nat) : Option Nat :=
  ((x.bankEnds s).find? (fun e =>
    let b := taPkgBank e.1
    isCarrel b && (if e.2 then (Loc.bank b).into else (Loc.bank b).out) == [sg])).map (fun e => taPkgBank e.1 % 4)

/-- The first position at or after p that a slot may hold on a segment: one of its class, and at the port of a carrel end a
window of that bank (R75, R93, R467). -/
def posAt (s : State) (x : Slot) (sg p : Nat) : Nat :=
  match carrelAt s x sg with
  | some j => p + (4 * j + 16 - p % 16) % 16
  | none => posFor sg (clsNo x.cls) p

/-- How many positions later than its granting position a route of this slot may hold another segment: the figure of its path leaves
no more (R101), less 15 for the shift to a position of the class or to a window; none where data of a bank must come before the
granting position of its destination; for the ring plan none beyond the frame (R99; log 8). -/
def offsetRoom (s : State) (x : Slot) (g p : Nat) : Nat :=
  let fromBank := (x.bankEnds s).any (fun e => !e.2)
  let room := (x.figure s false - 8) / 2 - 15
  if fromBank && !(x.origin s).out.contains g then 0
  else if x.crossDie s then min room (112 - p % 128) else room

/-- The positions of a route whose granting position is p (R98): its timing on the other segments is free, within the figure (log 8). -/
def Slot.path (s : State) (x : Slot) (lane g p : Nat) : List (Nat × Nat) :=
  let rest := (x.route s lane).filter (· != g)
  (g, p) :: (rest.zip (List.range rest.length)).map (fun e =>
    (e.1, posAt s x e.1 (p + min (Config.routeOffset x.id e.2) (offsetRoom s x g p))))

/-- A hold of a bank placed behind those that the same transfer has of it already: 4 cc later in the stacks, in the next round of a
carrel bank (R19, R75). -/
def holdBehind (taken : List (Nat × Nat)) (h : Nat × Nat) : Nat × Nat :=
  taken.foldl (fun h e =>
    if e.1 == h.1 && h.2 < e.2 + 4 && e.2 < h.2 + 4 then (h.1, e.2 + (if isCarrel h.1 then 32 else 4)) else h) h

/-- First cycle of each bank hold of a path: at the position's first cycle in the stacks, in the visitor block of a window
in a carrel (R19, R75); of two ends in one bank the second comes after the first. -/
def holdsOf (s : State) (x : Slot) (path : List (Nat × Nat)) : List (Nat × Nat) :=
  (x.bankEnds s).foldl (fun taken e =>
    let b := taPkgBank e.1
    let port := if e.2 then (Loc.bank b).into else (Loc.bank b).out
    let p := match path.find? (fun r => port == [r.1]) with
      | some r => r.2
      | none => match path.head? with | some r => r.2 | none => 0
    taken ++ [holdBehind taken (b, if isCarrel b then 2 * p + 4 else 2 * p)]) []

/-! ### Checks at the grant (R60, R64, R203, R238, R266) -/

/-- The handle that a bank end carries. -/
def endHandle (h : Option (BitVec 20)) : Option Nat := h.map (·.toNat)

/-- The read side of a transfer. -/
def checkSource (s : State) (x : Slot) : Verdict :=
  match x.src with
  | .bank ta h => checkBankSide s x.ident x.ten.toNat (endHandle h) ta.toNat x.len false false x.ep.toNat
  | .store h o => windowVerdict s x h.toNat o.toNat false
  | .core a => checkCore s x.ten.toNat a.toNat x.len
  | _ => .pass

/-- The write side of a transfer. -/
def checkDest (s : State) (x : Slot) : Verdict :=
  match x.dst with
  | .bank ta h => checkBankSide s x.ident x.ten.toNat (endHandle h) ta.toNat x.len true (x.kind == .seal) x.ep.toNat
  | .store h o =>
    firstFail [windowVerdict s x h.toNat o.toNat true,
      (if x.ident % 4096 == 0x800 then .pass else checkHeld s (some h.toNat) x.ep.toNat)]
  | .combining d _ _ _ _ => failIf (!s.present d.toNat) ⟨Code.badArg, 0, 0, 0, 0⟩
  | .core a => checkCore s x.ten.toNat a.toNat x.len
  | .mcast g o => checkGroup s x.ident x.ten.toNat (x.ident / 4096) g.toNat o.toNat x.len
  | .remote _ _ => checkRemote s x
  | _ => .pass

/-- The verdict of a transfer at its grant: the read side first, then the write side (R64); behind them all R82. -/
def slotVerdict (s : State) (x : Slot) : Verdict :=
  firstFail ([checkSource s x, checkDest s x] ++ (x.bankEnds s).map (fun e => checkCacheBank s e.1))

/-- The domains of a slot's banks, segments, halls and queue engine that are not UP (R356). An own-carrel access crosses no
segment. -/
def downDomains (s : State) (x : Slot) : List (Nat × Nat) :=
  let banks := (x.bankEnds s).map (fun e => (taDie e.1, bankDomain (taDieBank e.1)))
  let segs := if x.ownCarrel s then [] else
    ((x.route s 0).filter (fun sg => segKind sg ≤ 2)).map (fun sg => (segDie sg, xbarDomain (sg / 4096 % 16)))
  let engines := (x.dests s).filterMap (fun b => match b with | .engine d k => some (d, xbarDomain k) | _ => none)
  (banks ++ segs ++ engines).filter (fun e => s.present e.1 && !domUp s e.1 e.2)

/-- Checks 1-3 of R64 for the handle of an end. -/
def endRange (s : State) (x : Slot) : Endp → Verdict
  | .bank ta (some h) => checkBufferHandle s h.toNat ta.toNat x.len
  | .store h o => checkWindowRange s h.toNat o.toNat x.len
  | _ => .pass

/-- The status with which a request is refused in its first decision cycle, holding no position: its master is fenced by the
watchdog (R115), or its route needs a domain that is not UP, behind checks 1-3 of its handles (R356). -/
def earlyRefusal (s : State) (x : Slot) : Option Word :=
  if s.fabric.wdogFenced.contains x.ident then some (stWord Code.fenced)
  else match downDomains s x with
    | [] => none
    | e :: _ =>
      let handles := firstFail [endRange s x x.src, endRange s x x.dst]
      some (if handles.code != 0 then stWord handles.code handles.detail else stWord (downCode s e.1 e.2))

/-! ### What a granted slot moves -/

/-- Data of a core's aperture: outside the BTM, free (log 11). -/
def coreData (s : State) (n : Nat) : State × List Byte :=
  ({ s with draws := s.draws + n }, (List.range n).map (fun i => Config.coreByte (s.draws + i)))

/-- Die that a refusal concerns: of the bank, core or window named (R64, R327). -/
def refusalDie (s : State) (x : Slot) (v : Verdict) : Nat :=
  if v.kind == 1 then apDie v.addr
  else if (x.bankEnds s).any (fun e => e.1 == v.addr) then taDie v.addr
  else match x.windowEnd with | some (h, _, _) => hDie h | none => x.ident / 4096

/-- The refusal of an end that fails is one by R64 or R203: not one by the group itself (R238), by a page descriptor (R60), by the engine
(R266). -/
def refusedBy64 (s : State) (x : Slot) : Endp → Bool
  | .bank _ _ | .core _ => true
  | .store h o => (checkWindowHandle s x.ten.toNat h.toNat o.toNat x.len).code != 0
  | .mcast g _ =>
    let cfg := if g.toNat < 0x100 then regGet s (x.ident / 4096) (.mcgCfg g.toNat) else regGet s (x.ident / 4096) (.pmcgCfg (g.toNat - 0x100))
    g.toNat < 0x140 && field cfg 16 4 == x.ten.toNat && bit cfg 23
  | _ => false

/-- A transfer refused with DENIED enters an event (R327). -/
def noteDeny (s : State) (x : Slot) (v : Verdict) : State :=
  if v.code == Code.denied then noteDenied s (refusalDie s x v) x.ident x.ten.toNat v 0 (slotTask s x) else s

/-- A transfer refused at its grant: where R64 or R203 refuses it, it counts in REFUSED (R136). -/
def noteRefused (s : State) (x : Slot) (v : Verdict) : State :=
  let counted := if (checkSource s x).code != 0 then refusedBy64 s x x.src else (checkDest s x).code != 0 && refusedBy64 s x x.dst
  noteDeny (if counted then masterCount s x.ident 8 else s) x v

/-- An access to a block of the carrel cache: a load reads it, a store writes it and makes it dirty (R83). Nothing but the tag
is checked. A hit counts in CAR_HIT as it is served (R137); an access that has missed has counted already. -/
def moveCached (s : State) (x : Slot) : State × Word × List Byte × Bool :=
  match (x.bankEnds s).head?, cacheTag x.target with
  | some (ta, write), some t =>
    let blk := (cacheHit s (slotCore x).1 (slotCore x).2 t).getD 0
    let s1 := touchBlk s blk
    let s0 := if x.missed then s1 else ctrAdd s1 (slotCore x).1 (.carrelCounter (slotCore x).2 3 false) 1
    if write then (setWay (cacheWrite s0 ta x.data) blk (some ⟨t, true⟩), stWord Code.done, [], false)
    else
      let ls := cacheRead s ta x.len
      let s2 := recordFindings s0 (taPkgBank ta) 0 ls (x.ident % 4096) 0xFFFF
      match ls.find? (fun r => r.uncorr != 0) with
      | some r => (s2, stWord Code.uncorrectable (r.line % 4 + 4 * r.kind), [], false)
      | none => (s2, stWord Code.done, ((ls.flatMap (·.data)).drop (ta % 64)).take x.len, false)
  | _, _ => (s, stWord Code.done, [], false)

/-- The access goes to a block of the carrel cache. -/
def Slot.isCacheAcc (x : Slot) : Bool := match x.kind with | .cacheAcc _ => true | _ => false

/-- The array cycles of a granted slot (R67, R73, R155): line i of a block in cycle i of its hold, for an own-carrel access one line
a cycle from the first; where the grant wakes the bank they follow the wake (R87). What is read at one end is written at the other in
the cycle of the last read at the earliest. `firsts` are the first cycles of the bank holds, in the order of the bank ends. -/
def slotAccs (s : State) (x : Slot) (firsts : List Nat) : List Acc :=
  let own := x.ownCarrel s
  let ends := (x.bankEnds s).zip firsts
  let accs := fun (e : (Nat × Bool) × Nat) => (linesOf e.1.1 x.len).map (fun pl =>
    let wake := if asleep s (taPkgBank e.1.1) then 64 else 0
    (⟨e.2 + wake + (if own then pl - taLine e.1.1 else pl % 4), x.id, pl, e.1.2, false, e.1.1⟩ : Acc))
  let reads := (ends.filter (fun e => !e.1.2)).flatMap accs
  let after := maxOf (reads.map (·.cycle))
  reads ++ ((ends.filter (fun e => e.1.2)).flatMap accs).map (fun a => { a with cycle := max a.cycle after })

/-- The lines that a slot writes placed (R154, R155); a SEAL slot, whose folio takes no merge entries, opens its context where it is
slot 0 (R165). -/
def placeAccs (s : State) (x : Slot) (accs : List Acc) : State :=
  let r := accs.foldl (fun (r : State × List Acc) a =>
    if a.write && x.kind != .seal then
      let p := placeLine r.1 x.id a.line a.cycle (lineEnables a.ref (List.replicate x.len 0) a.line).1
      (p.1, r.2 ++ [{ a with merged := p.2 }])
    else (r.1, r.2 ++ [a])) (s, [])
  let s1 := r.1.onFabric (fun f => { f with accs := f.accs ++ r.2 })
  match x.kind, x.dst, x.ctx with
  | .seal, .bank ta _, some c => openSeal s1 c.toNat ta.toNat
  | _, _, _ => s1

/-- What the grant of a slot answers at once: the state after it, its status so far, the data of a source that is no bank, the banks
that it wakes, and its array cycles. -/
structure GrantMove where
  st : State
  status : Word
  data : List Byte
  wakes : List Nat
  accs : List Acc

/-- The handles of a slot's ends, used at its checks (R48). -/
def useEntries (s : State) (x : Slot) : State :=
  [x.src, x.dst].foldl (fun s e => match e with
    | .bank _ (some h) | .store h _ => useEntry s h.toNat
    | _ => s) s

/-- The checks of a slot at its grant, and what they let it move in the array cycles to come. A refused slot moves no data and wakes
nothing (R65). -/
def moveData (s : State) (x : Slot) (firsts : List Nat) : GrantMove :=
  let v := slotVerdict s x
  if x.isCacheAcc then
    let r := moveCached s x
    ⟨r.1, r.2.1, r.2.2.1, [], []⟩
  else if v.code != 0 then ⟨noteRefused (useEntries s x) x v, stWord v.code v.detail, [], [], []⟩
  else
    let sleeping := (((x.bankEnds s).map (fun e => taPkgBank e.1)).eraseDups).filter (asleep s)
    let accs := slotAccs s x firsts
    let s1 := sleeping.foldl (fun s b => startWake s b []) (useEntries s x)
    let r := match x.src with | .core _ => coreData s1 x.len | _ => (s1, x.data)
    ⟨placeAccs r.1 x accs, stWord Code.done, r.2, sleeping, accs⟩

/-- The address that FADDR takes where a slot fails at its grant: the destination's where the source passes its checks and
the destination does not, else the source's. -/
def faultAddr (s : State) (x : Slot) : BitVec 48 :=
  if (checkSource s x).code == 0 && (checkDest s x).code != 0 then endAddr x.dst x.src else endAddr x.src x.dst

/-- A context that waited for the grant of its single-shot slot goes on (R187). -/
def wakeGranted (s : State) (x : Slot) : State :=
  match x.ctx with
  | some c => if !x.kind.isLoad && (ctxOf s c).wait == .grant && (ctxOf s c).st == .running && (ctxOf s c).stop == .no then makeReady s c else s
  | none => s

/-- A granted multicast slot counts in MC_SLOT of its source's cluster (R259); the hall is the source of a tile's slot. -/
def countMulticast (s : State) (x : Slot) : State :=
  match x.dst with
  | .mcast _ _ =>
    match x.src with
    | .bank ta _ => clusterCount s (taDie ta.toNat) (pbCluster (taPkgBank ta.toNat)) 15 1
    | .core a => clusterCount s (apDie a.toNat) (apCore a.toNat / 32) 15 1
    | .hall d c => clusterCount s d.toNat c.toNat 15 1
    | _ => s
  | _ => s

/-- A slot granted now (R98, R100): checked, its banks held, its array cycles and its figure running. `holds` are its bank holds with
their lengths, booked already where `planned`; `framed` says that it holds positions, so that the regulator and GRANT count it
(R122, R136). An access of an end that is to follow the figure is waited for. A visitor slot counts as served whatever its check
answers, since it has its window (R65, R137; DESIGN CHOICE, log 43). -/
def grantSlot (s : State) (x : Slot) (holds : List (Nat × Nat × Nat)) (planned framed nextWindow resv : Bool) : State :=
  let fig := x.figure s
  let far := faultAddr s x
  let m := moveData s x (holds.map (·.2.1))
  let wake := !m.wakes.isEmpty
  let status := if wake then setField m.status 9 1 1 else m.status
  let s3 := if framed then
      (let a := masterCount (countUsed m.st x.ident nextWindow) x.ident (clsNo x.cls)
       countMulticast (if resv then masterCount a x.ident 3 else a) x)
    else m.st
  let held := holds.map (fun h => (⟨h.1, h.2.1, h.2.1 + h.2.2 - 1, x.ident, x.id⟩ : Hold))
  let later := (held.filter (fun h => m.wakes.contains h.bank)).map (fun h => { h with first := h.first + 64, last := h.last + 64 })
  let s4 := (held ++ later).foldl (fun s h => touchBankTo s h.bank h.last)
    (s3.onFabric (fun f => { f with holds := f.holds ++ (if planned then [] else held) ++ later }))
  let s5 := if framed then
      ((x.bankEnds s).filter (fun e => isCarrel (taPkgBank e.1))).foldl (fun s e =>
        ctrAdd s (taDie e.1) (.carrelCounter (carrelCore (taPkgBank e.1)) 2 false) 1) s4
    else s4
  let due := max (s.now + fig wake) (maxOf (m.accs.map (fun a => a.cycle + 1)))
  let s6 := slotMod s5 x.id (fun y => { y with
    stage := .granted, status := status, data := m.data, faddr := far, grantCc := s.now, due := due, presented := false,
    reserved := [] })
  let s7 := match x.dst with | .remote _ _ => if stCode status == Code.done then takeRemote s6 x else s6 | _ => s6
  wakeGranted s7 x

/-- A request refused without a position (R115, R356): it counts in REFUSED, as R11 has a FENCED operation counted (DEDUCED, log 43). -/
def refuseEarly (s0 : State) (x : Slot) (st : Word) : State :=
  let s := endRequest s0 x.id
  wakeGranted (slotMod (masterCount (if stCode st == Code.uncorrectable then useEntries s x else s) x.ident 8) x.id (fun y => { y with
    stage := .granted, status := st, data := [], faddr := faultAddr s x, grantCc := s.now, due := s.now, presented := false, reserved := [] })) x

end Sys2Proof.Machine
end

