-- ==== Sys2Proof/Machine/Arbiter.lean ====
section
/-! DEFINITION. The arbiters (R97-R111, R467, R468): candidates, ranks, tenures, reservations, and one decision. -/

namespace Sys2Proof.Machine

open Sys2Proof

/-! ### Ranks (R106-R108) -/

/-- Key of a rotating order or a tenure: the segment, and its class where it has a class split. -/
def orderKey (sg cls : Nat) : Nat := sg * 4 + (if segSplit sg then cls else 3)

/-- Key of the one rotating order of a core port's visitor windows (R468). -/
def visitorKey (d core : Nat) : Nat := segOf d (core / 32) 1 (core % 32) 0 * 4 + 2

/-- Rank in a rotating order: masters that have not moved, ascending by identity, above those that have, the one moved first
highest (R107). -/
def rotationRank (moved : List Nat) (ident : Nat) : List Nat :=
  match moved.findIdx? (· == ident) with | some i => [1, i] | none => [0, ident]

/-- A master moved to the lowest rank. -/
def moveLast (r : SMap (List Nat)) (k ident : Nat) : SMap (List Nat) := SMap.upd r k [] (fun l => l.filter (· != ident) ++ [ident])

/-- A master that an arbiter ranks by age: 0x800 and 0x801 in remote positions, 0x840 in read and write positions
(R106). -/
def oldestFirst (ident cls : Nat) : Bool :=
  let m := ident % 4096
  ((m == 0x800 || m == 0x801) && cls == 2) || (m == 0x840 && cls != 2)

/-- Age of a request at an arbiter (R108). -/
def ageOf (s : State) (x : Slot) : Nat := min 255 ((s.now - x.reached) / 16)

/-- A candidate of a decision: its request, the core port of its visitor window where it is a visitor, its path, its bank holds, what
blocks it (0 nothing, 1-5 a squall cause of R129, 6 a frozen segment), its age and whether it is demoted. -/
structure Cand where
  slot : Slot
  window : Option Nat
  path : List (Nat × Nat)
  holds : List (Nat × Nat)
  cause : Nat
  age : Nat
  demoted : Bool
deriving DecidableEq, Repr

/-- Rank of a candidate on a segment, smaller first: `cont` for a continuing tenure. -/
def rankOf (rot : SMap (List Nat)) (key : Nat) (cont : Bool) (c : Cand) : List Nat :=
  let x := c.slot
  let last := [x.arrive, (match x.ctx with | some c => ctxSlot c | none => 0), x.id]
  let dem := if c.demoted then 1 else 0
  if cont then 0 :: last
  else if oldestFirst x.ident (clsNo x.cls) then [1, dem, 255 - c.age, x.ident] ++ last
  else [2, dem] ++ rotationRank (SMap.get rot key []) x.ident ++ last

/-! ### Reservations (R104, R105) -/

/-- The holder of a reserved position. -/
def holderOf (s : State) (sg pos : Nat) : Option Nat :=
  let w := resvOf s sg pos
  if bit w 31 then some (field w 12 3 * 4096 + field w 0 12) else none

/-- The position of a segment is reserved to the candidate's master. -/
def holds? (s : State) (c : Cand) (r : Nat × Nat) : Bool := holderOf s r.1 r.2 == some c.slot.ident

/-! ### What blocks a route (R19, R69, R98, R105, R112, R129) -/

/-- Causes by their priority (R129). -/
def causePriority (c : Nat) : Nat := match c with | 5 => 1 | 3 => 2 | 4 => 3 | 1 => 4 | 2 => 5 | _ => 6

/-- The cause with the lowest priority number; 0 where there is none. -/
def firstCause (l : List Nat) : Nat :=
  (l.filter (· != 0)).foldl (fun a c => if a == 0 || causePriority c < causePriority a then c else a) 0

/-- A hold of n cycles of a bank meets one of a list of holds. -/
def meetsHold (l : List Hold) (b first n : Nat) : Bool := l.any (fun h => h.bank == b && h.first < first + n && first ≤ h.last)

/-- What a bank's pause makes of a request: a wake is BANK_RET, every other pause HANDOVER (R87, R105). -/
def pauseCause (s : State) (b : Nat) : Nat :=
  match pauseOf s b with
  | none => 0
  | some p => match p.kind with | .wake _ => 3 | _ => 5

/-- A port-B lock covers an access of a hold: line i of the block is accessed in cycle i of the hold (R69). -/
def lockCause (s : State) (x : Slot) (h : Nat × Nat) : Nat :=
  let lines := ((x.bankEnds s).filter (fun e => taPkgBank e.1 == h.1)).flatMap (fun e => linesOf e.1 x.len)
  if s.fabric.locks.any (fun l => lines.contains l.line && l.first ≤ h.2 + l.line % 4 && h.2 + l.line % 4 ≤ l.first + 2)
  then 4 else 0

/-- What blocks a local route. -/
def blockCause (s : State) (x : Slot) (path holds : List (Nat × Nat)) : Nat :=
  if path.any (fun r => frozen s r.1) then 6
  else firstCause (
    holds.map (fun h => pauseCause s h.1) ++ holds.map (lockCause s x)
    ++ holds.map (fun h => if meetsHold s.fabric.holds h.1 h.2 4 then 1 else 0)
    ++ path.map (fun r => if isBooked s r.1 r.2 then 2 else 0))

/-! ### Visitor windows (R468) -/

/-- Step of a visitor candidate (R468): the holder of the from-core position with a read, the holder of the toward-core
position with a write, oldest-first, rotating. `rot` are the rotating orders, `port` the core port. -/
def visitorRank (s : State) (rot : SMap (List Nat)) (port : Nat) (c : Cand) : List Nat :=
  match c.path.head? with
  | some r =>
    if holds? s c r then
      [if r.1 % 2 == 1 then 0 else 1, c.slot.arrive, (match c.slot.ctx with | some c => ctxSlot c | none => 0), c.slot.id]
    else 2 :: rankOf rot (visitorKey (port / 512) (port % 512)) false c
  | none => [3]

/-- The first of a list of candidates by a rank. -/
def firstBy (rank : Cand → List Nat) (l : List Cand) : Option Cand :=
  l.foldl (fun acc c => match acc with
    | none => some c
    | some a => if lexLt (rank c) (rank a) then some c else some a) none

/-- The candidates that hold the window of core port `port`, in its order. -/
def windowHolder (s : State) (rot : SMap (List Nat)) (port : Nat) (cands : List Cand) : Option Cand :=
  firstBy (visitorRank s rot port) (cands.filter (fun c => c.window == some port &&
    (match c.path.head? with | some r => holds? s c r | none => false)))

/-- The candidate that the visitor arbiter of a core port takes: the first holder, or nobody where it cannot be served; with no holder
the first that can be booked (R468). -/
def windowWinner (s : State) (rot : SMap (List Nat)) (port : Nat) (cands : List Cand) : Option Cand :=
  match windowHolder s rot port cands with
  | some c => if c.cause == 0 then some c else none
  | none => firstBy (visitorRank s rot port) (cands.filter (fun c => c.window == some port && c.cause == 0))

/-! ### One contest (R98, R105, R106) -/

/-- The candidate is a visitor and its window goes to another, or to nobody. -/
def windowLost (s : State) (rot : SMap (List Nat)) (cands : List Cand) (c : Cand) : Bool :=
  match c.window with
  | some port => windowWinner s rot port cands != some c
  | none => false

/-- The candidate that wins a position of a segment: of the holder's requests the first that can be booked, and nobody where
none can; with no holder's request the highest ranked that can be booked. A visitor stands for its own window's position only as the
winner of that window. -/
def winnerAt (s : State) (rot : SMap (List Nat)) (key : Nat → Cand → List Nat) (cands : List Cand) (r : Nat × Nat) : Option Cand :=
  let users := cands.filter (fun c => c.path.contains r && !(c.path.head? == some r && windowLost s rot cands c))
  let holders := users.filter (fun c => holds? s c r)
  let pool := if holders.isEmpty then users else holders
  firstBy (key r.1) (pool.filter (fun c => c.cause == 0))

/-- The candidates that win on every segment of their routes (R98). -/
def contest (s : State) (rot : SMap (List Nat)) (key : Nat → Cand → List Nat) (cands : List Cand) : List Cand :=
  cands.filter (fun c => c.cause == 0 && !windowLost s rot cands c && c.path.all (fun r => winnerAt s rot key cands r == some c))

/-- Winners in an order in which no two hold one bank at the same time. Of two winners of one cycle whose routes lie on other segments
and hold one bank in the same cycles, the one that comes first among the requests is granted (DESIGN CHOICE, log 43). -/
def disjointHolds : List Cand → List Hold → List Cand
  | [], _ => []
  | c :: rest, taken =>
    if c.holds.any (fun h => meetsHold taken h.1 h.2 4) then disjointHolds rest taken
    else c :: disjointHolds rest (taken ++ c.holds.map (fun h => ⟨h.1, h.2, h.2 + 3, c.slot.ident, c.slot.id⟩))

/-- The positions that pass empty after a contest, as bookings of no transfer: those whose winner is not granted (R98), and, marked by
class 3, those whose holder requests them in vain (R105). -/
def emptyPositions (s : State) (rot : SMap (List Nat)) (key : Nat → Cand → List Nat) (cands granted : List Cand) : List Booking :=
  ((cands.flatMap (·.path)).eraseDups).filterMap (fun r =>
    if isBooked s r.1 r.2 || granted.any (fun c => c.path.contains r) then none
    else if cands.any (fun c => c.path.contains r && holds? s c r) then some ⟨r.1, r.2, 0, 3⟩
    else (winnerAt s rot key cands r).map (fun c => ⟨r.1, r.2, 0, clsNo c.slot.cls⟩))

/-- One request for each stream group at a granting segment, or at the visitor windows of a core port: the oldest, of equal age the one
of the lower context slot (R176, R106). -/
def oneEach (s : State) (l : List Slot) : List Slot :=
  let place := fun (x : Slot) => (x.grantSeg s).map (fun g => if segKind g == 1 then g / 2 else g)
  l.filter (fun x => !(0x400 ≤ x.ident % 4096 && x.ident % 4096 < 0x800) || !l.any (fun y =>
    y.id != x.id && y.ident == x.ident && place y == place x &&
    lexLt [y.arrive, (match y.ctx with | some c => ctxSlot c | none => 0), y.id]
          [x.arrive, (match x.ctx with | some c => ctxSlot c | none => 0), x.id]))

/-! ### What a reserved position counts (R105, R135) -/

/-- The outcome of a reserved position for its holder's requests: a hit, a frozen miss, or a squall; a position lost to another winner
of the decision, on a segment or by its bank hold, is a route conflict (the second DESIGN CHOICE, log 43). -/
def resvOutcome (s : State) (cands granted : List Cand) (r : Nat × Nat) : State :=
  let mine := cands.filter (fun c => c.path.contains r && holds? s c r)
  let d := segDie r.1
  let sg := r.1 % 65536
  match mine.find? (fun c => granted.contains c) with
  | some c =>
    let s1 := segCount s d sg 6
    if c.holds.any (fun h => asleep s h.1) && (slotVerdict s c.slot).code == 0 then raiseSquall s1 r.1 r.2 3 c.slot.ident
    else s1
  | none =>
    match mine.head? with
    | none => s
    | some c => if c.cause == 6 then segCount s d sg 13 else raiseSquall s r.1 r.2 (if c.cause == 0 then 2 else c.cause) c.slot.ident

/-- The reserved positions that the candidates use and no transfer has booked before, in ascending order of segment (R130). Of a visitor
window's positions that of the first holder alone (R468). -/
def resvPositions (s : State) (rot : SMap (List Nat)) (cands : List Cand) : List (Nat × Nat) :=
  sortBy (fun a b => lexLt [a.1, a.2] [b.1, b.2]) (((cands.flatMap (fun c => c.path.filter (fun r => holds? s c r
    && !(c.path.head? == some r && (match c.window with | some port => windowHolder s rot port cands != some c | none => false))
    && !s.fabric.booked.any (fun b => b.seg == r.1 && b.pos == r.2 && (b.cls == 3
      || s.fabric.slots.any (fun x => x.id == b.slot && x.ident == c.slot.ident))))))).eraseDups)

/-- A reserved position that its holder does not request in its decision: a frozen miss on a frozen segment, else decided as
best effort and counted in RESV_FREE. A position that its holder has booked already, has asked for in vain, or that the ring plan has
decided counts nothing here. -/
def resvUnused (s : State) (cands : List Cand) (r : Nat × Nat) : State :=
  match holderOf s r.1 r.2 with
  | none => s
  | some h =>
    let asked := cands.any (fun c => c.path.contains r && c.slot.ident == h)
    let booked := s.fabric.booked.any (fun b => b.seg == r.1 && b.pos == r.2
      && (b.cls == 3 || s.fabric.slots.any (fun x => x.id == b.slot && x.ident == h)))
    if asked || booked || s.fabric.planResv.any (fun q => q.seg == r.1 && q.pos == r.2) then s
    else if frozen s r.1 then segCount s (segDie r.1) (r.1 % 65536) 13
    else segCount s (segDie r.1) (r.1 % 65536) 7

/-- The reserved positions number k of a die that its position decisions account for: those of core ports belong to the
visitor windows (R104, R468). -/
def resvOfDie (s : State) (d p : Nat) : List (Nat × Nat) :=
  s.regs.filterMap (fun e => match keyReg s e.1 with
    | some (e', .slotResv sg k) => if e' == d && k == p % 128 && bit e.2 31 && sg / 512 % 8 != 1 then some (d * 65536 + sg, p) else none
    | _ => none)

/-! ### Tenures (R110) -/

/-- LIMIT + 1 of a master (R109). -/
def burstSlots (s : State) (ident : Nat) : Nat := rf s (ident / 4096) (.burstLimit (ident % 4096)) 0 6 + 1

/-- Why a tenure ends at the boundary before position p of its segment: 14 TENURE_LIMIT, 15 TENURE_OTHER, 0 not at all. -/
def tenureEnd (s : State) (cands : List Cand) (sg p : Nat) (t : Tenure) : Nat :=
  let mine := cands.filter (fun c => c.slot.ident == t.holder && c.path.head? == some (sg, p))
  if burstSlots s t.holder ≤ t.moved then 14
  else if mine.isEmpty || frozen s sg || t.revoked
      || cands.any (fun c => c.path.contains (sg, p) && holds? s c (sg, p) && c.slot.ident != t.holder)
      || (!t.demotedAtStart && demoted s t.holder false)
      || !mine.any (fun c => c.cause == 0) then 15
  else 0

/-- The tenures of a die whose next boundary is position p: those of p's class, and those of segments without a class
split. -/
def tenuresAt (s : State) (d p : Nat) : List (Nat × Tenure) :=
  (s.fabric.tenures.filter (fun e => segDie (e.1 / 4) == d && (e.1 % 4 == 3 || e.1 % 4 == posClass p)))

/-- Tenures that end at the boundary before position p. -/
def endTenures (s : State) (cands : List Cand) (d p : Nat) : State :=
  (tenuresAt s d p).foldl (fun s e =>
    let sg := e.1 / 4
    match tenureEnd s cands sg p e.2 with
    | 0 => s
    | i => segCount (s.onFabric (fun f => { f with tenures := SMap.erase f.tenures e.1 })) d (sg % 65536) i) s

/-- The candidate continues the tenure of its granting segment. -/
def continues (s : State) (c : Cand) (sg : Nat) : Bool :=
  match c.path.head?, SMap.find s.fabric.tenures (orderKey sg (clsNo c.slot.cls)) with
  | some h, some t => h.1 == sg && t.holder == c.slot.ident
  | _, _ => false

/-- A store whose core does not give its data: a position that it wins passes empty, and the carrel switch waits (R110, R114; log
50). -/
def Slot.dry (x : Slot) : Bool :=
  match x.kind with
  | .plain | .cacheAcc _ => x.write && decide (x.data.length < x.len)
  | _ => false

/-- What a win does to the rotating orders and to the tenure of the granting segment (R107, R110). A position reserved to the winner
moves no rank and starts no tenure; a slot moved in it counts in the tenure that the winner holds there. A position that passes empty
counts nothing. -/
def noteWin (s : State) (c : Cand) : State :=
  let x := c.slot
  let n := if x.dry then 0 else 1
  c.path.foldl (fun s r =>
    let k := orderKey r.1 (clsNo x.cls)
    let granting := c.path.head? == some r
    let held := match SMap.find s.fabric.tenures k with
      | some t => if t.holder == x.ident && granting then some t else none
      | none => none
    let moved := fun (t : Tenure) => { t with moved := t.moved + n, since := if x.dry then t.since else s.now }
    if holds? s c r then
      match held with
      | some t => if c.window.isSome then s else s.onFabric (fun f => { f with tenures := SMap.set f.tenures k (moved t) })
      | none => s
    else match granting, c.window with
      | true, some port =>
        s.onFabric (fun f => { f with rotation := moveLast f.rotation (visitorKey (port / 512) (port % 512)) x.ident })
      | _, _ =>
        let cont := continues s c r.1
        let s1 := if cont then s else s.onFabric (fun f => { f with rotation := moveLast f.rotation k x.ident })
        if granting then
          let t := match held with
            | some t => moved t
            | none => ⟨x.ident, n, s.now, demoted s x.ident false, false⟩
          s1.onFabric (fun f => { f with tenures := SMap.set f.tenures k t })
        else s1) s

/-! ### Local decisions (R97, R98) -/

/-- The lane of a new route: lane 0; a local route crosses none. -/
def localLane : Nat := 0

/-- A local request as a candidate for position p of its granting segment. -/
def candOf (s : State) (x : Slot) (g p : Nat) : Cand :=
  let path := x.path s localLane g p
  let holds := holdsOf s x path
  { slot := x, window := if x.visitor s then some (segDie g * 512 + g / 4096 % 16 * 32 + g / 2 % 256) else none,
    path := path, holds := holds, cause := blockCause s x path holds, age := ageOf s x,
    demoted := demoted s x.ident (decide (s.frame / 16 < p / 2048)) }

/-- A request that stands at a framed arbiter. -/
def atArbiter (s : State) (x : Slot) : Bool := x.stage == .waiting && x.presented && !x.ownCarrel s && sealOk s x

/-- The local requests that the decision of position p on die d considers. -/
def localRequests (s : State) (d p : Nat) : List Slot :=
  s.fabric.slots.filter (fun x => atArbiter s x && !x.crossDie s && !x.visitor s && (match x.grantSeg s with
    | some g => segDie g == d && (!segSplit g || posClass p == clsNo x.cls)
    | none => false))

/-- The visitor requests of the die's windows at position p: the bank of window j. -/
def visitorRequests (s : State) (d p : Nat) : List Slot :=
  s.fabric.slots.filter (fun x => atArbiter s x && !x.crossDie s && x.visitor s && (match x.grantSeg s with
    | some g => segKind g == 1 && segDie g == d && carrelAt s x g == some (p % 16 / 4)
    | none => false))

/-- One winner granted: its path booked, its holds taken, its slot moved. A store without data leaves its positions empty. -/
def grantCand (s : State) (p : Nat) (c : Cand) : State :=
  let resv := match c.path.head? with | some r => holds? s c r | none => false
  let s1 := noteWin s c
  if c.slot.dry then s1.onFabric (fun f => { f with booked := f.booked ++ c.path.map (fun r => ⟨r.1, r.2, 0, clsNo c.slot.cls⟩) })
  else
    let s2 := bookRoute s1 c.slot c.path
    grantSlot s2 c.slot (c.holds.map (fun h => (h.1, h.2, 4))) false true (decide (s.frame / 16 < p / 2048)) resv

/-- A request with no granting segment: both ends stand at the hub. It holds no position and moves at once. -/
def hubRequests (s : State) (d : Nat) : List Slot :=
  s.fabric.slots.filter (fun x => atArbiter s x && !x.crossDie s && (x.grantSeg s).isNone && (x.origin s).die == d)

/-- Slots that the ring plan has granted for position p of the granting segments that `mine` picks (R99). -/
def plannedAt (s : State) (mine : Nat → Bool) (p : Nat) : List Slot :=
  s.fabric.slots.filter (fun x => x.stage == .planned && (match x.grantSeg s with
    | some g => mine g && s.fabric.booked.any (fun b => b.slot == x.id && b.seg == g && b.pos == p)
    | none => false))

/-- The bank holds that a planned slot has booked, and what lets it not be granted: a bank that is paused, a lock over its hold (R69, R72,
R87). -/
def plannedHolds (s : State) (x : Slot) : List (Nat × Nat) :=
  (s.fabric.holds.filter (fun h => h.slot == x.id)).map (fun h => (h.bank, h.first))

def plannedCause (s : State) (x : Slot) : Nat :=
  firstCause ((plannedHolds s x).map (fun h => pauseCause s h.1) ++ (plannedHolds s x).map (lockCause s x))

/-- The grant of a planned slot wakes a bank (R86). -/
def plannedWakes (s : State) (x : Slot) : Bool :=
  (slotVerdict s x).code == 0 && (x.bankEnds s).any (fun e => asleep s (taPkgBank e.1))

/-- What becomes of a planned slot's reserved positions is kept for their own decision cycles. -/
def markOutcomes (s : State) (id : Nat) (f : PlanResv → PlanResv) : State :=
  s.onFabric (fun k => { k with planResv := k.planResv.map (fun q => if q.slot == id then f q else q) })

/-- A planned slot at its decision cycle: granted, its positions and holds booked since the plan came into force (R99). Where a bank is
paused or a lock covers its hold nothing is granted: its positions pass empty, and its request waits again. -/
def grantPlanned (s : State) (p : Nat) (x : Slot) : State :=
  let cause := plannedCause s x
  if cause != 0 then
    markOutcomes (slotMod (dropBooked s x.id) x.id (fun y => { y with stage := .waiting, resv := false })) x.id
      (fun q => { q with cause := cause })
  else if x.dry then slotMod (dropBooked s x.id) x.id (fun y => { y with stage := .waiting, resv := false })
  else
    grantSlot (if plannedWakes s x then markOutcomes s x.id (fun q => { q with wake := true }) else s) x
      ((plannedHolds s x).map (fun h => (h.1, h.2, 4))) true true (decide (s.frame / 16 < p / 2048)) x.resv

/-- What a reserved position of the plan turns out to be; that of a slot whose grant another die decides in this same cycle is foreseen. -/
def planOutcome (s : State) (q : PlanResv) : PlanResv :=
  match s.fabric.slots.find? (fun x => x.id == q.slot && x.stage == .planned) with
  | some x => { q with cause := plannedCause s x, wake := plannedWakes s x }
  | none => q

/-- What the ring plan has made of the reserved positions p that `mine` picks, counted in their decision cycle: a hit, with a squall
where it wakes a bank; a frozen miss; or a squall (R99, R105, R135). -/
def planOutcomes (s : State) (mine : Nat → Bool) (p : Nat) : State :=
  let now := sortBy (fun (a b : PlanResv) => a.seg ≤ b.seg) (s.fabric.planResv.filter (fun q => q.pos == p && mine q.seg))
  let s1 := s.onFabric (fun f => { f with planResv := f.planResv.filter (fun q => !(q.pos == p && mine q.seg)) })
  (now.map (planOutcome s)).foldl (fun s q =>
    let d := segDie q.seg
    if q.cause == 0 then
      let s2 := segCount s d (q.seg % 65536) 6
      if q.wake then raiseSquall s2 q.seg q.pos 3 q.ident else s2
    else if q.cause == 6 then segCount s d (q.seg % 65536) 13
    else raiseSquall s q.seg q.pos q.cause q.ident) s1

/-- The part of a die's decision cycle that a command carries out: the position decision, or the window of one core port. -/
inductive Part where
  | position
  | window (port : Nat)
deriving DecidableEq, Repr

/-- The candidate belongs to a part. -/
def Cand.partOf (c : Cand) : Part :=
  match c.window with
  | some port => .window port
  | none => .position

/-- Where the last window decided at a core port is kept. -/
def windowKey (d core : Nat) : Nat := 64 + d * 512 + core

/-- The local requests of one decision cycle of a die: those for position p, which the position decision considers, and where a window
begins with position p - 2 those of its visitors (R75, R97). Only parts that are not decided yet take part; a request that is to be
refused without a position takes none. -/
def cycleCands (s : State) (d p : Nat) : List Cand :=
  let open' := fun (x : Slot) => (earlyRefusal s x).isNone
  let at' := fun (l : List Slot) (p : Nat) => (oneEach s (l.filter open')).filterMap (fun x => (x.grantSeg s).map (fun g => candOf s x g p))
  let pos := if decidedTo s d ≤ p then at' (localRequests s d p) p else []
  let win := if 2 ≤ p && (p - 2) % 4 == 0 then (at' (visitorRequests s d (p - 2)) (p - 2)).filter (fun c => match c.window with
      | some port => decide (SMap.get s.fabric.decided (windowKey (port / 512) (port % 512)) 0 ≤ p - 2)
      | none => false)
    else []
  pos ++ win

/-- The contest of candidates on state s: the tenures that end, the positions that pass empty, the reserved positions accounted for, and
the candidates that are granted (R98, R105, R110). -/
def holdContest (s : State) (d p : Nat) (cands : List Cand) : State × List Cand :=
  let s1 := endTenures s (cands.filter (fun c => c.window.isNone)) d p
  let key := fun (sg : Nat) (c : Cand) => rankOf s1.fabric.rotation (orderKey sg (clsNo c.slot.cls)) (continues s1 c sg) c
  let granted := disjointHolds (contest s1 s1.fabric.rotation key cands) []
  let empty := emptyPositions s1 s1.fabric.rotation key cands granted
  let s2 := (resvPositions s1 s1.fabric.rotation cands).foldl (fun s r => resvOutcome s cands granted r) s1
  (s2.onFabric (fun f => { f with booked := f.booked ++ empty }), granted)

/-- One part of the decision cycle of position p on die d (R97, R98). All routes of the cycle are decided together: the first of its
commands holds the contest of all, grants the winners of its own part, and leaves those of the others to theirs. A request that has
come since takes part with what is left. -/
def decidePart (s : State) (d p : Nat) (mine : Part) : State :=
  let own := fun (c : Cand) => c.partOf == mine
  let cands := cycleCands s d p
  let before := match s.fabric.joint with
    | some j => if j.die = d && j.cycle = s.now then some j else none
    | none => none
  match before with
  | none =>
    let r := holdContest s d p cands
    let left := r.2.filter (fun c => !own c)
    let s1 := r.1.onFabric (fun f => { f with joint := some ⟨d, s.now, cands.map (fun c => c.slot.id), left.map (fun c => c.slot.id)⟩ })
    (r.2.filter own).foldl (fun s c => grantCand s (match c.window with | some _ => p - 2 | none => p) c) s1
  | some j =>
    let won := cands.filter (fun c => own c && j.won.contains c.slot.id)
    let s1 := won.foldl (fun s c => grantCand s (match c.window with | some _ => p - 2 | none => p) c) s
    let late := (cycleCands s1 d p).filter (fun c => own c && !j.took.contains c.slot.id)
    if late.isEmpty then s1
    else
      let r := holdContest s1 d p late
      r.2.foldl (fun s c => grantCand s (match c.window with | some _ => p - 2 | none => p) c) r.1

/-- The requests that a part refuses without a position (R115, R356). -/
def refuseFirst (s : State) (l : List Slot) : State :=
  l.foldl (fun s x => match earlyRefusal s x with | some st => refuseEarly s x st | none => s) s

/-- The decision of position p on the segments of die d, in its decision cycle (R97, R98). -/
def decidePosition (s : State) (d p : Nat) : State :=
  let frame := fun (g : Nat) => segDie g == d && segKind g != 1
  let s1 := planOutcomes ((plannedAt s frame p).foldl (fun s x => grantPlanned s p x) s) frame p
  let s2 := refuseFirst s1 (localRequests s1 d p ++ hubRequests s1 d)
  let s3 := (hubRequests s2 d).foldl (fun s x => grantSlot s x [] false false false false) s2
  let s4 := (resvOfDie s3 d p).foldl (fun s r => resvUnused s (cycleCands s3 d p) r) s3
  decidePart s4 d p .position

/-- Absolute position that a die's decision for position k concerns in this frame: positions 0 and 1 of the next frame are
decided in this one (R97). -/
def positionOf (s : State) (k : Nat) : Nat := if 2 ≤ k then s.frame * 128 + k else (s.frame + 1) * 128 + k

/-- POSITION_DECISION. -/
def execPositionDecision (d : Die) (k : BitVec 7) (s : State) : Host.Outcome State Fault Refusal :=
  let p := positionOf s k.toNat
  act s [d.toNat]
    (if s.now ≤ 2 * p - 4 && decidedTo s d.toNat ≤ p then
      atCycle s (2 * p - 4) (fun s => presentAll (markDecided (decidePosition s d.toNat p) d.toNat p))
     else s)

/-! ### Visitor windows (R76, R468) -/

/-- One visitor window decided, in its grant cycle (R468). A planned visitor has been granted its window by the ring plan (R99). -/
def decideVisitor (s : State) (d core p : Nat) : State :=
  let port := d * 512 + core
  let from' := segOf d (core / 32) 1 (core % 32) 1
  let toward := segOf d (core / 32) 1 (core % 32) 0
  let mine := fun (g : Nat) => g == from' || g == toward
  let s1 := planOutcomes ((plannedAt s mine p).foldl (fun s x => grantPlanned s p x) s) mine p
  let here := fun (s : State) => (visitorRequests s d p).filter (fun x => match x.grantSeg s with | some g => mine g | none => false)
  let s2 := refuseFirst s1 (here s1)
  let s3 := [from', toward].foldl (fun s g => resvUnused s (cycleCands s2 d (p + 2)) (g, p)) s2
  decidePart s3 d (p + 2) (.window port)

/-- VISITOR_DECISION. -/
def execVisitorDecision (d : Die) (core : CoreNo) (k : BitVec 7) (s : State) : Host.Outcome State Fault Refusal :=
  let p := s.frame * 128 + k.toNat
  let key := windowKey d.toNat core.toNat
  act s [d.toNat]
    (if k.toNat % 4 = 0 && s.now ≤ 2 * p && SMap.get s.fabric.decided key 0 ≤ p then
      atCycle s (2 * p) (fun s =>
        let s1 := decideVisitor s d.toNat core.toNat p
        presentAll (s1.onFabric (fun f => { f with decided := SMap.set f.decided key (p + 1) })))
     else s)

/-! ### The carrel switch (R73) -/

/-- The oldest own-carrel access of an owner port. -/
def ownerRequest (s : State) (d core : Nat) (port : OwnerPort) : Option Slot :=
  (sortBy (fun a b => a.arrive < b.arrive || (a.arrive == b.arrive && a.id ≤ b.id))
    (s.fabric.slots.filter (fun x => x.stage == .waiting && x.presented && x.ownCarrel s && x.port == port
      && x.ident == identOf d core))).head?

/-- An owner port that ranks above requests the same bank. -/
def outranked (s : State) (x : Slot) (b : Nat) : Bool :=
  s.fabric.slots.any (fun y => y.id != x.id && y.stage == .waiting && y.presented && y.ownCarrel s
    && portRank y.port < portRank x.port && (match carrelPlace s y with | some p => p.1 == b | none => false))

/-- The whole hold of an owner access granted in cycle c is free of holds and outside the visitor block (R73). -/
def ownerFree (s : State) (b n c : Nat) : Bool :=
  (List.range n).all (fun i => !bankHeld s b (c + 1 + i)) && !meetsVisitors b n c

/-- CARREL_SWITCH_GRANT: the oldest access of the port, in the first cycle of the frame in which it can be granted. A wake or
another pause of the bank lets nothing through (R72, R87). -/
def execCarrelSwitchGrant (d : Die) (core : CoreNo) (port : OwnerPort) (s : State) : Host.Outcome State Fault Refusal :=
  act s [d.toNat]
    (match ownerRequest s d.toNat core.toNat port with
     | none => s
     | some x =>
       if !stillHit s x then presentAll (cacheTry (uncache s x) x.id) else
       match carrelPlace s x with
       | none => s
       | some (b, n) =>
         match earlyRefusal s x with
         | some st => refuseEarly s x st
         | none =>
           if x.dry || outranked s x b || (pauseOf s b).isSome || levelChanging s d.toNat || rootStopped s || dieStopped s d.toNat then s
           else
             match ((List.range (frameEnd s - s.now)).map (· + s.now)).find? (ownerFree s b n) with
             | none => s
             | some c =>
               let s1 := advanceTo s c
               presentAll (grantSlot s1 x [(b, c + 1, n)] false false false false))

/-! ### The ring plan (R99) -/

/-- The cross-die requests at the ring stop of a die. -/
def stopRequests (s : State) (d : Nat) : List Slot :=
  s.fabric.slots.filter (fun x => atArbiter s x && x.crossDie s && x.ident / 4096 == d)

/-- Dies that a slot's route touches. -/
def Slot.diesOf (s : State) (x : Slot) : List Nat := ((x.origin s).die :: (x.dests s).map (·.die)).eraseDups

/-- A die whose inputs a collection takes: open, and in the ring plan since the fourth frame after its opening; a new frame
master books nothing before its frame 8 (R426, R428, R430). -/
def inPlan (s : State) (d : Nat) : Bool :=
  dieOpen s d && (bootOf s d).openedFrame + (if (bootOf s d).master then 5 else 4) ≤ s.frame

/-- A cross-die request whose route has an end on a die with a closed bypass is refused in its collection frame (R430). -/
def closedEnd (s : State) (x : Slot) : Bool := (x.diesOf s).any (fun e => !dieOpen s e)

/-- The 128 requests that a stop collects: the oldest, between equal ages the lower identity (R99). -/
def collectOf (s : State) (d : Nat) : List Collected :=
  let l := (stopRequests s d).filter (fun x => (x.diesOf s).all (inPlan s))
  let order := sortBy (fun (a b : Slot) => b.ringAge < a.ringAge || (a.ringAge == b.ringAge &&
    (a.ident < b.ident || (a.ident == b.ident && a.id ≤ b.id)))) l
  (order.take 128).map (fun x => ⟨x.id, x.ringAge, demoted s x.ident false, x.ident⟩)

/-- The segments of a die frozen now. -/
def frozenOf (s : State) (d : Nat) : List Nat :=
  s.regs.filterMap (fun e => match keyReg s e.1 with
    | some (e', .segCtl sg) => if e' == d && bit e.2 0 then some (d * 65536 + sg) else none
    | _ => none)

/-- The plan while it is computed: its grants, the outcomes of reserved positions, the positions that pass empty, its bookings, its bank
holds, its rotating orders, and the guests' counts and entries in the window of its frame. -/
structure Drawing where
  granted : List Planned
  outcomes : List PlanResv
  empty : List Booking
  booked : List (Nat × Nat)
  holds : List Hold
  rotation : SMap (List Nat)
  guests : SMap Nat
  entries : List (Nat × Nat × Nat)
deriving DecidableEq, Repr

/-- A position that the plan can book no more. -/
def Drawing.taken (w : Drawing) (s : State) (r : Nat × Nat) : Bool :=
  w.booked.contains r || w.empty.any (fun b => b.seg == r.1 && b.pos == r.2) || isBooked s r.1 r.2

/-- What blocks a route in the plan. A closed bypass has been excluded at collection. -/
def planCause (s : State) (frozenSegs : List Nat) (w : Drawing) (path holds : List (Nat × Nat)) : Nat :=
  if path.any (fun r => frozenSegs.contains r.1) then 6
  else firstCause (holds.map (fun h => if meetsHold (s.fabric.holds ++ w.holds) h.1 h.2 4 then 1 else 0)
    ++ path.map (fun r => if w.taken s r then 2 else 0))

/-- The lane of a cross-die route: the first of a free order in which the route can be booked (log 14). -/
def planLane (s : State) (frozenSegs : List Nat) (w : Drawing) (x : Slot) (g p : Nat) : Nat :=
  let first := Config.pick s.draws 43 % 43
  let lanes := (List.range 43).map (fun i => (first + i) % 43)
  (lanes.find? (fun l => let path := x.path s l g p; planCause s frozenSegs w path (holdsOf s x path) == 0)).getD first

/-- A guest over its budget within the plan's window: demoted on the routes whose granting segment lies on the entry's die (R128). -/
def Drawing.guestOver (w : Drawing) (d ident : Nat) : Bool :=
  w.entries.any (fun e => e.1 / 32 == d && e.2.1 == ident && e.2.2 != 0xFFFF && e.2.2 < SMap.get w.guests e.1 0)

/-- A collected request as a candidate for position p of its granting segment. -/
def planCand (s : State) (w : Drawing) (q : Collected) (x : Slot) (g p : Nat) : Cand :=
  let frozenSegs := s.fabric.plan.frozen
  let path := x.path s (planLane s frozenSegs w x g p) g p
  let holds := holdsOf s x path
  { slot := x, window := if x.visitor s then some (segDie g * 512 + g / 4096 % 16 * 32 + g / 2 % 256) else none,
    path := path, holds := holds, cause := planCause s frozenSegs w path holds, age := q.age,
    demoted := q.demoted || w.guestOver (segDie g) x.ident }

/-- The candidates that the plan decides together: those for position p, and where a window begins with position p - 2 its visitors, as
the decisions of one cycle (R75, R97). -/
def planCands (s : State) (w : Drawing) (p : Nat) : List Cand :=
  s.fabric.plan.requests.filterMap (fun q =>
    if w.granted.any (fun a => a.slot == q.slot) then none
    else match s.fabric.slots.find? (fun x => x.id == q.slot && x.stage == .waiting) with
      | none => none
      | some x =>
        match x.grantSeg s with
        | none => none
        | some g =>
          match carrelAt s x g with
          | some j => if 2 ≤ p % 128 && (p - 2) % 16 == 4 * j then some (planCand s w q x g (p - 2)) else none
          | none => if !segSplit g || posClass p == clsNo x.cls then some (planCand s w q x g p) else none)

/-- The outcome of a reserved position that candidates of the plan ask for. -/
def planResvOf (s : State) (cands granted : List Cand) (r : Nat × Nat) : Option PlanResv :=
  let mine := cands.filter (fun c => c.path.contains r && holds? s c r)
  match mine.find? (fun c => granted.contains c), mine.head? with
  | some c, _ => some ⟨r.1, r.2, c.slot.id, c.slot.ident, 0, false⟩
  | none, some c => some ⟨r.1, r.2, 0, c.slot.ident, if c.cause == 0 then 2 else c.cause, false⟩
  | none, none => none

/-- What the grant of a candidate of the plan adds to it; it counts as a slot of its master's guest entries on the die of its granting
segment (R128). -/
def Drawing.grant (s : State) (w : Drawing) (c : Cand) : Drawing :=
  let die := match c.path.head? with | some r => segDie r.1 | none => 0
  { w with
    granted := w.granted ++ [⟨c.slot.id, (match c.path.head? with | some r => r.2 | none => 0), c.path,
      (match c.path.head? with | some r => holds? s c r | none => false)⟩],
    booked := w.booked ++ c.path,
    holds := w.holds ++ c.holds.map (fun h => ⟨h.1, h.2, h.2 + 3, c.slot.ident, c.slot.id⟩),
    rotation := (c.path.filter (fun r => !holds? s c r)).foldl (fun t r =>
      match c.path.head? == some r, c.window with
      | true, some port => moveLast t (visitorKey (port / 512) (port % 512)) c.slot.ident
      | _, _ => moveLast t (orderKey r.1 (clsNo c.slot.cls)) c.slot.ident) w.rotation,
    guests := (w.entries.filter (fun e => e.1 / 32 == die && e.2.1 == c.slot.ident)).foldl (fun m e => SMap.upd m e.1 0 (· + 1)) w.guests }

/-- One decision of the plan, by the rules of a local one, with carried age and demotion and without tenures (R99, R105, R468). -/
def planPosition (s : State) (w : Drawing) (p : Nat) : Drawing :=
  let cands := planCands s w p
  let key := fun (sg : Nat) (c : Cand) => rankOf w.rotation (orderKey sg (clsNo c.slot.cls)) false c
  let granted := disjointHolds (contest s w.rotation key cands) []
  let fresh := fun (r : Nat × Nat) => !w.taken s r
  let outcomes := ((resvPositions s w.rotation cands).filter fresh).filterMap (planResvOf s cands granted)
  let empty := (emptyPositions s w.rotation key cands granted).filter (fun b => fresh (b.seg, b.pos))
  granted.foldl (Drawing.grant s) { w with outcomes := w.outcomes ++ outcomes, empty := w.empty ++ empty }

/-- The plan's frame lies in the window after the one whose edge has passed. -/
def planNextWindow (s : State) : Bool := decide (s.fabric.window < (s.fabric.plan.frame + 3) / 16)

/-- The plan at the start of its computation. -/
def emptyDrawing (s : State) : Drawing :=
  { granted := [], outcomes := [], empty := [], booked := [], holds := [], rotation := s.fabric.plan.rotation,
    guests := if planNextWindow s then s.fabric.guestNext else s.fabric.guestCount,
    entries := guestsIn (if planNextWindow s then guestsAfterEdge s else s.fabric.guests) }

/-- The plan computed: every position of frame F + 3 in turn. Its grants leave the arbiters, and it counts its guests in the window of
its frame (R99, R119, R128). -/
def computePlan (s : State) : State :=
  let plan := s.fabric.plan
  match plan.granted with
  | some _ => s
  | none =>
    let w := (List.range 128).foldl (fun w k => planPosition s w ((plan.frame + 3) * 128 + k)) (emptyDrawing s)
    let s1 := s.onFabric (fun f => { f with
      plan := { f.plan with requests := [], dies := [], frozen := [], granted := some w.granted, outcomes := w.outcomes, empty := w.empty,
                            rotation := w.rotation },
      guestNext := if planNextWindow s then w.guests else f.guestNext,
      guestCount := if planNextWindow s then f.guestCount else w.guests,
      slots := f.slots.map (fun x => match w.granted.find? (fun a => a.slot == x.id) with
        | some a => { x with stage := .planned, presented := true, resv := a.reserved }
        | none => x) })
    ((w.entries.map (·.2.1)).eraseDups).foldl (fun t i => noteDemotion s t i) s1.draw

/-- Frame whose positions a computed plan books; none where it decides nothing. -/
def planFrame (p : PlanSt) : Option Nat :=
  match p.granted with
  | some (a :: _) => some (a.pos / 128)
  | _ => (p.empty.head?).map (fun b => b.pos / 128)

/-- A computed plan whose frame of coming into force has gone by (event missed, log 2) grants nothing: its requests wait
again. -/
def dropStale (s : State) : State :=
  match s.fabric.plan.granted with
  | none => s
  | some l =>
    if (match planFrame s.fabric.plan with | some f => decide (f < s.frame + 1) | none => true) then
      let back := fun (x : Slot) => l.any (fun a => a.slot == x.id) && x.stage == .planned
        && !s.fabric.booked.any (fun b => b.slot == x.id)
      let slots := s.fabric.slots.map (fun x => if back x then { x with stage := .waiting, resv := false } else x)
      s.onFabric (fun f => { f with plan := { f.plan with granted := none, outcomes := [], empty := [] }, slots := slots })
    else s

/-- RING_PLAN_COLLECT: the stop of a die at the end of the frame. Requests that are fenced, or that name a closed die, are
refused; the plan of an earlier frame is computed first. -/
def execRingPlanCollect (d : Die) (s : State) : Host.Outcome State Fault Refusal :=
  act s [d.toNat]
    (atCycle s (frameEnd s - 1) (fun s =>
      let s0 := dropStale s
      let s1 := if s0.fabric.plan.frame != s0.frame && !s0.fabric.plan.dies.isEmpty then computePlan s0 else s0
      let s2 := if s1.fabric.plan.dies.isEmpty then s1.onFabric (fun f => { f with plan := { f.plan with frame := s.frame } }) else s1
      if s2.fabric.plan.dies.contains d.toNat then s2
      else
        let s3 := (stopRequests s2 d.toNat).foldl (fun s x =>
          if closedEnd s x then refuseEarly s x (stWord Code.fenced)
          else match earlyRefusal s x with | some st => refuseEarly s x st | none => s) s2
        if inPlan s3 d.toNat then
          s3.onFabric (fun f => { f with plan := { f.plan with
            dies := f.plan.dies ++ [d.toNat],
            requests := f.plan.requests ++ collectOf s3 d.toNat,
            frozen := f.plan.frozen ++ frozenOf s3 d.toNat } })
        else s3))

/-- The positions and bank holds of a computed plan booked, its empty positions among them, and its outcomes kept for their decision
cycles (R99, R105). -/
def bookPlan (s : State) (l : List Planned) : State :=
  let s1 := s.onFabric (fun f => { f with
    plan := { f.plan with granted := none, outcomes := [], empty := [] },
    planResv := f.planResv ++ f.plan.outcomes, booked := f.booked ++ f.plan.empty })
  l.foldl (fun s a =>
    match s.fabric.slots.find? (fun x => x.id == a.slot) with
    | none => s
    | some x =>
      let hs : List Hold := (holdsOf s x a.route).map (fun h => ⟨h.1, h.2, h.2 + 3, x.ident, x.id⟩)
      (bookRoute s x a.route).onFabric (fun f => { f with holds := f.holds ++ hs })) s1

/-- RING_PLAN_IN_FORCE: frame cc 0 of the second frame after the collection. -/
def execRingPlanInForce (s : State) : Host.Outcome State Fault Refusal :=
  act s []
    (if s.now = 256 * s.frame then
      let s1 := if s.fabric.plan.granted.isNone && s.fabric.plan.frame + 2 = s.frame && !s.fabric.plan.dies.isEmpty
        then computePlan s else s
      match s1.fabric.plan.granted with
      | none => s1
      | some l => if (match planFrame s1.fabric.plan with | some f => f == s1.frame + 1 | none => true) then bookPlan s1 l else s1
    else s)

end Sys2Proof.Machine
end

