-- ==== Sys2Proof/Machine/QueueOps.lean ====
section
/-! DEFINITION. The queue engines' operations: port B and its read-modify-writes (R68, R69, R233, R465), slip queues (R240-R244), result
slots (R255-R257), the adds of combining queues (R248-R253). -/

namespace Sys2Proof.Machine

open Sys2Proof

/-! ### Port B (R68, R69, R233, R465) -/

/-- The array cycles of port A on a line that are to come: of granted slots and of flushes (R67, R89). -/
def lineAccs (s : State) (pl : Nat) : List Acc := s.fabric.accs.filter (fun a => a.line == pl)

/-- Port B of a bank has no access in cycle c (R233). -/
def portBFree (s : State) (b c : Nat) : Bool := !s.queues.portB.contains (b, c)

/-- The cycle of a port-B access of a line, from cycle `from'` on in the current frame: the first in which port B is free; for a
read-modify-write one behind every port-A access to the line that was granted before it, free again 2 cc later (R69, R233). -/
def portBCycle (s : State) (pl : Nat) (rmw : Bool) (from' : Nat) : Option Nat :=
  let b := lnBank pl
  let start := max s.now from'
  ((List.range (frameEnd s - start)).map (· + start)).find? (fun c =>
    portBFree s b c && (!rmw || (portBFree s b (c + 2) && (lineAccs s pl).all (fun a => a.cycle < c))))

/-- Port B of a bank is taken now, for a read-modify-write 2 cc later as well. -/
def usePortB (s : State) (b : Nat) (rmw : Bool) : State :=
  s.onQueues (fun q => { q with portB := q.portB.filter (fun e => s.now ≤ e.2) ++ [(b, s.now)] ++ (if rmw then [(b, s.now + 2)] else []) })

/-- The cycles of port B in which a combining add of n lines reads and writes them, from its first: each line a read-modify-write of its
own (R69, R233; DESIGN CHOICE, log 17). -/
def addCycles (n : Nat) : List Nat := ([0, 1, 4, 5].take n).flatMap (fun o => [o, o + 2])

/-- The first cycle from c on in the current frame from which an add of n lines finds port B free. -/
def addCycle (s : State) (b n c : Nat) : Option Nat :=
  ((List.range (frameEnd s - c)).map (· + c)).find? (fun c => (addCycles n).all (fun o => portBFree s b (c + o)))

/-- Port B is taken now for an add of n lines. -/
def useAdd (s : State) (b n : Nat) : State :=
  s.onQueues (fun q => { q with portB := q.portB.filter (fun e => s.now ≤ e.2) ++ (addCycles n).map (fun o => (b, s.now + o)) })

/-- A port-B read-modify-write locks its line from its read now to its write 2 cc later (R69). -/
def lockLine (s : State) (pl : Nat) : State :=
  s.onFabric (fun f => { f with locks := f.locks.filter (fun l => s.now ≤ l.first + 2) ++ [⟨pl, s.now⟩] })

/-- The port-A writes of a line in this cycle take effect before what port B does in it (R68). -/
def meetPortA (s : State) (pl : Nat) : State :=
  ((lineAccs s pl).filter (fun a => a.write && a.cycle ≤ s.now)).foldl applyAcc s

/-- A whole-line write of port B. Where a port-A write of the line falls in the same cycle every byte takes port B's value, and the
collision is counted; a port-A read of this cycle finds the new bytes (R68). -/
def portBWriteLine (s : State) (pl : Nat) (data : List Byte) : State :=
  let both := (lineAccs s pl).any (fun a => a.write && a.cycle == s.now)
  let s1 := meetPortA s pl
  let s2 := if both then clusterCount s1 (pbDie (lnBank pl)) (pbCluster (lnBank pl)) 0 1 else s1
  touchBank (writeWholeLine s2 pl data) (lnBank pl)

/-- A port-B read of a line: its findings recorded, and what it found. A port-A write of the same cycle shows in it (R68). -/
def portBRead (s : State) (pl ident task : Nat) : State × LineRead :=
  let s1 := meetPortA s pl
  let r := readLine s1 pl
  (touchBank (recordFindings s1 (lnBank pl) (classOf s1 (lnFolio pl)).code [r] ident task) (lnBank pl), r)

/-- What a read finds in n bytes of a line: uncorrectable, and corrected. Under BYTE each byte has its own parity bit, under WORD each
word its check byte (R143, R144). -/
def partFound (s : State) (pl off n : Nat) : Bool × Bool :=
  let row := seenBytes s pl
  let words := ((List.range 8).filter (fun i => 8 * i < off + n && off < 8 * i + 8))
  if (classOf s (lnFolio pl)).code != 1 then
    (words.any (fun i => (List.range 8).any (fun j => off ≤ 8 * i + j && 8 * i + j < off + n
      && (row.getD (64 + i) 0).toNat.testBit j != (byteCheck row i).toNat.testBit j)), false)
  else
    let mask := maskOf (mergeOf s pl)
    let found := (words.filter (fun i => !(List.range 8).all (fun j => mask.getD (8 * i + j) false))).map (fun i =>
      wordDecode (wordAt row i) (row.getD (64 + i) 0))
    (found.any (· == .bad), found.any (fun w => match w with | .corrected _ => true | _ => false))

/-- The row after bytes of a line are replaced by a read-modify-write (R465): bytes or words replaced whole take new check
bits; a WORD word replaced in part is merged from its corrected bytes; the rest is written back as read. `none` where such
a word is uncorrectable. -/
def rmwRow (s : State) (pl : Nat) (mask : List Bool) (bytes : List Byte) : Option (List Byte) :=
  let row := seenBytes s pl
  if (classOf s (lnFolio pl)).code != 1 then some (directRow 0 row bytes mask)
  else
    let words := (List.range 8).map (fun i =>
      let m := (mask.drop (8 * i)).take 8
      let w := wordAt row i
      let c := row.getD (64 + i) 0
      let overlay := fun (base : List Byte) =>
        (List.range 8).map (fun j => if m.getD j false then bytes.getD (8 * i + j) 0 else base.getD j 0)
      if !m.any id then some (w, c)
      else if m.all id then some (overlay w, BitVec.ofNat 8 (wordCheck (overlay w)))
      else match wordDecode w c with
        | .clean => some (overlay w, BitVec.ofNat 8 (wordCheck (overlay w)))
        | .corrected f => some (overlay f, BitVec.ofNat 8 (wordCheck (overlay f)))
        | .bad => none)
    if words.any (·.isNone) then none
    else
      let ws := words.filterMap id
      some (ws.flatMap (·.1) ++ ws.map (·.2))

/-- An operation sent to its queue engine (R233). -/
def submitOp (s : State) (issuer : OpIssuer) (kind : OpKind) (ident ten : Nat) : State :=
  s.onQueues (fun q => { q with nextOp := q.nextOp + 1, ops := q.ops ++
    [⟨q.nextOp + 1, issuer, kind, ident, BitVec.ofNat 4 ten, false, 0, 0, 0, []⟩] })

/-! ### Slip queues (R240-R244) -/

/-- The oldest waiting taker is made ready (R242). -/
def wakeTaker (s : State) (q : Nat) : State :=
  match (sqOf s q).takers with
  | c :: rest => makeReady (sqSet s q { sqOf s q with takers := rest }) c
  | [] => s

/-- The oldest halted giver is resumed (R242, R192). -/
def resumeGiver (s : State) (q : Nat) : State :=
  match (sqOf s q).givers with
  | c :: rest => resumeCtx (sqSet s q { sqOf s q with givers := rest }) c
  | [] => s

/-- Line and byte of entry i of a queue's ring (R240). -/
def slipPlace (s : State) (q i : Nat) : Nat × Nat := (sqLine s q + i % 32 / 16, 4 * (i % 16))

/-- The slip that stands at entry i, as the row holds it. -/
def slipAt (s : State) (q i : Nat) : Word :=
  let p := slipPlace s q i
  word (leNat (((readLine s p.1).data.drop p.2).take 4))

/-- GIVE at its queue engine (R241, R465). Entries reserved for notices are not free to other givers (R285); a notice uses
its own. -/
def sqGive (s : State) (q ten : Nat) (slip : Word) (notice : Bool) (ident task : Nat) : State × Word :=
  let d := qDie q
  let v := sqOf s q
  if field (sqReg s q) 16 4 != ten then (s, stWord Code.denied)
  else if !bit (sqReg s q) 23 then (s, stWord Code.state)
  else if (if notice then 32 ≤ v.count else 32 ≤ v.count + v.reserved) then (clusterCount s d (qCl q) 8 1, stWord Code.full)
  else
    let p := slipPlace s q (v.head + v.count)
    let mask := (List.range 64).map (fun i => decide (p.2 ≤ i) && decide (i < p.2 + 4))
    let bytes := List.replicate p.2 (0 : Byte) ++ leBytes 4 slip.toNat
    let s1 := (portBRead (lockLine s p.1) p.1 ident task).1
    match rmwRow s1 p.1 mask bytes with
    | none => (s1, stWord Code.uncorrectable)
    | some row =>
      let s2 := clusterCount (putRow s1 p.1 row) d (qCl q) 6 1
      let s3 := sqSet s2 q { v with count := v.count + 1, reserved := if notice then v.reserved - 1 else v.reserved,
                                    headSlip := if v.count = 0 then slip else v.headSlip }
      (wakeTaker s3 q, stWord Code.done)

/-- TAKE at its queue engine: status and slip (R241). The entry's own bytes decide whether it is uncorrectable, or corrected (R10). -/
def sqTake (s : State) (q ten : Nat) (ident task : Nat) : State × Word × Word :=
  let d := qDie q
  let v := sqOf s q
  if field (sqReg s q) 16 4 != ten then (s, stWord Code.denied, 0)
  else if !bit (sqReg s q) 23 then (s, stWord Code.state, 0)
  else if v.count == 0 then (clusterCount s d (qCl q) 9 1, stWord Code.empty, 0)
  else
    let p := slipPlace s q v.head
    let r := portBRead s p.1 ident task
    let found := partFound r.1 p.1 p.2 4
    let head := (v.head + 1) % 32
    let s1 := sqSet r.1 q { v with head := head, count := v.count - 1, headSlip := if v.count ≤ 1 then 0 else slipAt s q head }
    let s2 := resumeGiver s1 q
    if found.1 then (structEvent s2 d 1 q ten 4 0, stWord Code.uncorrectable, 0)
    else (clusterCount s2 d (qCl q) 7 1, stWord Code.done 0 found.2, word (leNat ((r.2.data.drop p.2).take 4)))

/-- WAITSLIP QUEUE test (R221, R241). -/
def sqTest (s : State) (q ten : Nat) : Word :=
  if field (sqReg s q) 16 4 != ten then stWord Code.denied
  else if !bit (sqReg s q) 23 then stWord Code.state
  else if (sqOf s q).count == 0 then stWord Code.empty
  else stWord Code.done

/-- A waiting taker joins its queue's list, or finds it full (R242, R243). Where the queue has gained a slip, or was disabled, since its
engine answered, it is ready at once (R220, R221; DEDUCED, log 51). -/
def listTaker (s : State) (q : Nat) (c : CtxId) : State :=
  let v := sqOf s q
  if stCode (sqTest s q (ctxTen s c)) != Code.empty then makeReady s c
  else if v.takers.length < 16 then
    ctxMod (sqSet s q { v with takers := v.takers ++ [c] }) c (fun x => { x with listed := true, opSince := s.now, stallLogged := false })
  else ctxMod (hardSetBit s (qDie q) (.sqStat (qCl q) (qNo q)) 22) c (fun x => { x with listed := false, opSince := s.now })

/-! ### Result slots (R255-R257) -/

/-- RS_POST of `len` bytes (R256). -/
def rsPost (s : State) (d i ten len : Nat) (data : List Byte) : State × Word :=
  let v := rsOf s d i
  if field (rsReg s d i) 16 4 != ten then (s, stWord Code.denied)
  else if !bit (rsReg s d i) 23 then (s, stWord Code.state)
  else if v.ready then (s, stWord Code.full)
  else
    let s1 := portBWriteLine s (rsLine s d i) (fit 64 (data.take len))
    let s2 := clusterCount s1 d (i / 256) 12 1
    (rsSet s2 d i ⟨v.seq + 1, true, false, len⟩, stWord Code.done)

/-- RS_READ: status, length and data (R256). -/
def rsRead (s : State) (d i ten : Nat) (ident task : Nat) : State × Word × Nat × List Byte :=
  let v := rsOf s d i
  if field (rsReg s d i) 16 4 != ten then (s, stWord Code.denied, 0, [])
  else if !bit (rsReg s d i) 23 then (s, stWord Code.state, 0, [])
  else if !v.ready then (clusterCount s d (i / 256) 14 1, stWord Code.notReady, 0, [])
  else
    let r := portBRead s (rsLine s d i) ident task
    if r.2.uncorr != 0 then (r.1, stWord Code.uncorrectable, 0, [])
    else (rsSet r.1 d i { v with read := true }, stWord Code.done v.seq.toNat (partFound r.1 (rsLine s d i) 0 v.len).2 false v.read, v.len,
          r.2.data.take v.len)

/-- RS_CONSUME (R256). -/
def rsConsume (s : State) (d i ten seq : Nat) : State × Word :=
  let v := rsOf s d i
  if field (rsReg s d i) 16 4 != ten then (s, stWord Code.denied)
  else if !bit (rsReg s d i) 23 then (s, stWord Code.state)
  else if !v.ready then (clusterCount s d (i / 256) 14 1, stWord Code.notReady)
  else if v.seq.toNat != seq then (s, stWord Code.state)
  else (rsSet (clusterCount s d (i / 256) 13 1) d i { v with ready := false, read := false }, stWord Code.done)

/-- WAITSLIP RESULT test (R256). -/
def rsTest (s : State) (d i ten : Nat) : Word :=
  if field (rsReg s d i) 16 4 != ten then stWord Code.denied
  else if !bit (rsReg s d i) 23 then stWord Code.state
  else if (rsOf s d i).ready then stWord Code.done
  else stWord Code.notReady

/-! ### Combining queues (R248-R253) -/

/-- The sign, and the value in units of 2^-149, of a finite binary32. -/
def fpValue (b : Nat) : Int :=
  let e := b / 2 ^ 23 % 256
  let m := b % 2 ^ 23
  let v : Nat := if e = 0 then m else (2 ^ 23 + m) * 2 ^ (e - 1)
  if b / 2 ^ 31 % 2 = 1 then -(v : Int) else (v : Int)

/-- A magnitude in units of 2^-149 rounded to nearest even: exponent and fraction bits, and whether it overflows. -/
def fpRound (n : Nat) : Nat × Bool :=
  if n < 2 ^ 24 then (n, false)
  else
    let k := n.log2 - 23
    let q := n / 2 ^ k
    let r := n % 2 ^ k
    let up := decide (2 ^ k < 2 * r) || (2 * r == 2 ^ k && q % 2 == 1)
    let q1 := if up then q + 1 else q
    let k1 := if q1 = 2 ^ 24 then k + 1 else k
    let q2 := if q1 = 2 ^ 24 then 2 ^ 23 else q1
    if 254 ≤ k1 then (255 * 2 ^ 23, true) else ((k1 + 1) * 2 ^ 23 + (q2 - 2 ^ 23), false)

/-- Sum of two binary32 values, and whether a finite sum overflowed (R248). -/
def fpAdd (a b : Nat) : Nat × Bool :=
  let inf := fun (x : Nat) => x / 2 ^ 23 % 256 == 255 && x % 2 ^ 23 == 0
  let nan := fun (x : Nat) => x / 2 ^ 23 % 256 == 255 && x % 2 ^ 23 != 0
  if nan a || nan b || (inf a && inf b && a != b) then (0x7FC00000, false)
  else if inf a then (a, false)
  else if inf b then (b, false)
  else
    let v := fpValue a + fpValue b
    if v = 0 then ((if a = 2 ^ 31 && b = 2 ^ 31 then 2 ^ 31 else 0), false)
    else
      let r := fpRound v.natAbs
      ((if v < 0 then 2 ^ 31 else 0) + r.1, r.2)

/-- Sum of two 32-bit integers, and whether the sign changed wrongly (R248). -/
def intAdd (a b : Nat) : Nat × Bool :=
  let r := (a + b) % 2 ^ 32
  (r, a / 2 ^ 31 == b / 2 ^ 31 && r / 2 ^ 31 != a / 2 ^ 31)

/-- A line of 16 elements added to another: the sum and the overflows. -/
def addLine (fmt : Nat) (acc more : List Byte) : List Byte × Nat :=
  let sums := (List.range 16).map (fun i =>
    let a := leNat ((acc.drop (4 * i)).take 4)
    let b := leNat ((more.drop (4 * i)).take 4)
    if fmt == 0 then intAdd a b else fpAdd a b)
  (sums.flatMap (fun e => leBytes 4 e.1), (sums.filter (·.2)).length)

/-- A BF16 contribution widened to binary32 (R248). -/
def widen (data : List Byte) : List Byte :=
  (List.range (data.length / 2)).flatMap (fun i => [0, 0, data.getD (2 * i) 0, data.getD (2 * i + 1) 0])

/-- Port B cannot reach a bank: it sleeps, or a pause holds it (R87). -/
def portBShut (s : State) (b : Nat) : Bool := (pauseOf s b).isSome || asleep s b

/-- A bank that sleeps is woken for port B (R86, R87). -/
def wakeForB (s : State) (b : Nat) : State := if asleep s b && (pauseOf s b).isNone then startWake s b [] else s

/-- The completion post of a round (R252): it succeeds; or it waits, 256 cc where its slot is not free, and for the end of the wake or
pause where port B does not reach its bank (R87), or for a free cycle of port B (R233). -/
def cqPost (s : State) (d cl n : Nat) : State :=
  let k := cqKey d cl n
  let v := cqOf s k
  let note := regGet s d (.cqNote cl n)
  let payload := leBytes 4 (v.rounds % 2 ^ 32) ++ leBytes 2 v.ovf ++
    [if v.fault then 1 else 0, if cqOrdered s d cl n then 1 else 0]
  let slot := field note 0 12
  let b := lnBank (rsLine s d slot)
  let writes := bit (rsReg s d slot) 23 && !(rsOf s d slot).ready
  if writes && portBShut s b then
    cqSet (wakeForB s b) k { v with postWaiting := true, postAt := s.now }
  else if writes && !portBFree s b s.now then cqSet s k { v with postWaiting := true, postAt := s.now + 1 }
  else
    let r := rsPost (if writes then usePortB s b false else s) d slot (field (cqReg s d cl n) 19 4) 8 payload
    cqSet r.1 k { v with postWaiting := stCode r.2 == Code.full, postAt := s.now + 256 }

/-- A round completes (R249, R250, R252). -/
def cqComplete (s : State) (d cl n : Nat) : State :=
  let k := cqKey d cl n
  let s1 := cqSet s k { cqOf s k with st := .complete }
  if bit (regGet s d (.cqNote cl n)) 31 then cqPost s1 d cl n else s1

/-- One contribution slot added to the accumulator (R248, R253): a line found uncorrectable is left as it is, sets FAULT and
enters an event. -/
def cqAdd (s : State) (d cl n off : Nat) (data : List Byte) (ident task : Nat) : State :=
  let fmt := cqFmt s d cl n
  let wide := if fmt == 2 then widen data else data
  let start := if fmt == 2 then 2 * off else off
  let first := (cqRegion s d cl n).1 + start / 64
  let k := cqKey d cl n
  let s1 := (List.range (ceilDiv wide.length 64)).foldl (fun s i =>
    let pl := first + i
    let r := portBRead (lockLine s pl) pl ident task
    if r.2.uncorr != 0 then
      cqSet (structEvent r.1 d 2 (cl * 16 + n) (field (cqReg s d cl n) 19 4) 3 (pl * 64)) k { cqOf r.1 k with fault := true }
    else
      let sum := addLine fmt r.2.data ((wide.drop (64 * i)).take 64)
      let v := cqOf r.1 k
      cqSet (writeWholeLine r.1 pl sum.1) k { v with ovf := min (v.ovf + sum.2) 0x3FF }) s
  let v := cqOf s1 k
  clusterCount (cqSet s1 k { v with slotsAdded := v.slotsAdded + 1 }) d cl 10 1

/-- ORDERED: a count that reaches SPAN advances NEXT, and the window's entries for the new NEXT are added in the order in
which they entered (R250). `fuel` bounds the advances by the window's length. -/
def cqAdvance (fuel : Nat) (s : State) (d cl n : Nat) : State :=
  let k := cqKey d cl n
  let v := cqOf s k
  if SMap.get v.counts v.next 0 < cqSpan s d cl n then s
  else
    let nx := v.next + 1
    let mine := v.window.filter (fun h => h.cidx == nx)
    let s1 := cqSet s k { v with next := nx, window := v.window.filter (fun h => h.cidx != nx) }
    let s2 := mine.foldl (fun s h => cqAdd s d cl n h.off h.data h.ident h.task) s1
    match fuel with
    | 0 => s2
    | fuel + 1 => cqAdvance fuel s2 d cl n

/-- Lines of the accumulator that a contribution of n bytes is added to; none where it is not added on arrival (R249, R250). -/
def addLines (s : State) (d cl n cidx len : Nat) : Nat :=
  let v := cqOf s (cqKey d cl n)
  if v.st != .running || (cqOrdered s d cl n && cidx != v.next) then 0
  else ceilDiv (if cqFmt s d cl n == 2 then 2 * len else len) 64

/-- A contribution arrives at the queue engine (R249, R250). One whose round a START has ended on its way is discarded (DESIGN CHOICE,
log 52). -/
def cqArrive (s : State) (d cl n off cidx : Nat) (data : List Byte) (ident task : Nat) : State :=
  let k := cqKey d cl n
  let v := cqOf s k
  if v.st != .running then s
  else if cqOrdered s d cl n then
    let s1 := cqSet s k { v with counts := SMap.upd v.counts cidx 0 (· + 1) }
    if cidx == v.next then
      let s2 := cqAdvance 4096 (cqAdd s1 d cl n off data ident task) d cl n
      if (cqOf s2 k).next = cqContrib s d cl n + 1 then cqComplete s2 d cl n else s2
    else cqSet s1 k { cqOf s1 k with window := v.window ++ [⟨cidx, off, data, ident, task⟩] }
  else
    let s1 := cqAdd s d cl n off data ident task
    if cqSpan s d cl n != 0 && (cqOf s1 k).slotsAdded == (cqContrib s d cl n + 1) * cqSpan s d cl n then cqComplete s1 d cl n
    else s1

end Sys2Proof.Machine
end

