-- ==== Sys2Proof/Machine/StreamIssue.lean ====
section
/-! DEFINITION. How a context issues: the turn of an instruction on its sequencer (R184, R200), slots and their records
(R185, R187, R191, R204), endpoints (R202, R203), the results of single-shot operations (R220, R221, R225), and the
output phase of XPOSE (R216). -/

namespace Sys2Proof.Machine

open Sys2Proof

/-! ### Turns (R184, R200) -/

/-- The cycle in which the instruction at IP acts next: the cycle of its last word where it starts. -/
def turnCycle (s : State) (x : Ctx) : Nat :=
  max s.now x.nextAt + (if x.prog == .zero then sizeOfWord (x.image.prog.getD x.regs.ip 0) - 1 else 0)

/-- One turn of a context on its sequencer: where the legal instruction at its IP is one that `f` knows, it acts in its
cycle. -/
def turn (s : State) (c : CtxId) (f : SInstr → Option (State → State)) : State :=
  let x := ctxOf s c
  if x.onSeq && x.st == .running && x.stop == .no && domUp s (ctxDie c) (xbarDomain (ctxCluster c)) then
    match currentInstr x with
    | some i =>
      match f i with
      | some g =>
        let t := turnCycle s x
        atCycle s t (fun s => g (ctxMod s c (fun x => { x with nextAt := t + 1 })))
      | none => s
    | none => s
  else s

/-- The instruction at IP is over: the next one follows. -/
def finishInstr (x : Ctx) : Ctx := { x with regs := { x.regs with ip := afterIp x }, prog := .zero }

/-- Registers changed by an instruction that is over. -/
def finishWith (s : State) (c : CtxId) (f : CtxRegs → CtxRegs) : State :=
  ctxMod s c (fun x => let y := finishInstr x; { y with regs := f y.regs })

/-! ### Endpoints (R202, R203) -/

/-- The handle names a live window entry. -/
def namesWindow (s : State) (h : Nat) : Bool :=
  handleForm s h && domUp s (hDie h) 47 && handleCurrent s h && catIsWindow s (hDie h) (hEntry h)

/-- An endpoint of kind 0 HANDLE, 1 CORE, 2 REMOTE or 3 MCAST with its handle, group and address. -/
def endpoint (s : State) (kind h group a : Nat) : Endp :=
  match kind with
  | 0 => if namesWindow s h then .store (BitVec.ofNat 20 h) (BitVec.ofNat 48 a)
         else .bank (BitVec.ofNat 33 a) (some (BitVec.ofNat 20 h))
  | 1 => .core (BitVec.ofNat 48 a)
  | 2 => .remote (BitVec.ofNat 20 h) (BitVec.ofNat 48 a)
  | _ => .mcast (BitVec.ofNat 9 group) (BitVec.ofNat 48 a)

/-- The endpoint's TA is valid: an invalid one is stopped at the requester (R36). Every other endpoint is checked at the slot's grant
(R64, R203, R238, R266). -/
def validEnd (s : State) : Endp → Bool
  | .bank ta _ => s.present (taDie ta.toNat)
  | _ => true

/-- Bytes of the next slot of a transfer with so many bytes left (R204). -/
def slotLength (src dst left : Nat) : Nat := min left (min (256 - src % 256) (256 - dst % 256))

/-! ### Slots -/

/-- A single-shot slot of the context is not yet granted (R187). -/
def singleShotWaits (s : State) (c : CtxId) : Bool :=
  (slotsOf s c).any (fun x => (x.kind == .combine || x.kind == .seal)
    && (x.stage == .translate || x.stage == .storeRead || x.stage == .waiting || x.stage == .planned))

/-- What keeps a transfer from its next repeatable slot (R185, R187). -/
def issueBlock (s : State) (c : CtxId) : Option Wait :=
  if singleShotWaits s c then some .grant else if roomFor s c then none else some .limit

/-- A slot of a context requested: its record is taken from the context as it stands, then the context moves on by `adv`, then
the request enters. `bad` is a status that the slot returns without a request; an invalid TA gives
BAD_ARG (R36, R228). An index slot issued `again` keeps its sequence number, and no slot is counted (R213). -/
def issueSlot (s : State) (c : CtxId) (kind : SlotKind) (cls : SlotClass) (src dst : Endp) (len bad : Nat)
    (adv : Ctx → Ctx) (again : Bool := false) : State :=
  let x := ctxOf s c
  let seq := if again then x.prog.indexSlot else x.seq + 1
  let r : SlotRec := ⟨seq, x.seq, x.prog.slots, x.regs, x.prog, .outstanding, none⟩
  let s1 := ctxMod s c (fun x => adv { x with
    seq := if again then x.seq else seq, recs := x.recs ++ [r],
    prog := { x.prog with slots := x.prog.slots + (if again then 0 else 1) } })
  let code := if bad != 0 then bad else if validEnd s src && validEnd s dst then 0 else Code.badArg
  if code != 0 then ctxSlotDone s1 c seq (stWord code) (if validEnd s src then endAddr dst src else endAddr src dst) none
  else request s1 { blankSlot (ctxIdent s c) (ctxTen s c) cls kind src dst len with ctx := some c, seq := seq, ep := x.regs.ep }

/-- The context leaves its sequencer by the way (R200). -/
def offSeq (w : Wait) (now : Nat) (x : Ctx) : Ctx := { x with onSeq := false, wait := w, ready := false, opSince := now }

/-! ### Tile buffers (R216) -/

/-- A tile buffer changed. -/
def tileMod (s : State) (id : Nat) (f : Tile → Tile) : State :=
  s.onStreams (fun t => { t with tiles := t.tiles.map (fun b => if b.id == id then f b else b) })

/-- Bytes put into a list at a place. -/
def patch (l : List Byte) (off : Nat) (data : List Byte) : List Byte := l.take off ++ data ++ l.drop (off + data.length)

/-- The transposed tile, rows in order: element (r, c) of the result is element (c, r) of the source (R216). -/
def transposed (wide : Bool) (data : List Byte) : List Byte :=
  let rows := if wide then 32 else 64
  let eb := if wide then 2 else 1
  (List.range rows).flatMap (fun r => (List.range rows).flatMap (fun c =>
    (List.range eb).map (fun b => data.getD (64 * c + eb * r + b) 0)))

/-- The tile's rows are all in its buffer: the output phase may run. -/
def tileFull (s : State) (id : Nat) : Option Tile := s.streams.tiles.find? (fun t => t.id == id && t.placed && t.left == 0)

/-- The output slots that wait in a hall are requested in sequence, within R185, to enter in the cycle after (R216). -/
def pumpOutputs (s : State) (d cl : Nat) : State :=
  (hallCtxs s d cl).foldl (fun s e =>
    ((ctxOf s e.1).recs.filterMap (fun r => match r.st with
      | .pending t off len dst => some (r.seq, t, off, len, dst)
      | _ => none)).foldl (fun s (p : Nat × Nat × Nat × Nat × Endp) =>
        match p, tileFull s p.2.1 with
        | (seq, t, off, len, dst), some tile =>
          if (ctxOf s e.1).stop == .no && roomFor s e.1 then
            let x := ctxOf s e.1
            let s1 := recMod s e.1 seq (fun r => { r with st := .outstanding })
            if validEnd s dst then
              requestNext s1 { blankSlot (ctxIdent s e.1) (ctxTen s e.1) .read (.xposeOut t)
                (.hall (BitVec.ofNat 3 d) (BitVec.ofNat 4 cl)) dst len with
                ctx := some e.1, seq := seq, ep := x.regs.ep, data := ((transposed tile.wide tile.data).drop off).take len }
            else ctxSlotDone s1 e.1 seq (stWord Code.badArg) dst.addr none
          else s
        | _, none => s) s) s

/-- A slot's status reaches its hall, and what it lets go on goes on. -/
def slotDone (s : State) (c : CtxId) (seq : Nat) (status : Word) (addr : BitVec 48) (fold : Option (List Byte)) : State :=
  presentAll (pumpOutputs (ctxSlotDone s c seq status addr fold) (ctxDie c) (ctxCluster c))

/-! ### Single-shot operations (R187, R191) -/

/-- A single-shot instruction waits until every earlier slot has been delivered (R187); then it acts. -/
def whenDrained (s : State) (c : CtxId) (f : State → State) : State :=
  if (ctxOf s c).recs.isEmpty then f s else leaveSeq s c .drain

/-- An operation sent to its queue engine: the context waits for its status (R191, R234). -/
def sendOp (s : State) (c : CtxId) (kind : OpKind) : State :=
  let s1 := submitOp s (.ctx c) kind (ctxIdent s c) (ctxTen s c)
  ctxMod (leaveSeq s1 c .op) c (fun x => { x with opFlight := true })

/-- An instruction that took effect is over; its context goes on where nothing stops it, and a stop that waited for it may
end (R191). -/
def opTook (s : State) (c : CtxId) (f : Ctx → Ctx) : State :=
  let s1 := ctxMod s c (fun x => f (finishInstr { x with wait := .none }))
  if (ctxOf s1 c).stop == .no then makeReady s1 c else finishStop s1 c

/-- A non-blocking test that failed: Q = 0 and the context goes on; a context that is stopping stays at it (R191). -/
def opMissed (s : State) (c : CtxId) : State :=
  if (ctxOf s c).stop == .no then opTook s c (fun x => { x with regs := { x.regs with q := false } }) else finishStop s c

/-- A status with the effect of R190 on an instruction. -/
def opFault (s : State) (c : CtxId) (st : Word) : State := finishStop (applyEffect s c (effectOf st) st 0) c

/-- A blocked context waits off its sequencer; a context that is stopping stops. -/
def opWait (s : State) (c : CtxId) (w : Wait) (list : State → State) : State :=
  if (ctxOf s c).stop == .no then list (ctxMod s c (fun x => { x with wait := w, opSince := s.now })) else finishStop s c

/-- The status of a context's operation returns (R220, R221, R225); to a context that has none on its way it says nothing. -/
def ctxOpDone (s : State) (c : CtxId) (st slip : Word) : State :=
  if !(ctxOf s c).opFlight then s else
  let s0 := ctxMod s c (fun x => { x with opFlight := false })
  let code := stCode st
  match currentInstr (ctxOf s0 c) with
  | some (.take h block qid) =>
    if code == Code.done then
      opTook s0 c (fun x => { x with regs := { x.regs with sl := slip, h := x.regs.h.set h (BitVec.ofNat 20 (field slip 0 20)), q := true } })
    else if code == Code.empty then
      if block then opWait s0 c .queue (fun s => listTaker s qid c) else opMissed s0 c
    else opFault s0 c st
  | some (.give _ block _ _ _) =>
    if code == Code.done then opTook s0 c (fun x => { x with regs := { x.regs with q := true } })
    else if code == Code.full then
      if block then finishStop (applyEffect s0 c (.halt 7) st 0) c else opMissed s0 c
    else opFault s0 c st
  | some (.waitslip k block t) =>
    if code == Code.done then opTook s0 c (fun x => if block then x else { x with regs := { x.regs with q := true } })
    else if code == Code.empty || code == Code.notReady then
      if block then opWait s0 c (if k == 0 then .queue else .result) (fun s => if k == 0 then listTaker s t c else s)
      else opMissed s0 c
    else opFault s0 c st
  | some (.digest _ clr _) =>
    if code == Code.done then
      opTook s0 c (fun x => { x with regs := { x.regs with q := true }, d := if clr then 0 else x.d })
    else if code == Code.full || code == Code.notReady then opMissed s0 c
    else opFault s0 c st
  | some (.signal _ _ _) =>
    if code == Code.done then opTook s0 c id else opFault s0 c st
  | _ => finishStop s0 c

/-! ### Tokens (R116, R222) -/

/-- A token sets out, from a cluster's hall or from a die's hub, for a hall or the hub of die e; where its first lane is full its sender
holds it (R116). -/
def sendToken (s : State) (k : TokenKind) (d : Nat) (a : Option Nat) (e : Nat) (b : Option Nat) : State :=
  let t : Token := ⟨s.streams.nextToken + 1, k, BitVec.ofNat 3 e, s.now, none, tokenPath s.dies d a e b⟩
  s.onStreams (fun x => { x with nextToken := t.id, tokens := enterLane x.tokens t })

/-- The lane on which a hall's token for there sets out is full (R116). -/
def laneShut (s : State) (d cl e : Nat) (b : Option Nat) : Bool :=
  match tokenPath s.dies d (some cl) e b with | l :: _ => !laneRoom s.streams.tokens l | [] => false

/-- A token off the lane. -/
def dropToken (s : State) (id : Nat) : State :=
  s.onStreams (fun t => { t with tokens := t.tokens.filter (fun k => k.id != id) })

end Sys2Proof.Machine
end

