-- ==== Sys2Proof/Machine/StreamControl.lean ====
section
/-! DEFINITION. The control and single-shot instructions of the stream machine (R206, R207, R220-R227). -/

namespace Sys2Proof.Machine

open Sys2Proof

/-- The outcome of a context's turn. -/
def turnAct (s : State) (c : CtxId) (f : SInstr → Option (State → State)) : Host.Outcome State Fault Refusal :=
  act s [ctxDie c] (turn s c f)

/-! ### Control instructions (R207) -/

/-- LOOP. -/
def execLoop (c : CtxId) (s : State) : Host.Outcome State Fault Refusal :=
  turnAct s c fun
    | .loop l n => some (fun s => finishWith s c (fun r => { r with
        l := r.l.set l (BitVec.ofNat 24 n), live := r.live.set l true, ls := r.ls.set l (BitVec.ofNat 7 r.ip) }))
    | _ => none

/-- ENDL: the counter counts down; while it is not 0 the loop's start follows, at 0 the counter is no longer live. -/
def execEndl (c : CtxId) (s : State) : Host.Outcome State Fault Refusal :=
  turnAct s c fun
    | .endl l => some (fun s => finishWith s c (fun r =>
        let n := r.l.getD l 0 - 1
        if n != 0 then { r with l := r.l.set l n, ip := (r.ls.getD l 0).toNat }
        else { r with l := r.l.set l n, live := r.live.set l false }))
    | _ => none

/-- BR: the conditions of R206. -/
def execBr (c : CtxId) (s : State) : Host.Outcome State Fault Refusal :=
  turnAct s c fun
    | .br cond t => some (fun s => finishWith s c (fun r =>
        let taken := match cond with | 0 => true | 1 => r.q | 2 => !r.q | 3 => r.c | _ => !r.c
        if taken then { r with ip := t } else r))
    | _ => none

/-- SET: an address or a stride register takes a 48-bit value. -/
def execSetI (c : CtxId) (s : State) : Host.Outcome State Fault Refusal :=
  turnAct s c fun
    | .set stride i v => some (fun s => finishWith s c (fun r =>
        if stride then { r with s := r.s.set i (BitVec.ofNat 48 v) } else setAddr r i v))
    | _ => none

/-- STEP: add, add PART x stride, or copy. -/
def execStepI (c : CtxId) (s : State) : Host.Outcome State Fault Refusal :=
  turnAct s c fun
    | .step ad a sx mode => some (fun s => finishWith s c (fun r =>
        let base := addrReg r a
        match mode with
        | 0 => setAddr r ad (base + strideReg r sx)
        | 1 => setAddr r ad (base + timesStride (partOf r) (r.s.getD sx 0))
        | _ => setAddr r ad base))
    | _ => none

/-- SETH: a handle register takes a value, which is checked only when it is used. -/
def execSeth (c : CtxId) (s : State) : Host.Outcome State Fault Refusal :=
  turnAct s c fun
    | .seth h v => some (fun s => finishWith s c (fun r => { r with h := r.h.set h (BitVec.ofNat 20 v) }))
    | _ => none

/-! ### END, FENCE, EPOCH (R195, R223, R224, R226) -/

/-- The run ends (R226): its unfinished seals are released; a shadow takes effect, or the context is DONE. A shadow whose
SMODE is 0 goes on at once on the same sequencer (R195). -/
def endRun (s : State) (c : CtxId) : State :=
  let s1 := releaseSeals s (fun k => k.ctx == c.toNat) false
  match (ctxOf s1 c).shadow with
  | some im =>
    let s2 := startRun s1 c im true
    let s3 := ctxMod s2 c (fun x => { x with shadow := none, runs := x.runs + 1 })
    if descMode im.desc == 0 then
      ctxMod s3 c (fun x => { x with st := .running, onSeq := true, started := true, ready := false, seqSince := s.now + 1,
                                     nextAt := s.now + 5 })
    else s3
  | none => ctxMod s1 c (fun x => { x with st := .done, onSeq := false, ready := false, wait := .none, stopFrame := frameCount s, stopAt := s.now })

/-- END. -/
def execEndI (c : CtxId) (s : State) : Host.Outcome State Fault Refusal :=
  turnAct s c fun
    | .endI => some (fun s => whenDrained s c (fun s => endRun s c))
    | _ => none

/-- A folio that the context has sealed in this run, and whose parity pass has not ended (R223). -/
def sealsPending (s : State) (c : CtxId) : Bool :=
  (ctxOf s c).sealedFolios.any (fun f => match sealCtxOf s f with | some k => k.parity.isSome | none => false)

/-- Contexts whose FENCE waited for parity passes that have ended go on (R223). -/
def wakeSeals (s : State) : State :=
  (allCtxs s).foldl (fun s e =>
    let x := ctxOf s e.1
    if x.wait == .seals && x.st == .running && x.stop == .no && !sealsPending s e.1 then makeReady s e.1 else s) s

/-- FENCE: its wait under R187, and with S = 1 the end of the parity passes. -/
def execFence (c : CtxId) (s : State) : Host.Outcome State Fault Refusal :=
  turnAct s c fun
    | .fence seals => some (fun s => whenDrained s c (fun s =>
        if seals && sealsPending s c then leaveSeq s c .seals else ctxMod s c finishInstr))
    | _ => none

/-- EPOCH. -/
def execEpoch (c : CtxId) (s : State) : Host.Outcome State Fault Refusal :=
  turnAct s c fun
    | .epoch inc v => some (fun s => whenDrained s c (fun s =>
        finishWith s c (fun r => { r with ep := if inc then r.ep + 1 else BitVec.ofNat 16 v })))
    | _ => none

/-! ### Queue and signal instructions (R220-R222, R225) -/

/-- TAKE: its operation goes to the queue engine; a QID that names an absent die returns BAD_ARG (R220). -/
def execTake (c : CtxId) (s : State) : Host.Outcome State Fault Refusal :=
  turnAct s c fun
    | .take _ _ q => some (fun s => whenDrained s c (fun s =>
        if s.present (qDie q) then sendOp s c (.take (BitVec.ofNat 13 q)) else opFault s c (stWord Code.badArg)))
    | _ => none

/-- The slip of a GIVE (R220). -/
def slipOf (r : CtxRegs) (h part : Nat) (fromSl : Bool) : Word :=
  word (put 24 8 r.ep.toNat + put 20 4 (if fromSl then partOf r else part) + put 0 20 (handleReg r h))

/-- GIVE. -/
def execGive (c : CtxId) (s : State) : Host.Outcome State Fault Refusal :=
  turnAct s c fun
    | .give h _ part ps q => some (fun s => whenDrained s c (fun s =>
        if s.present (qDie q) then sendOp s c (.give (BitVec.ofNat 13 q) (slipOf (ctxOf s c).regs h part ps))
        else opFault s c (stWord Code.badArg)))
    | _ => none

/-- A point token is taken: PC_N counts down, PT holds the oldest payload (R221). -/
def takePoint (x : Ctx) : Ctx :=
  { x with pcn := x.pcn - 1, points := x.points.drop 1, regs := { x.regs with pt := x.points.headD 0 } }

/-- WAITSLIP: QUEUE and RESULT send a test; POINT and BARRIER look at the context's own latches. -/
def execWaitslip (c : CtxId) (s : State) : Host.Outcome State Fault Refusal :=
  turnAct s c fun
    | .waitslip kind block t => some (fun s => whenDrained s c (fun s =>
        let x := ctxOf s c
        let setQ := fun (v : Bool) (r : CtxRegs) => if block then r else { r with q := v }
        match kind with
        | 0 => if s.present (qDie t) then sendOp s c (.testQueue (BitVec.ofNat 13 t)) else opFault s c (stWord Code.badArg)
        | 1 => if s.present (t / 4096) then sendOp s c (.testResult (BitVec.ofNat 15 t)) else opFault s c (stWord Code.badArg)
        | 2 =>
          if x.pcn != 0 then finishWith (ctxMod s c takePoint) c (setQ true)
          else if block then leaveSeq s c .point else finishWith s c (setQ false)
        | _ =>
          if x.bl == 3 then finishWith (ctxMod s c (fun x => { x with bl := 0 })) c (setQ true)
          else if block then leaveSeq s c .barrier else finishWith s c (setQ false)))
    | _ => none

/-- A post on its way to its ballot unit (R302): the context waits for its status. -/
def sendPost (s : State) (c : CtxId) (ballot replica : Nat) : State :=
  let s1 := s.onReplicas (fun r => { r with nextPost := r.nextPost + 1, posts := r.posts ++
    [⟨r.nextPost + 1, c, BitVec.ofNat 8 ballot, BitVec.ofNat 3 replica, (ctxOf s c).d, BitVec.ofNat 4 (ctxTen s c), false, 0⟩] })
  ctxMod (leaveSeq s1 c .op) c (fun x => { x with opFlight := true })

/-- DIGEST: CLEAR sets D to its start value 0; SLOT posts its 16 bytes to a result slot; BALLOT posts it to a ballot. A post
of a context that latched no key returns STATE (R299). -/
def execDigest (c : CtxId) (s : State) : Host.Outcome State Fault Refusal :=
  turnAct s c fun
    | .digest mode _ t => some (fun s => whenDrained s c (fun s =>
        match mode with
        | 0 => ctxMod s c (fun x => finishInstr { x with d := 0 })
        | m => if (ctxOf s c).key.isNone then opFault s c (stWord Code.state) else match m with
        | 1 => if s.present (t / 4096) then sendOp s c (.rsPost (BitVec.ofNat 15 t) 16 (leBytes 16 (ctxOf s c).d.toNat))
               else opFault s c (stWord Code.badArg)
        | _ => sendPost s c (t % 256) (t / 256)))
    | _ => none

/-- BARRIER_CFG of a barrier on a die (R117). -/
def barrierCfg (s : State) (d b : Nat) : Word := regGet s d (.barrierCfg b)

/-- SIGNAL: POINT sends a token and waits for its answer; ARRIVE is refused at the sending die for a foreign or unused barrier
(R117, log 18), else sends its token and latches. A full lane holds the token (R116). -/
def execSignal (c : CtxId) (s : State) : Host.Outcome State Fault Refusal :=
  turnAct s c fun
    | .signal arrive p target => some (fun s => whenDrained s c (fun s =>
        let d := ctxDie c
        if arrive then
          let cfg := barrierCfg s d p
          if field cfg 16 4 != ctxTen s c then opFault s c (stWord Code.denied)
          else if !bit cfg 31 then opFault s c (stWord Code.state)
          else if laneShut s d (ctxCluster c) d none then leaveSeq s c .lane
          else
            let s1 := sendToken s (.arrive (BitVec.ofNat 12 p) 1 (BitVec.ofNat 3 d) false) d (some (ctxCluster c)) d none
            ctxMod s1 c (fun x => finishInstr { x with bn := BitVec.ofNat 12 p, bl := 1 })
        else if !s.present (target / 32768) then opFault s c (stWord Code.badArg)
        else if laneShut s d (ctxCluster c) (target / 32768) (some (target / 2048 % 16)) then leaveSeq s c .lane
        else
          let s1 := sendToken s (.point (BitVec.ofNat 12 p) (BitVec.ofNat 18 target) c) d (some (ctxCluster c))
            (target / 32768) (some (target / 2048 % 16))
          ctxMod (leaveSeq s1 c .op) c (fun x => { x with opFlight := true })))
    | _ => none

/-- STREAM_ILLEGAL: the word at IP is an illegal encoding (R227). An ARRIVE or WAITSLIP that only BL makes illegal executes, as every
single-shot instruction does, when the earlier slots have been delivered (R187). -/
def execStreamIllegal (c : CtxId) (s : State) : Host.Outcome State Fault Refusal :=
  act s [ctxDie c]
    (let x := ctxOf s c
     if x.onSeq && x.st == .running && x.stop == .no && (currentInstr x).isNone then
       atCycle s (max s.now x.nextAt) (fun s =>
         let single := match instrAt x.image.prog x.regs.ip with | some (.endl _) => false | some _ => true | none => false
         if single && !(ctxOf s c).recs.isEmpty then leaveSeq s c .drain else
         ctxAbort (ctxMod s c (fun x => { x with faddr := 0, fdetail := 0 })) c 9)
     else s)

/-! ### Sequencers (R183, R184) -/

/-- The ready context that a free sequencer takes: the longest ready, then the lower slot. -/
def nextReady (s : State) (d cl : Nat) : Option CtxId :=
  (((hallCtxs s d cl).filter (fun e => e.2.ready && !e.2.onSeq && e.2.stop == .no && (e.2.st == .armed || e.2.st == .running))).foldl
    (fun acc e => match acc with
      | none => some e
      | some a => if e.2.readySince < a.2.readySince then some e else some a) (none : Option (CtxId × Ctx))).map (·.1)

/-- SEQUENCER_TAKE: one of the 48 sequencers of a hall is free (R184). The 256 cc that a context may run count from the take, also where
a shadow starts on the sequencer (DESIGN CHOICE, log 19). -/
def execSequencerTake (d : Die) (cluster : Cluster) (s : State) : Host.Outcome State Fault Refusal :=
  act s [d.toNat]
    (let busy := ((hallCtxs s d.toNat cluster.toNat).filter (fun e => e.2.onSeq)).length
     match nextReady s d.toNat cluster.toNat with
     | some c =>
       if busy < 48 && domUp s d.toNat (xbarDomain cluster.toNat) then
         ctxMod s c (fun x => { x with st := .running, started := true, onSeq := true, ready := false, wait := .none,
                                       seqSince := s.now, nextAt := s.now + 4 })
       else s
     | none => s)

/-- SEQUENCER_TIMESLICE: the context has run 256 cc while another of its hall is ready (R184). -/
def execSequencerTimeslice (c : CtxId) (s : State) : Host.Outcome State Fault Refusal :=
  act s [ctxDie c]
    (let x := ctxOf s c
     if x.onSeq && (nextReady s (ctxDie c) (ctxCluster c)).isSome then
       atCycle s (max s.now (x.seqSince + 256)) (fun s => leaveSeq s c .none)
     else s)

/-- CONTEXT_START_FRAME: the frame count has reached START of an ARMED context, which has been ready since frame cc 0 of that frame
(R183). -/
def execContextStartFrame (c : CtxId) (s : State) : Host.Outcome State Fault Refusal :=
  act s [ctxDie c]
    (let x := ctxOf s c
     let passed := (frameCount s + 65536 - descStart x.image.desc) % 65536
     if x.st == .armed && !x.ready && x.stop == .no && startReached s x.image.desc then
       ctxMod (makeReady s c) c (fun x => { x with readySince := 256 * (s.frame - passed) })
     else s)

/-- WAITSLIP_RESULT_RETRY: every 256 cc (R221). -/
def execWaitslipResultRetry (c : CtxId) (s : State) : Host.Outcome State Fault Refusal :=
  act s [ctxDie c]
    (let x := ctxOf s c
     if x.st == .running && x.wait == .result && x.stop == .no then
       atCycle s (max s.now (x.opSince + 256)) (fun s => makeReady s c)
     else s)

/-- SLIPQ_WAIT_RETRY: a taker or giver that found its list full, every 256 cc (R242). -/
def execSlipqWaitRetry (c : CtxId) (s : State) : Host.Outcome State Fault Refusal :=
  act s [ctxDie c]
    (let x := ctxOf s c
     if x.st == .running && x.wait == .queue && !x.listed && x.stop == .no then
       atCycle s (max s.now (x.opSince + 256)) (fun s => makeReady s c)
     else if x.st == .halted && x.hcause == 7 && !x.listed && !x.lapsed then
       atCycle s (max s.now (x.opSince + 256)) (fun s => resumeCtx s c)
     else s)

/-- QUEUE_STALL: a listed waiter has waited the watchdog time; one event on the queue's die, and nothing else changes (R244). -/
def execQueueStall (c : CtxId) (s : State) : Host.Outcome State Fault Refusal :=
  act s [ctxDie c]
    (let x := ctxOf s c
     let giver := x.st == .halted && x.hcause == 7
     let d := qDie (queueAtIp x)
     let limit := 256 * max 1 (rf s d .wdogCtl 0 16)
     if !x.stallLogged && x.listed && (giver || x.wait == .queue) then
       atCycle s (max s.now (x.opSince + limit)) (fun s =>
         logEvent (ctxMod s c (fun x => { x with stallLogged := true })) d
           { ev 0x0D c.toNat (queueAtIp x + (if giver then 65536 else 0)) with ten := some (BitVec.ofNat 4 (ctxTen s c)) })
     else s)

end Sys2Proof.Machine
end

