-- ==== Sys2Proof/Machine/StreamTransfer.lean ====
section
/-! DEFINITION. The transfer instructions of the stream machine (R204, R205, R208-R219): one request for each turn. -/

namespace Sys2Proof.Machine

open Sys2Proof

/-- The next repeatable slot goes where R185 and R187 let it; else the context leaves its sequencer. -/
def whenRoom (s : State) (c : CtxId) (f : State → State) : State :=
  match issueBlock s c with
  | some w => leaveSeq s c w
  | none => f s

/-! ### EMIT (R208-R210) -/

/-- The group of an EMIT to MCAST, taken when the instruction executes: its own, or the MCG of the source's entry (R210). -/
def emitGroup (s : State) (r : CtxRegs) (src : EndField) (group : Nat) : Nat :=
  if group != 0x1FF then group
  else
    let h := handleReg r src.h
    if handleForm s h && handleCurrent s h && !entryLost s h then catMcg s (hDie h) (hEntry h) else 0x1FF

/-- The status of a slot whose group cannot be resolved: that of its handle, else BAD_ARG (R210, R228). -/
def groupBad (s : State) (r : CtxRegs) (src dst : EndField) (group : Nat) : Nat :=
  let h := handleReg r src.h
  if dst.kind != 3 || group != 0x1FF then 0
  else if handleForm s h && entryLost s h then Code.uncorrectable
  else if handleForm s h && !handleCurrent s h then Code.stale
  else Code.badArg

/-- The EMIT goes to a ring: the address of its REMOTE end is ignored (R266). -/
def emitRing (s : State) (r : CtxRegs) (dst : EndField) : Bool :=
  let h := handleReg r dst.h
  dst.kind == 2 && s.present (hDie h) && outRing s (hDie h) (refWin h)

/-- The next slot of an EMIT requested (R204, R210). -/
def emitNext (s : State) (c : CtxId) (write : Bool) (src dst : EndField) (pi : Bool) (len group : Nat) : State :=
  let x := ctxOf s c
  let r := x.regs
  let p := x.prog.bytes
  let g := if x.prog.slots = 0 then emitGroup s r src group else x.prog.group.toNat
  let sa := addrReg r src.a + p
  let da := if emitRing s r dst then p else addrReg r dst.a + p
  let n := slotLength sa da (len - p)
  let bad := groupBad s r src dst g
  issueSlot (if bad == Code.uncorrectable then useEntry s (handleReg r src.h) else s) c .emit (if write then .write else .read) (endpoint s src.kind (handleReg r src.h) 0x1FF sa)
    (endpoint s dst.kind (handleReg r dst.h) g da) n bad (fun x =>
      if p + n = len then
        let y := finishInstr x
        if pi then { y with regs := advance2 y.regs src.a len dst.a len } else y
      else { x with prog := { x.prog with bytes := p + n, group := BitVec.ofNat 9 g } })

/-- EMIT. -/
def execEmit (c : CtxId) (s : State) : Host.Outcome State Fault Refusal :=
  turnAct s c fun
    | .emit write src dst pi len group => some (fun s => whenRoom s c (fun s => emitNext s c write src dst pi len group))
    | _ => none

/-! ### GATHER and SCATTER (R211-R213) -/

/-- The fields of a GATHER or SCATTER. -/
structure Gs where
  scatter : Bool
  x : EndField
  y : EndField
  i : EndField
  ss : Nat
  esz : Nat
  pi : Bool
  stop : Bool
  n : Nat
deriving DecidableEq, Repr

/-- Bytes of an element. -/
def Gs.elem (g : Gs) : Nat := 16 * 2 ^ g.esz

/-- The index of element j where it is held. -/
def heldIndex (p : Progress) (j : Nat) : Option Nat := if p.firstIndex ≤ j then p.indices[j - p.firstIndex]? else none

/-- The index is the sentinel. -/
def Gs.sentinel (g : Gs) (i : Nat) : Bool := g.stop && i == 0xFFFFFFFF

/-- Source and destination addresses of the element of index i (R212). -/
def Gs.place (g : Gs) (r : CtxRegs) (j i : Nat) : Nat × Nat :=
  let x := (addrReg r g.x.a + timesStride i (r.s.getD g.ss 0)) % 2 ^ 48
  let y := (addrReg r g.y.a + j * g.elem) % 2 ^ 48
  if g.scatter then (y, x) else (x, y)

/-- Bytes and whole elements that a slot starting at element j moves: a whole element that shares one block at each end takes in
the elements that follow it without a gap there; every other element is divided (R204). `fuel` bounds the elements. -/
def Gs.run (g : Gs) (r : CtxRegs) (p : Progress) (src dst : Nat) : Nat → Nat → Nat → Nat × Nat
  | 0, bytes, j => (bytes, j)
  | fuel + 1, bytes, j =>
    if g.n ≤ j then (bytes, j)
    else match heldIndex p j with
      | none => (bytes, j)
      | some i =>
        let a := g.place r j i
        if g.sentinel i || a.1 != src + bytes || a.2 != dst + bytes
            || 256 < src % 256 + bytes + g.elem || 256 < dst % 256 + bytes + g.elem then (bytes, j)
        else Gs.run g r p src dst fuel (bytes + g.elem) (j + 1)

/-- The instruction is over after j elements: C, and the advances of PI (R205, R212). -/
def Gs.passEnd (g : Gs) (j : Nat) (sentinel : Bool) (x : Ctx) : Ctx :=
  let y := finishInstr x
  let r := { y.regs with c := sentinel }
  { y with regs := if g.pi then advance2 r g.y.a (j * g.elem) g.i.a (4 * (j + (if sentinel then 1 else 0))) else r }

/-- What follows when j elements are placed: the end, the sentinel, or more of the instruction. -/
def Gs.next (g : Gs) (j : Nat) (x : Ctx) : Ctx :=
  if g.n ≤ j then g.passEnd j false x
  else match heldIndex x.prog j with
    | some i => if g.sentinel i then g.passEnd j true x else { x with prog := { x.prog with elems := j, bytes := 0 } }
    | none => { x with prog := { x.prog with elems := j, bytes := 0 } }

/-- The index slot that holds index j requested, or issued again (R213); the context waits for it (R212). A misaligned IA gives BAD_ARG
(R228). -/
def Gs.requestIndex (g : Gs) (s : State) (c : CtxId) (j : Nat) : State :=
  let again := (ctxOf s c).prog.reissue
  let s0 := ctxMod s c (fun x => { x with prog := { x.prog with indices := [], firstIndex := j } })
  let r := (ctxOf s0 c).regs
  let a := (addrReg r g.i.a + 4 * j) % 2 ^ 48
  let n := min (g.n - j) ((256 - a % 256) / 4)
  let h := handleReg r g.i.h
  issueSlot s0 c .index .read (endpoint s0 0 h 0x1FF a) (.hall (BitVec.ofNat 3 (ctxDie c)) (BitVec.ofNat 4 (ctxCluster c)))
    (4 * n) (if a % 4 != 0 || namesWindow s0 h then Code.badArg else 0)
    (fun x => offSeq .index s.now { x with prog := { x.prog with reissue := false,
                                                                 indexSlot := if again then x.prog.indexSlot else x.seq } }) again

/-- The next request of a GATHER or SCATTER: an index slot, or the slot of the next elements. -/
def Gs.step (g : Gs) (s : State) (c : CtxId) : State :=
  let x := ctxOf s c
  let p := x.prog
  let j := p.elems
  if p.reissue then g.requestIndex s c p.firstIndex
  else match heldIndex p j with
    | none => g.requestIndex s c j
    | some i =>
      if g.sentinel i then ctxMod s c (g.passEnd j true)
      else
        let a := g.place x.regs j i
        let src := (a.1 + p.bytes) % 2 ^ 48
        let dst := (a.2 + p.bytes) % 2 ^ 48
        let run := if p.bytes = 0 then g.run x.regs p src dst (g.n - j) 0 j else (0, j)
        let (len, adv) : Nat × (Ctx → Ctx) :=
          if run.1 != 0 then (run.1, g.next run.2)
          else
            let n := slotLength src dst (g.elem - p.bytes)
            (n, if p.bytes + n = g.elem then g.next (j + 1)
                else fun x => { x with prog := { x.prog with bytes := p.bytes + n } })
        let xf := fun (a : Nat) => endpoint s 0 (handleReg x.regs g.x.h) 0x1FF a
        let yf := fun (a : Nat) => endpoint s g.y.kind (handleReg x.regs g.y.h) 0x1FF a
        issueSlot (if g.scatter then pruneScattered s c else s) c (if g.scatter then .scatterElem else .gatherElem) (if g.scatter then .write else .read)
          (if g.scatter then yf src else xf src) (if g.scatter then xf dst else yf dst) len 0 adv

/-- GATHER. -/
def execGather (c : CtxId) (s : State) : Host.Outcome State Fault Refusal :=
  turnAct s c fun
    | .gather false x y i ss esz pi stop n => some (fun s => whenRoom s c (fun s => (⟨false, x, y, i, ss, esz, pi, stop, n⟩ : Gs).step s c))
    | _ => none

/-- SCATTER. -/
def execScatter (c : CtxId) (s : State) : Host.Outcome State Fault Refusal :=
  turnAct s c fun
    | .gather true x y i ss esz pi stop n => some (fun s => whenRoom s c (fun s => (⟨true, x, y, i, ss, esz, pi, stop, n⟩ : Gs).step s c))
    | _ => none

/-! ### XPOSE (R215-R217) -/

/-- Address of row r of a tile (R216). -/
def rowAt (regs : CtxRegs) (e : EndField) (stride r : Nat) : Nat := (addrReg regs e.a + timesStride r (regs.s.getD stride 0)) % 2 ^ 48

/-- Rows from row r on that share one slot: addresses without a gap, in one block at each end (R204); `tile` is the first
one's place in the tile buffer. -/
def rowsTogether (addr : Nat → Nat) (rows r : Nat) : Nat → Nat → Nat
  | 0, k => k
  | fuel + 1, k =>
    if r + k < rows && addr (r + k) == addr r + 64 * k && addr r % 256 + 64 * (k + 1) ≤ 256
        && (64 * r) % 256 + 64 * (k + 1) ≤ 256 then rowsTogether addr rows r fuel (k + 1)
    else k

/-- The slots that rows from r on are divided into: place in the tile buffer, address, length (R204). `fuel` bounds them. -/
def rowSlots (addr : Nat → Nat) (rows : Nat) : Nat → Nat → List (Nat × Nat × Nat)
  | 0, _ => []
  | fuel + 1, r =>
    if rows ≤ r then []
    else
      let k := rowsTogether addr rows r 4 0
      if k != 0 then (64 * r, addr r, 64 * k) :: rowSlots addr rows fuel (r + k)
      else
        let n := 256 - addr r % 256
        (64 * r, addr r, n) :: (64 * r + n, addr r + n, 64 - n) :: rowSlots addr rows fuel (r + 1)

/-- The output slots reserved when the last source request is placed (R216): the following sequence numbers, from the slot at
which a RESUME goes on (R217). -/
def reserveOutputs (s : State) (dst : EndField) (ds : Nat) (rows tile : Nat) (x : Ctx) : Ctx :=
  let first := x.prog.slots
  let outs := rowSlots (rowAt x.regs dst ds) rows (2 * rows) 0
  let keep := (outs.zip (List.range outs.length)).filter (fun e => x.prog.skipTo ≤ first + e.2)
  let recs := (keep.zip (List.range keep.length)).map (fun e =>
    (⟨x.seq + 1 + e.2, x.seq + e.2, first + e.1.2, x.regs, x.prog,
      .pending tile e.1.1.1 e.1.1.2.2 (endpoint s dst.kind (handleReg x.regs dst.h) 0x1FF e.1.1.2.1), none⟩ : SlotRec))
  { x with seq := x.seq + keep.length, recs := x.recs ++ recs }

/-- An XPOSE takes a tile buffer, or waits for one (R216). -/
def xposeTile (s : State) (c : CtxId) (dst : EndField) (ds : Nat) (wide : Bool) : State :=
  let rows := if wide then 32 else 64
  let x := ctxOf s c
  match x.prog.tile with
  | none =>
    if 8 ≤ hallTiles s (ctxDie c) (ctxCluster c) then leaveSeq s c .tile
    else
      let id := s.streams.nextTile + 1
      let outs := (rowSlots (rowAt x.regs dst ds) rows (2 * rows) 0).length
      let tile : Tile := ⟨id, c, List.replicate 4096 0, wide, false, 0, outs⟩
      let s1 := s.onStreams (fun t => { t with nextTile := id, tiles := t.tiles ++ [tile] })
      ctxMod s1 c (fun x => { x with prog := { x.prog with tile := some id } })
  | some _ => s

/-- One source slot of an XPOSE placed; with the last one the output slots are reserved and the next instruction follows. -/
def xposeStep (s : State) (c : CtxId) (src dst : EndField) (ss ds : Nat) (wide : Bool) : State :=
  let s1 := xposeTile s c dst ds wide
  let x := ctxOf s1 c
  match x.prog.tile with
  | none => s1
  | some t =>
    let rows := if wide then 32 else 64
    let srcs := rowSlots (rowAt x.regs src ss) rows (2 * rows) 0
    match srcs[x.prog.slots]? with
    | none => s1
    | some (off, a, n) =>
      let last := x.prog.slots + 1 == srcs.length
      let skipped := x.prog.skipTo - srcs.length
      let s2 := tileMod s1 t (fun b => { b with
        left := b.left + 1, placed := last, outLeft := (if last then b.outLeft - skipped else b.outLeft) })
      issueSlot s2 c (.xposeSrc t off) .read (endpoint s2 0 (handleReg x.regs src.h) 0x1FF a)
        (.hall (BitVec.ofNat 3 (ctxDie c)) (BitVec.ofNat 4 (ctxCluster c))) n 0
        (fun x => if last then finishInstr (reserveOutputs s2 dst ds rows t x) else x)

/-- XPOSE. -/
def execXpose (c : CtxId) (s : State) : Host.Outcome State Fault Refusal :=
  turnAct s c fun
    | .xpose src dst ss ds wide => some (fun s => whenRoom s c (fun s => xposeStep s c src dst ss ds wide))
    | _ => none

/-! ### COMBINE and SEAL (R218, R219) -/

/-- COMBINE: each slot is requested when every earlier one has been delivered (R187). An offset that is no multiple of 64
gives BAD_ARG (R228), and so does a source slot that does not lie in one 256-byte block (R189). -/
def execCombine (c : CtxId) (s : State) : Host.Outcome State Fault Refusal :=
  turnAct s c fun
    | .combine src da qd qc qn pi n cidx => some (fun s => whenDrained s c (fun s => whenRoom s c (fun s =>
        let x := ctxOf s c
        let k := x.prog.slots
        let a := addrReg x.regs src.a + 256 * k
        let off := addrReg x.regs da + 256 * k
        issueSlot s c .combine .write (endpoint s src.kind (handleReg x.regs src.h) 0x1FF a)
          (.combining (BitVec.ofNat 3 qd) (BitVec.ofNat 4 qc) (BitVec.ofNat 4 qn) (BitVec.ofNat 48 off) (BitVec.ofNat 16 cidx))
          256 (if off % 64 != 0 || a % 256 != 0 then Code.badArg else 0)
          (fun x =>
            if k + 1 = n then
              let y := finishInstr x
              if pi then { y with regs := advance2 y.regs src.a (256 * n) da (256 * n) } else y
            else x))))
    | _ => none

/-- SEAL: sixteen slots for each folio, each requested when every earlier one has been delivered. A destination that is no
multiple of 4,096 gives BAD_ARG, and so do a WINDOW destination (R228) and a source slot that does not lie in one 256-byte
block (R189). -/
def execSeal (c : CtxId) (s : State) : Host.Outcome State Fault Refusal :=
  turnAct s c fun
    | .seal src dst n pi => some (fun s => whenDrained s c (fun s => whenRoom s c (fun s =>
        let x := ctxOf s c
        let k := x.prog.slots
        let a := addrReg x.regs src.a + 256 * k
        let b := addrReg x.regs dst.a + 256 * k
        let h := handleReg x.regs dst.h
        issueSlot s c .seal .write (endpoint s src.kind (handleReg x.regs src.h) 0x1FF a)
          (.bank (BitVec.ofNat 33 b) (some (BitVec.ofNat 20 h))) 256
          (if addrReg x.regs dst.a % 4096 != 0 || a % 256 != 0 || namesWindow s h then Code.badArg else 0)
          (fun x =>
            if k + 1 = 16 * n then
              let y := finishInstr x
              if pi then { y with regs := advance2 y.regs src.a (4096 * n) dst.a (4096 * n) } else y
            else x))))
    | _ => none

end Sys2Proof.Machine
end

