-- ==== Sys2Proof/Machine/Signals.lean ====
section
/-! DEFINITION. Tokens on the signal lane: points and their answers (R116, R222), barriers (R117). -/

namespace Sys2Proof.Machine

open Sys2Proof

/-- A request that runs between two dies meets a closed bypass (R430). -/
def ringShut (s : State) (a b : Nat) : Bool := a != b && !(dieOpen s a && dieOpen s b)

/-- A token that has arrived. -/
def tokenOf (s : State) (id : Nat) : Option Token := s.streams.tokens.find? (fun t => t.id == id && t.arrived)

/-- A point token at its target context (R222): its status, and the token held. At most 15 payloads are held; a token beyond
them is counted and dropped. -/
def takeToken (s : State) (payload : BitVec 12) (target sender : CtxId) : State × Nat :=
  let d := ctxDie target
  let n := xbarDomain (ctxCluster target)
  if ringShut s (ctxDie sender) d then (s, Code.fenced)
  else if !domUp s d n then (s, downCode s d n)
  else if ctxTen s target != ctxTen s sender then (s, Code.denied)
  else if (ctxOf s target).st == .idle then (s, Code.state)
  else
    let s1 := ctxMod s target (fun x =>
      if x.points.length < 15 then { x with pcn := x.pcn + 1, points := x.points ++ [payload] }
      else { x with lostPoints := x.lostPoints + 1 })
    let x := ctxOf s1 target
    (if x.wait == .point && x.st == .running && x.stop == .no then makeReady s1 target else s1, Code.done)

/-- POINT_TOKEN_RECEIVE: the token reaches its target's hall; its answer sets out. -/
def execPointTokenReceive (token : Nat) (s : State) : Host.Outcome State Fault Refusal :=
  act s []
    (match tokenOf s token with
     | some ⟨_, .point p target sender, _, _, _, _⟩ =>
       let r := takeToken (dropToken s token) p target sender
       sendToken r.1 (.answer sender (BitVec.ofNat 8 r.2)) (ctxDie target) (some (ctxCluster target)) (ctxDie sender)
         (some (ctxCluster sender))
     | _ => s)

/-- POINT_ANSWER_RECEIVE: the answer returns to its sender, with the effect of R190. -/
def execPointAnswerReceive (token : Nat) (s : State) : Host.Outcome State Fault Refusal :=
  act s []
    (match tokenOf s token with
     | some ⟨_, .answer sender code, _, _, _, _⟩ => ctxOpDone (dropToken s token) sender (stWord code.toNat) 0
     | _ => s)

/-- Keys of a barrier's counts. -/
def barrierKey (d b : Nat) : Nat := d * 4096 + b

/-- An ARRIVE counted at the unit of a member die: at LOCAL arrivals the unit sends one to ROOT (R117). -/
def countLocal (s : State) (d b n : Nat) : State :=
  let cfg := barrierCfg s d b
  let k := SMap.get s.streams.barrierCount (barrierKey d b) 0 + n
  if !bit cfg 31 then s
  else if field cfg 0 13 ≤ k then
    let s1 := s.onStreams (fun t => { t with barrierCount := SMap.set t.barrierCount (barrierKey d b) (k - field cfg 0 13) })
    sendToken s1 (.arrive (BitVec.ofNat 12 b) 1 (BitVec.ofNat 3 d) true) d none (field cfg 28 3) none
  else s.onStreams (fun t => { t with barrierCount := SMap.set t.barrierCount (barrierKey d b) k })

/-- An ARRIVE counted at the root: with one from every die of DIES it sends RELEASE (R117). -/
def countRoot (s : State) (d b origin : Nat) : State :=
  let cfg := barrierCfg s d b
  let held := (SMap.get s.streams.barrierRoot (barrierKey d b) 0).toNat ||| 2 ^ origin
  let dies := field cfg 20 8
  if !bit cfg 31 then s
  else if held &&& dies == dies then
    let s1 := s.onStreams (fun t => { t with barrierRoot := SMap.erase t.barrierRoot (barrierKey d b) })
    ((List.range 8).filter (fun e => dies.testBit e && s.present e)).foldl (fun s e => sendToken s (.release (BitVec.ofNat 12 b)) d none e none) s1
  else s.onStreams (fun t => { t with barrierRoot := SMap.set t.barrierRoot (barrierKey d b) (BitVec.ofNat 8 held) })

/-- BARRIER_ARRIVE_RECEIVE: the token reaches the unit of its die. -/
def execBarrierArriveReceive (token : Nat) (s : State) : Host.Outcome State Fault Refusal :=
  act s []
    (match tokenOf s token with
     | some ⟨_, .arrive b n origin toRoot, d, _, _, _⟩ =>
       let s1 := dropToken s token
       if ringShut s origin.toNat d.toNat then s1
       else if toRoot then countRoot s1 d.toNat b.toNat origin.toNat else countLocal s1 d.toNat b.toNat n
     | _ => s)

/-- A RELEASE delivered to the members of a die (R222). -/
def releaseDie (s : State) (d : Nat) (b : BitVec 12) : State :=
  ((allCtxs s).filter (fun e => ctxDie e.1 == d && e.2.bl == 1 && e.2.bn == b)).foldl (fun s e =>
    let s1 := ctxMod s e.1 (fun x => { x with bl := 3 })
    if e.2.wait == .barrier && e.2.st == .running && e.2.stop == .no then makeReady s1 e.1 else s1) s

/-- BARRIER_RELEASE_RECEIVE. -/
def execBarrierReleaseReceive (token : Nat) (s : State) : Host.Outcome State Fault Refusal :=
  act s []
    (match tokenOf s token with
     | some ⟨_, .release b, d, _, _, _⟩ => releaseDie (dropToken s token) d.toNat b
     | _ => s)

end Sys2Proof.Machine
end

