-- ==== Sys2Proof/Machine/StreamCmds.lean ====
section
/-! DEFINITION. The stream commands (R180-R195, R310, R311): ARM, REARM, HALT, RESUME, ABORT, QUERY, REPLAY, and the task abort
that reaches a die. -/

namespace Sys2Proof.Machine

open Sys2Proof

/-- The context that a stream command names. -/
def cmdCtx (s : State) (src : CmdSrc) : CtxId := BitVec.ofNat 18 (cmdArgF s src 0 0 18)

/-- The issuer may command the context (R181): the tenancies match, and a core stands in the context's cluster. -/
def mayStream (s : State) (src : CmdSrc) (c : CtxId) : Bool :=
  cmdTen s src == ctxTen s c && (match src with
    | .core d k => d.toNat == ctxDie c && k.toNat / 32 == ctxCluster c
    | _ => true)

/-- The hall of a context is down: its status (R356); 0 where it is up. -/
def hallDown (s : State) (c : CtxId) : Nat :=
  let n := xbarDomain (ctxCluster c)
  if clusterFenced s (ctxDie c) (ctxCluster c) then Code.fenced
  else if domUp s (ctxDie c) n then 0 else downCode s (ctxDie c) n

/-- The checks of a stream command in the order of R11: its own BAD_ARG, its issuer, its STATE, its hall, a load of its context in
progress (R397). -/
def streamChecks (s : State) (src : CmdSrc) (c : CtxId) (bad state : Bool) : List (Bool × Nat) :=
  [(bad || !s.present (ctxDie c) || ctxDie c != src.die, Code.badArg), (!mayStream s src c, Code.denied), (state, Code.state),
   (hallDown s c != 0, hallDown s c), ((ctxOf s c).loading.isSome, Code.busy)]

/-! ### ARM and REARM (R177, R178, R182, R194) -/

/-- TA of the descriptor that ARM and REARM name. -/
def armTa (s : State) (src : CmdSrc) : Nat := cmdArgF s src 1 0 27 * 64

/-- A read of the descriptor or of a part of the program requested (R178): a read-class transfer of the group and tenancy with
no handle. -/
def requestLoad (s : State) (c : CtxId) (group off ta len : Nat) : State :=
  request s { blankSlot (identOf (ctxDie c) (groupMaster (ctxCluster c) group)) (ctxTen s c) .read (.load off)
    (.bank (BitVec.ofNat 33 ta) none) (.hall (BitVec.ofNat 3 (ctxDie c)) (BitVec.ofNat 4 (ctxCluster c))) len with ctx := some c }

/-- The load begins with the descriptor. Its read carries the group that the context is bound to, or was last bound to
(DEDUCED, log 19). -/
def startLoad (s : State) (src : CmdSrc) (c : CtxId) (shadow : Bool) : State :=
  let ta := armTa s src
  let s1 := ctxMod (continueCmd s src) c (fun x => { x with
    loading := some ⟨src, BitVec.ofNat 33 ta, shadow, [], [], 1, 0⟩ })
  requestLoad s1 c (ctxOf s c).group.toNat 0 ta 64

/-- An ARM that R180 accepts finds its context IDLE, DONE or ABORTED. -/
def armFree (x : Ctx) : Bool := x.st == .idle || x.st == .done || x.st == .aborted

/-- A REARM that R180 accepts finds its context ARMED, RUNNING or HALTED. -/
def armLive (x : Ctx) : Bool := x.st == .armed || x.st == .running || x.st == .halted

/-- An abort of the live context's task is in progress (R182 row 3). -/
def ctxAborting (s : State) (c : CtxId) : Bool := abortInProgress s (ctxOf s c).task.toNat (ctxTen s c) && armLive (ctxOf s c)

/-- ARM: the checks that need no descriptor (R182), then the descriptor is read. -/
def execArm (src : CmdSrc) (s : State) : Host.Outcome State Fault Refusal :=
  cmdAct s src 0x10 (fun s =>
    let c := cmdCtx s src
    cmdChecked s src (streamChecks s src c (taDie (armTa s src) != ctxDie c) (!armFree (ctxOf s c)))
      (fun s => startLoad s src c false))

/-- REARM: as ARM, on a live context with an empty shadow (R194). -/
def execRearm (src : CmdSrc) (s : State) : Host.Outcome State Fault Refusal :=
  cmdAct s src 0x11 (fun s =>
    let c := cmdCtx s src
    cmdChecked s src (streamChecks s src c (taDie (armTa s src) != ctxDie c) (!armLive (ctxOf s c) || ctxAborting s c)
        ++ [((ctxOf s c).shadow.isSome, Code.full)])
      (fun s => startLoad s src c true))

/-- The checks of a descriptor that has been read (R182): its fields, its group, the abort of its task, the fence. -/
def descStatus (s : State) (c : CtxId) (l : List Word) : Nat :=
  let d := ctxDie c
  let g := descGroup l
  let cfg := regGet s d (.groupCfg (ctxCluster c) g)
  let ta := descProg l * 64
  let reserved := field (l.getD 0 0) 14 2 != 0 || bit (l.getD 0 0) 7 || field (l.getD 1 0) 27 5 != 0
    || field (l.getD 2 0) 2 14 != 0 || field (l.getD 3 0) 0 16 != 0
    || (List.range 4).any (fun i => field (l.getD (4 + i) 0) 20 12 != 0)
  if descTask l == 0xFFFF || 2 ≤ descMode l || reserved || !bit cfg 16 || taDie ta != d
      || 2 ^ 17 < ta % 2 ^ 17 + 4 * (descPlen l + 1) then Code.badArg
  else if field cfg 0 4 != ctxTen s c then Code.denied
  else if abortInProgress s (descTask l) (ctxTen s c) then Code.state
  else if s.fabric.wdogFenced.contains (identOf d (groupMaster (ctxCluster c) g)) then Code.fenced
  else Code.done

/-- The parts of a program of n bytes at an address that lie in one 256-byte block each (R189). `fuel` bounds them. -/
def loadParts : Nat → Nat → Nat → Nat → List (Nat × Nat × Nat)
  | 0, _, _, _ => []
  | fuel + 1, ta, off, n =>
    if n ≤ off then []
    else
      let k := min (n - off) (256 - (ta + off) % 256)
      (off, ta + off, k) :: loadParts fuel ta (off + k) n

/-- The descriptor of a load arrives: a failed read or check ends the load, else the program's reads set out. -/
def descArrived (s : State) (c : CtxId) (l : Loading) (status : Word) (data : List Byte) : State :=
  let put := fun (s : State) (l : Loading) => ctxMod s c (fun x => { x with loading := some l })
  if stCode status != Code.done then put s { l with left := 0, status := status }
  else
    let words := (List.range 16).map (fun i => word (leNat ((data.drop (4 * i)).take 4)))
    let code := descStatus s c words
    if code != Code.done then put s { l with left := 0, desc := words, status := stWord code }
    else
      let parts := loadParts 4 (descProg words * 64) 0 (4 * (descPlen words + 1))
      let s1 := put s { l with left := parts.length, desc := words }
      parts.foldl (fun s p => requestLoad s c (descGroup words) p.1 p.2.1 p.2.2) s1

/-- A read of a load is delivered (R178, R182). -/
def loadDelivered (s : State) (c : CtxId) (off : Nat) (status : Word) (data : List Byte) : State :=
  match (ctxOf s c).loading with
  | none => s
  | some l =>
    if l.desc.isEmpty then descArrived s c l status data
    else
      ctxMod s c (fun x => { x with loading := some { l with
        left := l.left - 1, prog := l.prog ++ [(off, data)],
        status := if stCode l.status == Code.done then status else l.status } })

/-- Descriptor and program of a load whose reads are complete. -/
def loadedImage (l : Loading) : Image :=
  let bytes := ((sortBy (fun (a b : Nat × List Byte) => a.1 ≤ b.1) l.prog).map (·.2)).flatten
  ⟨l.desc, (List.range (descPlen l.desc + 1)).map (fun i => word (leNat ((bytes.drop (4 * i)).take 4)))⟩

/-- A load that ends without its image: a refused descriptor leaves everything as it was, a failed read of an ARM leaves the
context IDLE (R182). -/
def loadFailed (s : State) (c : CtxId) (l : Loading) : State :=
  let refused := !l.desc.isEmpty && l.prog.isEmpty
  let s1 := if refused || l.shadow then ctxMod s c (fun x => { x with loading := none }) else ctxSet s c .idle
  completeCmd s1 l.src (stWord (stCode l.status) (stDetail l.status))

/-- The reads of a load have all been delivered. -/
def loadOver (s : State) (c : CtxId) (shadow : Bool) : Option Loading :=
  match (ctxOf s c).loading with
  | some l => if l.shadow == shadow && l.left == 0 then some l else none
  | none => none

/-- ARM_LOAD_DONE: the context is ARMED with every register at its initial value (R196), or the ARM fails. -/
def execArmLoadDone (ctx : CtxId) (s : State) : Host.Outcome State Fault Refusal :=
  act s [ctxDie ctx]
    (match loadOver s ctx false with
     | none => s
     | some l =>
       if stCode l.status != Code.done then loadFailed s ctx l
       else
         let s1 := startRun s ctx (loadedImage l) false
         endCmd (ctxMod s1 ctx (fun x => { x with runs := 0, shadow := none })) l.src Code.done)

/-- REARM_LOAD_DONE: the shadow is held; a context whose run has ended or is being aborted by now takes none and the command
returns STATE (DEDUCED, log 20). -/
def execRearmLoadDone (ctx : CtxId) (s : State) : Host.Outcome State Fault Refusal :=
  act s [ctxDie ctx]
    (match loadOver s ctx true with
     | none => s
     | some l =>
       if stCode l.status != Code.done then loadFailed s ctx l
       else
         let x := ctxOf s ctx
         let live := armLive x && (match x.stop with | .aborting _ _ => false | _ => true)
         let s1 := ctxMod s ctx (fun x => { x with
           loading := none, shadow := if live then some (loadedImage l) else x.shadow })
         endCmd s1 l.src (if live then Code.done else Code.state))

/-! ### HALT, RESUME, ABORT, QUERY (R180, R186, R191-R193) -/

/-- HALT: it returns DONE when the context is HALTED; a context halted with SLIPQ_FULL takes HCAUSE SOFTWARE and is not
resumed by its queue any more (R192). -/
def execHalt (src : CmdSrc) (s : State) : Host.Outcome State Fault Refusal :=
  cmdAct s src 0x12 (fun s =>
    let c := cmdCtx s src
    let x := ctxOf s c
    cmdChecked s src (streamChecks s src c false (!(x.st == .armed || x.st == .running || (x.st == .halted && x.hcause == 7))))
      (fun s =>
        if x.st == .halted then
          endCmd (ctxMod (unlist s c) c (fun x => { x with hcause := 1, listed := false })) src Code.done
        else startHalt (continueCmd s src) c 1))

/-- RESUME: the masked handle registers take new handles, and the context goes on at its saved position (R192). -/
def execResume (src : CmdSrc) (s : State) : Host.Outcome State Fault Refusal :=
  cmdAct s src 0x13 (fun s =>
    let c := cmdCtx s src
    let x := ctxOf s c
    cmdChecked s src (streamChecks s src c false (x.st != .halted))
      (fun s =>
        let hs := (List.range 4).map (fun i =>
          if bit (cmdArg s src 1) i then BitVec.ofNat 20 (cmdArgF s src (2 + i) 0 20) else x.regs.h.getD i 0)
        endCmd (resumeCtx (ctxMod s c (fun x => { x with regs := { x.regs with h := hs } })) c) src Code.done))

/-- ABORT: a live context's task is aborted, and the command returns when no context of it is still to become ABORTED; a
DONE or ABORTED context becomes IDLE and loses its snapshot (R180, R193, R309). A context of another die is reached over
the ring (R399). -/
def execAbort (src : CmdSrc) (s : State) : Host.Outcome State Fault Refusal :=
  cmdAct s src 0x14 (fun s =>
    let c := cmdCtx s src
    let x := ctxOf s c
    cmdChecked s src [(!s.present (ctxDie c), Code.badArg), (!mayStream s src c, Code.denied), (x.st == .idle, Code.state),
        (ringShut s src.die (ctxDie c), Code.fenced), (hallDown s c != 0, hallDown s c), (x.loading.isSome, Code.busy)]
      (fun s =>
        if x.st == .done || x.st == .aborted then endAborts (endCmd (ctxSet s c .idle) src Code.done)
        else ctxAbort (continueCmd s src) c 1))

/-- Number of a context state (R186). -/
def CtxState.code : CtxState → Nat
  | .idle => 0 | .armed => 1 | .running => 2 | .halted => 3 | .done => 4 | .aborted => 5

/-- WAIT of QUERY: the context waits under R185 or R187 (DEDUCED, log 21: every wait but those for an index slot and for a
tile buffer). -/
def Wait.shown : Wait → Bool
  | .none => false | .index => false | .tile => false | _ => true

/-- The slot of SPOS: where an XPOSE is to go on, its saved slot (R217). -/
def spos (x : Ctx) : Nat := if x.st == .halted && opcodeAt x == 0x13 then x.prog.skipTo else x.prog.slots

/-- The result words of QUERY (R186). OUT counts the outstanding slots of R185; a single-shot operation in flight, which R191 counts as
outstanding, is not in it (DESIGN CHOICE, log 21). -/
def queryWords (x : Ctx) : List Nat :=
  [put 29 3 x.st.code + putB 28 x.shadow.isSome + putB 27 x.onSeq + putB 26 x.wait.shown
     + put 20 4 (if x.st == .halted then x.hcause.toNat else 0) + put 16 4 (if x.st == .aborted then x.acause.toNat else 0)
     + x.task.toNat,
   put 18 7 x.regs.ip + put 0 16 (spos x),
   put 18 6 x.group.toNat + (if x.st == .aborted then x.origin.toNat else 0),
   put 16 16 x.runs.toNat + put 0 7 (outstanding x),
   x.faddr.toNat % 2 ^ 32,
   put 16 16 x.fdetail.toNat + x.faddr.toNat / 2 ^ 32]

/-- QUERY. -/
def execQuery (src : CmdSrc) (s : State) : Host.Outcome State Fault Refusal :=
  cmdAct s src 0x15 (fun s =>
    let c := cmdCtx s src
    cmdChecked s src (streamChecks s src c false false)
      (fun s => completeCmd s src (stWord Code.done) (queryWords (ctxOf s c))))

/-! ### REPLAY (R309-R311) -/

/-- The contexts of a task of a tenancy on the dies that a command's die reaches (R310). -/
def taskCtxs (s : State) (d task ten : Nat) : List (CtxId × Ctx) :=
  (allCtxs s).filter (fun e => e.2.st != .idle && e.2.task.toNat == task && ctxTen s e.1 == ten && !ringShut s d (ctxDie e.1))

/-- A context that REPLAY restarts. -/
def replayable (x : Ctx) : Bool := (x.st == .done || x.st == .aborted) && x.snapshot

/-- The EPOCH of a snapshot is not later than FROM of the tenancy on its die (R310, R13). -/
def epochOld (s : State) (ten : Nat) (e : CtxId × Ctx) : Bool :=
  let d := ctxDie e.1
  let frm := rf s d (.stepHold ten) 0 16
  let ep := descEpoch e.2.image.desc
  isUnsafe s d (.stepHold ten) || ep == frm || !epochFrom ep frm

/-- REPLAY: every context of the task restarts its run from its snapshot. A host window issues it. -/
def execReplay (src : CmdSrc) (s : State) : Host.Outcome State Fault Refusal :=
  cmdAct s src 0x16 (fun s =>
    let task := cmdArgF s src 0 0 16
    let ten := cmdTen s src
    let all := taskCtxs s src.die task ten
    let mine := all.filter (fun e => replayable e.2)
    cmdChecked s src [(task == 0xFFFF, Code.badArg), (src.win.isNone, Code.denied),
        (all.any (fun e => armLive e.2) || abortInProgress s task ten || mine.isEmpty, Code.state),
        (mine.any (epochOld s ten), Code.state)]
      (fun s =>
        let s1 := mine.foldl (fun s e => startRun s e.1 e.2.image false) s
        completeCmd s1 src (stWord Code.done (min mine.length 0xFFFF))))

/-! ### A task abort over the ring (R193) -/

/-- TASK_ABORT_RECEIVE: a die that has still to hear of the abort stops the task's contexts. -/
def execTaskAbortReceive (d : Die) (task : BitVec 16) (ten : Win) (s : State) : Host.Outcome State Fault Refusal :=
  act s [d.toNat]
    (match s.streams.aborts.find? (fun a => a.task == task && a.ten == ten && a.dies.contains d.toNat) with
     | none => s
     | some a =>
       let s1 := s.onStreams (fun t => { t with aborts := t.aborts.map (fun b =>
         if b == a then { b with dies := b.dies.filter (· != d.toNat) } else b) })
       endAborts (abortOnDie s1 d.toNat task.toNat ten.toNat a.acause.toNat a.origin.toNat))

end Sys2Proof.Machine
end

