-- ==== Sys2Proof/Machine/Catalogue.lean ====
section
/-! DEFINITION. The catalogue commands (R46-R62): CAT_ALLOC, CAT_FREE, CAT_UPDATE, WIN_SYNC, the changes of a folio's class, and
the window translator. -/

namespace Sys2Proof.Machine

open Sys2Proof

/-! ### Ranges and entries (R46, R55) -/

/-- Entries of a tenancy's range. -/
def catRangeOf (s : State) (d t : Nat) : List Nat :=
  let r := regGet s d (.catRange t)
  (List.range (field r 16 13)).map (· + field r 0 12)

/-- The entries of a die that a CAT_ALLOC in progress has taken. -/
def takenEntries (s : State) (d : Nat) : List Nat := (s.sup.allocs.filter (fun a => a.src.die == d)).map (·.entry)

/-- The free entry of a range that has been free the longest, the lowest number between equals (R55). Entries that no command
has freed have been free since die reset. -/
def oldestFree (s : State) (d t : Nat) : Option Nat :=
  let since := fun (e : Nat) => SMap.get s.sup.catFreed (d * 4096 + e) 0
  ((catRangeOf s d t).filter (fun e => !catValid s d e && !(takenEntries s d).contains e)).foldl (fun acc e => match acc with
    | none => some e
    | some a => if since e < since a then some e else some a) none

/-- The errors of an entry's words in the catalogue array are gone: the entry is freed or written anew, and can be used again (R48). -/
def mendEntry (s : State) (d e : Nat) : State :=
  s.onSup (fun u => { u with
    catUpsets := SMap.eraseIf u.catUpsets (fun k => k / 4 == d * 4096 + e), catReported := u.catReported.filter (· != d * 4096 + e) })

/-- An entry freed: VALID cleared, GEN advanced modulo 16, its errors gone, a window's descriptors dropped (R48, R55, R61). -/
def freeEntry (s : State) (d e : Nat) : State :=
  let w0 := catW s d e 0
  let gen := (field w0 28 4 + 1) % 16
  let order := (s.sup.catFreed.map (·.2)).foldl max 0 + 1
  let s1 := dropDescriptors (mendEntry s d e) (fun t => t.die == d && t.entry == e)
  let s2 := s1.onSup (fun u => { u with catFreed := SMap.set u.catFreed (d * 4096 + e) order })
  regSet s2 d (.catWord e 0) (setField (setField w0 23 1 0) 28 4 gen)

/-! ### CAT_ALLOC (R49-R55, R59, R230) -/

/-- OWNER lies in the range of R40 for KIND. -/
def ownerOk (kind owner : Nat) : Bool :=
  match kind with
  | 0 => owner == 0x840 | 1 => decide (owner < 0x200) | 2 => decide (0x400 ≤ owner) && decide (owner < 0x800)
  | 3 => owner == 0x820 || owner == 0x830 | 4 => owner == 0x800 | _ => false

/-- Row 1 of R43 and its part of row 1 of R52: KIND, OWNER and ODIE agree. -/
def ownerFieldsOk (s : State) (kind odie owner : Nat) : Bool :=
  ownerOk kind owner && s.present odie && (odie == 0 || kind == 1 || kind == 2)

/-- What a CAT_ALLOC asks for. -/
structure AllocReq where
  w0 : Word
  w1 : Word
  w2 : Word
  w3 : Word
deriving DecidableEq, Repr

/-- The four words of a CAT_ALLOC. -/
def allocReq (s : State) (src : CmdSrc) : AllocReq := ⟨cmdArg s src 0, cmdArg s src 1, cmdArg s src 2, cmdArg s src 3⟩

def AllocReq.window (r : AllocReq) : Bool := bit r.w0 22
def AllocReq.cls (r : AllocReq) : Nat := field r.w0 20 2
def AllocReq.strength (r : AllocReq) : Nat := field r.w0 18 2
def AllocReq.base (r : AllocReq) : Nat := field r.w1 0 21
def AllocReq.extent (r : AllocReq) : Nat := field r.w2 0 21
def AllocReq.kind (r : AllocReq) : Nat := field r.w3 19 3
def AllocReq.odie (r : AllocReq) : Nat := field r.w3 16 3
def AllocReq.owner (r : AllocReq) : Nat := field r.w3 0 12

/-- The class that the entry gives its folios. -/
def AllocReq.protection (r : AllocReq) : Protection :=
  match r.cls with | 0 => .byte | 1 => .word | _ => .folio (BitVec.ofNat 2 r.strength)

/-- First and last folio of the range, or of the page table (R49, R59). -/
def AllocReq.folios (r : AllocReq) : Nat × Nat :=
  if r.window then (r.base, r.base + (8 * (r.extent + 1) + 4095) / 4096 - 1) else (r.base, r.base + r.extent)

/-- The folios of a range. -/
def folioList (p : Nat × Nat) : List Nat := (List.range (p.2 + 1 - p.1)).map (· + p.1)

/-- The banks of a range of folios. -/
def bankList (p : Nat × Nat) : List Nat := (List.range (p.2 / 32 + 1 - p.1 / 32)).map (· + p.1 / 32)

/-- Row 1 of R52. The class of a page table (R59) is asked of its own folios (DESIGN CHOICE, log 24). -/
def allocBad (s : State) (d ten : Nat) (r : AllocReq) : Bool :=
  let mcg := field r.w1 23 9
  let reserved := field r.w0 28 4 != 0 || field r.w0 24 4 != 0 || bit r.w0 23 || field r.w0 16 2 != 0 || field r.w1 21 2 != 0
    || field r.w2 21 9 != 0 || field r.w3 22 10 != 0 || field r.w3 12 4 != 0
  let types :=
    if r.window then r.cls != 0 || r.strength != 0 || field r.w2 30 2 == 3 || 0xFFFFF < r.extent
    else r.cls == 3 || (r.strength != 0 && r.cls != 2) || field r.w2 30 2 != 0
  let last := r.folios.2
  let place := r.base / 2 ^ 18 != d || last / 2 ^ 18 != d
  let table := r.window && ((folioList r.folios).any (fun f => (classOf s f).code != 1)
    || (bankList r.folios).any (fun b => ownTen (ownOf s b) != ten))
  reserved || types || (0x140 ≤ mcg && mcg != 0x1FF) || !ownerFieldsOk s r.kind r.odie r.owner || place || table

/-- The folios whose class or strength the allocation changes (R50). -/
def classChanges (s : State) (r : AllocReq) : List Nat :=
  if r.window then [] else (folioList r.folios).filter (fun f => classOf s f != r.protection)

/-- A buffer entry of another class or strength, live or of a CAT_ALLOC in progress, covers a folio of the range (R51). -/
def classConflict (s : State) (d : Nat) (r : AllocReq) : Bool :=
  let clash := fun (p : Nat × Nat) (w0 : Word) =>
    p.1 ≤ r.folios.2 && r.folios.1 ≤ p.2 && (field w0 20 2 != r.cls || field w0 18 2 != r.strength)
  !r.window && ((liveEntries s d).any (fun e => !catIsWindow s d e && clash (entryFolios s d e) (catW s d e 0))
    || s.sup.allocs.any (fun a => a.src.die == d && !a.window && clash (allocReq s a.src).folios (allocReq s a.src).w0))

/-- Phase 1 of a weeding. -/
def Pause.isPhase1 : Pause → Bool
  | .phase1 _ _ _ => true | _ => false

/-- A bank is in phase 1 of a weeding, or in the wake before it (R53, R347). -/
def inPhase1 (s : State) (b : Nat) : Bool :=
  match pauseOf s b with
  | some p => (p.kind :: p.behind).any Pause.isPhase1
  | none => false

/-- WINDOW entries of a die, live or of a CAT_ALLOC in progress (R55). -/
def liveWindows (s : State) (d : Nat) : Nat :=
  ((liveEntries s d).filter (catIsWindow s d)).length + (s.sup.allocs.filter (fun a => a.src.die == d && a.window)).length

/-- The rows of R52 in their order. -/
def allocChecks (s : State) (src : CmdSrc) (r : AllocReq) : List (Bool × Nat) :=
  let d := src.die
  let ten := cmdTen s src
  [(allocBad s d ten r, Code.badArg), (src.win.isNone, Code.denied), (!domUp s d 47, downCode s d 47),
   (classConflict s d r || (classChanges s r).any (structFolio s), Code.state),
   ((bankList r.folios).any (retired s) || (r.kind == 1 && coreFenced s r.odie r.owner), Code.fenced),
   ((bankList r.folios).any (inPhase1 s), Code.busy),
   ((oldestFree s d ten).isNone || (r.window && 256 ≤ liveWindows s d), Code.full)]

/-- CAT_ALLOC: its checks, all in one cycle; then its entry is taken, so that no later command can refuse it, and the folios whose class
changes wait for their cycle (R50, R52, R55). -/
def execCatAlloc (src : CmdSrc) (s : State) : Host.Outcome State Fault Refusal :=
  cmdAct s src 0x20 (fun s =>
    let r := allocReq s src
    cmdChecked s src (allocChecks s src r) (fun s =>
      let taken := ((oldestFree s src.die (cmdTen s src)).map (fun e => (⟨src, e, r.window⟩ : AllocHold))).toList
      ((continueCmd s src).onSup (fun u => { u with allocs := u.allocs ++ taken })).onBanks (fun b => { b with
        folioClears := b.folioClears ++ (classChanges s r).map (fun f => ⟨f, r.protection, src⟩) })))

/-- A folio's class set, its valid bits cleared in a free cycle of its bank; what stood in it is gone: its merge entries, its
seal context and its collation (R50, R151, R160, R168). -/
def changeClass (s : State) (f : Nat) (p : Protection) (src : CmdSrc) : State :=
  let s1 := mergeDiscardFor (releaseSeals s (fun c => c.folio == f) true) (some (.alloc src)) (fun e => lnFolio e.line == f)
  let s2 := setSeal (dropCollations s1 (· == f)) f .opened
  s2.onBanks (fun b => { b with
    classMap := SMap.set b.classMap f p, valid := SMap.eraseIf b.valid (fun pl => lnFolio pl == f) })

/-- FOLIO_CLASS_CLEAR: the change of a folio that waits, in the first cycle that R89 leaves free, counting single cycles. A
sleeping bank is woken first (DEDUCED, log 24). -/
def execFolioClassClear (folio : FolioNo) (s : State) : Host.Outcome State Fault Refusal :=
  let f := folio.toNat
  let b := foBank f
  act s [pbDie b]
    (match s.banks.folioClears.find? (fun c => c.folio == f) with
     | none => s
     | some c =>
       if (pauseOf s b).isNone && asleep s b then startWake s b []
       else match nextFree s b 1 with
         | none => s
         | some t =>
           let s1 := useCycles (advanceTo s t) b t 1
           let s2 := changeClass s1 f c.next c.src
           presentAll (wakeSeals (s2.onBanks (fun k => { k with folioClears := k.folioClears.erase c }))))

/-- The entry's words as CAT_ALLOC writes them: GEN kept, TEN and VALID set. -/
def writeEntry (s : State) (d e ten : Nat) (r : AllocReq) : State :=
  let gen := catGen s d e
  let w0 := word (put 28 4 gen + put 24 4 ten + 2 ^ 23 + field r.w0 0 23)
  regSet (regSet (regSet (regSet (mendEntry s d e) d (.catWord e 0) w0) d (.catWord e 1) r.w1) d (.catWord e 2) r.w2) d (.catWord e 3) r.w3

/-- CAT_ENTRY_IN_FORCE: every class change of the command is made, and no covered bank is in phase 1 of a weeding; the entry
comes into force and the command returns its handle (R53, R55, R57). A folio whose class has been changed back meanwhile is
changed again. -/
def execCatEntryInForce (src : CmdSrc) (s : State) : Host.Outcome State Fault Refusal :=
  act s [src.die]
    (let r := allocReq s src
     let d := src.die
     let ten := cmdTen s src
     if !(cmdOngoing s src && cmdOpcode s src == 0x20) || s.banks.folioClears.any (fun c => c.src == src)
         || (bankList r.folios).any (inPhase1 s) then s
     else if !domUp s d 47 then endCmd (logLost s (.alloc src)) src (downCode s d 47)
     else match classChanges s r, s.sup.allocs.find? (fun a => a.src == src) with
       | [], some a =>
         completeCmd (writeEntry (logLost s (.alloc src)) d a.entry ten r) src (stWord Code.done)
           [put 16 4 (catGen s d a.entry) + put 12 3 d + a.entry]
       | [], none => s
       | more, _ => s.onBanks (fun b => { b with folioClears := b.folioClears ++ more.map (fun f => ⟨f, r.protection, src⟩) }))

/-! ### CAT_FREE, CAT_UPDATE, WIN_SYNC (R55, R57, R58, R61, R308) -/

/-- The issuer may update or free an entry (R58). -/
def mayEntry (s : State) (src : CmdSrc) (d e : Nat) : Bool :=
  match src with
  | .core _ k =>
    let w := catW s d e 3
    field w 16 3 == d
      && ((field w 19 3 == 1 && field w 0 12 == k.toNat)
        || (field w 19 3 == 2 && (field w 0 12 - 0x400) / 64 == k.toNat / 32 && coreTag s d k.toNat == catTen s d e))
  | _ => cmdTen s src == catTen s d e

/-- A command's use of the entry that its handle names, on its own die (R48, R401). -/
def useOwn (s : State) (src : CmdSrc) (h : Nat) : State := if hDie h = src.die then useEntry s h else s

/-- The checks of a command that names a handle. -/
def handleChecks (s : State) (src : CmdSrc) (h : Nat) : List (Bool × Nat) :=
  [(!handleForm s h || hDie h != src.die, Code.badArg), (!domUp s (hDie h) 47, downCode s (hDie h) 47),
   (entryLost s h, Code.uncorrectable), (!handleCurrent s h, Code.stale)]

/-- CAT_FREE. A held entry is not freed (R308). An entry with an uncorrectable error is freed by its handle all the same (R48). -/
def execCatFree (src : CmdSrc) (s : State) : Host.Outcome State Fault Refusal :=
  cmdAct s src 0x21 (fun s =>
    let h := cmdArgF s src 0 0 20
    let d := hDie h
    let e := hEntry h
    cmdChecked (useOwn s src h) src ((handleChecks s src h).filter (fun c => c.2 != Code.uncorrectable)
        ++ [(!mayEntry s src d e, Code.denied), (catHeld s d e, Code.state)])
      (fun s => endCmd (freeEntry s d e) src Code.done))

/-- CAT_UPDATE: EPOCH and MCG, each where its SET bit is 1; a held entry keeps its EPOCH (R308). A reserved MCG is BAD_ARG, ahead of
the checks of the handle (DESIGN CHOICE, log 24). -/
def execCatUpdate (src : CmdSrc) (s : State) : Host.Outcome State Fault Refusal :=
  cmdAct s src 0x22 (fun s =>
    let h := cmdArgF s src 0 0 20
    let d := hDie h
    let e := hEntry h
    let a := cmdArg s src 1
    let mcg := field a 7 9
    let epoch := field a 16 16
    cmdChecked (useOwn s src h) src ([(bit a 1 && 0x140 ≤ mcg && mcg != 0x1FF, Code.badArg)] ++ handleChecks s src h
        ++ [(!mayEntry s src d e, Code.denied), (bit a 0 && epoch != catEpoch s d e && catHeld s d e, Code.state)])
      (fun s =>
        let s1 := if bit a 0 then regField s d (.catWord e 0) 0 16 epoch else s
        let s2 := if bit a 1 then regField s1 d (.catWord e 1) 23 9 mcg else s1
        endCmd s2 src Code.done))

/-- WIN_SYNC: the descriptors of a window are to be dropped. Only the host window of the entry's tenancy names its type
(R466). -/
def execWinSync (src : CmdSrc) (s : State) : Host.Outcome State Fault Refusal :=
  cmdAct s src 0x23 (fun s =>
    let h := cmdArgF s src 0 0 20
    let d := hDie h
    let e := hEntry h
    cmdChecked (useOwn s src h) src (handleChecks s src h
        ++ [(src.win.isNone || cmdTen s src != catTen s d e, Code.denied), (!catIsWindow s d e, Code.badArg)])
      (fun s => (continueCmd s src).onRemote (fun r => { r with syncs := r.syncs ++ [⟨src, d, e⟩] })))

/-- WIN_SYNC_DONE: the translator holds no descriptor of the window any more. -/
def execWinSyncDone (src : CmdSrc) (s : State) : Host.Outcome State Fault Refusal :=
  act s [src.die]
    (match s.remote.syncs.find? (fun y => y.src == src) with
     | none => s
     | some y =>
       let s1 := dropDescriptors s (fun t => t.die == y.die && t.entry == y.entry)
       endCmd (s1.onRemote (fun r => { r with syncs := r.syncs.filter (fun z => z.src != src) })) src Code.done)

/-! ### The translator (R60, R61) -/

/-- A descriptor enters the translator, which holds the 4,096 most recent of its die. -/
def holdDescriptor (s : State) (t : Descriptor) : State :=
  let mine := s.remote.translator.filter (fun x => x.die == t.die)
  let s1 := if mine.length < 4096 then s else match mine.head? with
    | some old => dropDescriptors s (· == old) | none => s
  s1.onRemote (fun r => { r with translator := r.translator ++ [t] })

/-- A transfer that has its descriptor goes on. -/
def translated (s : State) (x : Slot) : State :=
  presentAll (slotMod (useDescriptor s x) x.id (fun y => { y with stage := windowStage s x }))

/-- TRANSLATOR_FILL: the WORD read of the descriptor of a waiting transfer completes. A sleeping bank is woken for it, and a
descriptor that cannot be read returns UNCORRECTABLE (R61, R145). A transfer whose handle has failed meanwhile goes to its
arbiter, which refuses it. -/
def execTranslatorFill (id : Nat) (s : State) : Host.Outcome State Fault Refusal :=
  act s []
    (match s.fabric.slots.find? (fun x => x.id == id && x.stage == .translate) with
     | none => s
     | some x =>
       match x.windowEnd with
       | none => s
       | some (h, o, _) =>
         if windowStage s x != .translate then translated s x
         else
           let d := hDie h
           let ta := descriptorTa s h (o / catPage s d (hEntry h))
           let b := taPkgBank ta
           if !domUp s d (bankDomain (pbBank b)) then refuseEarly s x (stWord (downCode s d (bankDomain (pbBank b))))
           else if (pauseOf s b).isSome then s
           else if asleep s b then startWake s b []
           else
             let r := readBlock (touchBank s b) ta 8 0x7FFF (slotTask s x)
             if stCode r.2.status != Code.done then refuseEarly r.1 x r.2.status
             else translated (holdDescriptor r.1 ⟨d, hEntry h, o / catPage s d (hEntry h), BitVec.ofNat 64 (leNat r.2.data)⟩) x)

end Sys2Proof.Machine
end

