-- ==== Sys2Proof/Machine/QueueCmds.lean ====
section
/-! DEFINITION. The commands of sharing structures: queue engines and their statuses (R233, R234), host and core operations
(R241, R256, R258), combining rounds (R246, R247, R250, R252), configuration writes (R229). -/

namespace Sys2Proof.Machine

open Sys2Proof

/-- Die of the structure that an operation names. -/
def OpKind.die : OpKind → Nat
  | .give q _ => qDie q.toNat | .take q => qDie q.toNat | .testQueue q => qDie q.toNat
  | .rsPost i _ _ => i.toNat / 4096 | .rsRead i => i.toNat / 4096 | .rsConsume i _ => i.toNat / 4096 | .testResult i => i.toNat / 4096

/-- The structure that an operation names, by a number of its own. -/
def OpKind.struct : OpKind → Nat
  | .give q _ => q.toNat | .take q => q.toNat | .testQueue q => q.toNat
  | .rsPost i _ _ => 8192 + i.toNat / 16 | .rsRead i => 8192 + i.toNat / 16 | .rsConsume i _ => 8192 + i.toNat / 16
  | .testResult i => 8192 + i.toNat / 16

/-- The line that an operation of tenancy t accesses by port B as things stand, and whether it is a read-modify-write; none where it
answers without (R233, R241, R256). A notice has its entry reserved (R285). -/
def OpKind.portB (s : State) (t : Nat) (notice : Bool) : OpKind → Option (Nat × Bool)
  | .give q _ =>
    let v := sqOf s q.toNat
    if field (sqReg s q.toNat) 16 4 == t && bit (sqReg s q.toNat) 23 && v.count + (if notice then 0 else v.reserved) < 32
    then some ((slipPlace s q.toNat (v.head + v.count)).1, true) else none
  | .take q =>
    let v := sqOf s q.toNat
    if field (sqReg s q.toNat) 16 4 == t && bit (sqReg s q.toNat) 23 && v.count != 0 then some ((slipPlace s q.toNat v.head).1, false) else none
  | .rsPost i _ _ =>
    let r := rsReg s (i.toNat / 4096) (i.toNat % 4096)
    if field r 16 4 == t && bit r 23 && !(rsOf s (i.toNat / 4096) (i.toNat % 4096)).ready
    then some (rsLine s (i.toNat / 4096) (i.toNat % 4096), false) else none
  | .rsRead i =>
    let r := rsReg s (i.toNat / 4096) (i.toNat % 4096)
    if field r 16 4 == t && bit r 23 && (rsOf s (i.toNat / 4096) (i.toNat % 4096)).ready
    then some (rsLine s (i.toNat / 4096) (i.toNat % 4096), false) else none
  | _ => none

/-- Die of an operation's issuer. -/
def OpIssuer.die : OpIssuer → Nat
  | .ctx c => ctxDie c | .core d _ => d.toNat | .host src => src.die | .engine d => d.toNat

/-- The issuer is the remote engine: the operation is a notice. -/
def OpIssuer.notice : OpIssuer → Bool
  | .engine _ => true | _ => false

/-- What an operation answers: status, slip, length, data. -/
structure OpAnswer where
  status : Word
  slip : Word
  len : Nat
  data : List Byte
deriving DecidableEq, Repr

/-- A status alone. -/
def OpAnswer.code (st : Word) : OpAnswer := ⟨st, 0, 0, []⟩

/-- The task of an operation's issuer; only a stream has one. -/
def OpIssuer.task (s : State) : OpIssuer → Nat
  | .ctx c => (ctxOf s c).task.toNat
  | _ => 0xFFFF

/-- An operation carried out at its queue engine (R233, R241, R256). -/
def carryOut (s : State) (o : QOp) : State × OpAnswer :=
  let t := o.ten.toNat
  let task := o.issuer.task s
  match o.kind with
  | .give q slip => let r := sqGive s q.toNat t slip o.issuer.notice o.ident task; (r.1, .code r.2)
  | .take q => let r := sqTake s q.toNat t o.ident task; (r.1, ⟨r.2.1, r.2.2, 0, []⟩)
  | .testQueue q => (s, .code (sqTest s q.toNat t))
  | .rsPost i len data => let r := rsPost s (i.toNat / 4096) (i.toNat % 4096) t len data; (r.1, .code r.2)
  | .rsRead i => let r := rsRead s (i.toNat / 4096) (i.toNat % 4096) t o.ident task; (r.1, ⟨r.2.1, 0, r.2.2.1, r.2.2.2⟩)
  | .rsConsume i n => let r := rsConsume s (i.toNat / 4096) (i.toNat % 4096) t n.toNat; (r.1, .code r.2)
  | .testResult i => (s, .code (rsTest s (i.toNat / 4096) (i.toNat % 4096) t))

/-- An operation answered; a notice awaits no answer. -/
def answerOp (s : State) (o : QOp) (a : OpAnswer) : State :=
  let answered := { o with done := true, status := a.status, slip := a.slip, len := a.len, data := a.data }
  s.onQueues (fun q => { q with ops := q.ops.filterMap (fun p =>
    if p.id != o.id then some p else if o.issuer.notice then none else some answered) })

/-- An operation reaches its engine in this cycle, or in the next where the structure has taken one of a higher master identity in this:
of operations that arrive in one cycle the lower identity comes first (R233). -/
def arrivalOf (s : State) (o : QOp) : Nat :=
  if s.queues.served.any (fun e => e.1 == s.now && e.2.1 == o.kind.struct && o.ident < e.2.2) then s.now + 1 else s.now

/-- The operation is noted as taken in this cycle. -/
def noteServed (s : State) (o : QOp) : State :=
  s.onQueues (fun q => { q with served := q.served.filter (fun e => e.1 == s.now) ++ [(s.now, o.kind.struct, o.ident)] })

/-- An operation carried out and answered. -/
def serveOp (s : State) (o : QOp) : State :=
  let r := carryOut (noteServed s o) o
  presentAll (answerOp r.1 o r.2)

/-- QUEUE_ENGINE_OP. An operation to another die with a closed bypass, or to a die whose queue logic is down, is refused
(R356, R430). One that accesses a line waits for its cycle of port B (R69, R233), and where its bank sleeps or is paused for that to end
(R87). -/
def execQueueEngineOp (op : Nat) (s : State) : Host.Outcome State Fault Refusal :=
  act s []
    (match s.queues.ops.find? (fun o => o.id == op && !o.done) with
     | none => s
     | some o =>
       let d := o.kind.die
       if ringShut s o.issuer.die d then answerOp s o (.code (stWord Code.fenced))
       else if !domUp s d 47 then answerOp s o (.code (stWord (downCode s d 47)))
       else match o.kind.portB s o.ten.toNat o.issuer.notice with
         | none => atCycle s (arrivalOf s o) (fun s => serveOp s o)
         | some (pl, rmw) =>
           if portBShut s (lnBank pl) then wakeForB s (lnBank pl)
           else match portBCycle s pl rmw (arrivalOf s o) with
             | none => s
             | some c => atCycle s c (fun s => serveOp (usePortB s (lnBank pl) rmw) o))

/-- QOP_STS, QOP_ARG and QOP_DATA as an operation of a core returns (R258). -/
def coreOpDone (s : State) (d core : Nat) (o : QOp) : State :=
  let done := stCode o.status == Code.done
  let st := match o.kind with
    | .rsRead _ => if done then stWord Code.done o.len (bit o.status 10) (bit o.status 9) (bit o.status 8) else o.status
    | _ => o.status
  let s1 := regSet s d (.qopSts core) st
  let s2 := match o.kind with
    | .take _ => if done then regSet s1 d (.qopData core 0) o.slip else s1
    | .rsRead _ =>
      if done then
        let w := (List.range 16).foldl (fun s i => regSet s d (.qopData core i) (word (leNat ((fit 64 o.data).drop (4 * i) |>.take 4)))) s1
        regSet w d (.qopArg core) (setField (regGet w d (.qopArg core)) 0 16 (stDetail o.status))
      else s1
    | _ => s1
  if stCode o.status == Code.denied then
    let ten := match o.kind with
      | .give q _ => field (sqReg s q.toNat) 16 4 | .take q => field (sqReg s q.toNat) 16 4
      | .rsPost i _ _ => field (rsReg s (i.toNat / 4096) (i.toNat % 4096)) 16 4
      | .rsRead i => field (rsReg s (i.toNat / 4096) (i.toNat % 4096)) 16 4
      | .rsConsume i _ => field (rsReg s (i.toNat / 4096) (i.toNat % 4096)) 16 4
      | _ => 0
    let target := match o.kind with
      | .give q _ => q.toNat | .take q => q.toNat | .rsPost i _ _ => i.toNat | .rsRead i => i.toNat | .rsConsume i _ => i.toNat
      | _ => 0
    noteDenied (masterCount s2 o.ident 8) o.kind.die o.ident o.ten.toNat ⟨Code.denied, 0, 2, ten, 0⟩ target 0xFFFF
  else s2

/-- The results of a host operation: the slip of SQ_TAKE in result word 0; LEN in word 0 and the data in the REPLY page of
RS_READ (R402). -/
def hostOpDone (s : State) (src : CmdSrc) (o : QOp) : State :=
  let done := stCode o.status == Code.done
  match o.kind, src.win with
  | .take _, _ => completeCmd s src o.status (if done then [o.slip.toNat] else [])
  | .rsRead _, some w =>
    if done then completeCmd (pageWrite s src.die w 1 0 (fit 64 o.data)) src o.status [o.len] else completeCmd s src o.status
  | _, _ => completeCmd s src o.status

/-- QUEUE_OP_STATUS_RETURN. -/
def execQueueOpStatusReturn (op : Nat) (s : State) : Host.Outcome State Fault Refusal :=
  act s []
    (match s.queues.ops.find? (fun o => o.id == op && o.done) with
     | none => s
     | some o =>
       let s1 := s.onQueues (fun q => { q with ops := q.ops.filter (fun x => x.id != op) })
       match o.issuer with
       | .ctx c => ctxOpDone s1 c o.status o.slip
       | .core d core => coreOpDone s1 d.toNat core.toNat o
       | .host src => hostOpDone s1 src o
       | .engine _ => s1)

/-! ### Operations of hosts (R241, R256, R402) -/

/-- A host operation sent to its queue engine. -/
def sendHostOp (s : State) (src : CmdSrc) (kind : OpKind) : State :=
  continueCmd (submitOp s (.host src) kind (identOf src.die 0x830) (cmdTen s src)) src

/-- SQ_GIVE. -/
def execSqGive (src : CmdSrc) (s : State) : Host.Outcome State Fault Refusal :=
  cmdAct s src 0x28 (fun s =>
    let q := cmdArgF s src 0 0 13
    cmdChecked s src [(!s.present (qDie q), Code.badArg)] (fun s => sendHostOp s src (.give (BitVec.ofNat 13 q) (cmdArg s src 1))))

/-- SQ_TAKE. -/
def execSqTake (src : CmdSrc) (s : State) : Host.Outcome State Fault Refusal :=
  cmdAct s src 0x29 (fun s =>
    let q := cmdArgF s src 0 0 13
    cmdChecked s src [(!s.present (qDie q), Code.badArg)] (fun s => sendHostOp s src (.take (BitVec.ofNat 13 q))))

/-- RS_POST: its data stands in bytes 0-63 of the DATA page (R398). -/
def execRsPost (src : CmdSrc) (s : State) : Host.Outcome State Fault Refusal :=
  cmdAct s src 0x2A (fun s =>
    let i := cmdArgF s src 0 0 15
    let len := cmdArgF s src 1 0 7
    let data := cmdInput s src 64
    cmdChecked s src [(!s.present (i / 4096) || len == 0 || 64 < len, Code.badArg)]
      (fun s => sendHostOp s src (.rsPost (BitVec.ofNat 15 i) len (data.take len))))

/-- RS_READ. -/
def execRsRead (src : CmdSrc) (s : State) : Host.Outcome State Fault Refusal :=
  cmdAct s src 0x2B (fun s =>
    let i := cmdArgF s src 0 0 15
    cmdChecked s src [(!s.present (i / 4096), Code.badArg)] (fun s => sendHostOp s src (.rsRead (BitVec.ofNat 15 i))))

/-- RS_CONSUME. -/
def execRsConsume (src : CmdSrc) (s : State) : Host.Outcome State Fault Refusal :=
  cmdAct s src 0x2C (fun s =>
    let i := cmdArgF s src 0 0 15
    cmdChecked s src [(!s.present (i / 4096), Code.badArg)]
      (fun s => sendHostOp s src (.rsConsume (BitVec.ofNat 15 i) (BitVec.ofNat 16 (cmdArgF s src 1 0 16)))))

/-! ### Operations of cores (R258) -/

/-- An operation of the core is in flight: QOP_STS.CODE reads BUSY. -/
def coreOpFlight (s : State) (d core : Nat) : Bool :=
  s.queues.ops.any (fun o => match o.issuer with | .core e c => e.toNat == d && c.toNat == core | _ => false)

/-- A write of QOP_CMD (R258): discarded while an operation is in flight or where the hall is down; BAD_ARG for a reserved
bit, a LEN that its OP does not take, or an absent die; FENCED for a fenced core (R389); else the operation sets out. -/
def coreOp (s : State) (d core : Nat) (cmd : Word) (op : Nat) (lenOk : Nat → Bool) (form : Nat → Bool) (die : Nat → Nat)
    (kind : State → Nat → OpKind) : State :=
  let t := field cmd 0 16
  if field cmd 28 4 != op || !domUp s d (xbarDomain (core / 32)) || coreOpFlight s d core then s
  else if field cmd 16 5 != 0 || !lenOk (field cmd 21 7) || !form t || !s.present (die t) then
    regSet s d (.qopSts core) (stWord Code.badArg)
  else if coreFenced s d core then regSet s d (.qopSts core) (stWord Code.fenced)
  else
    let k := kind s t
    let s1 := submitOp s (.core (BitVec.ofNat 3 d) (BitVec.ofNat 9 core)) k (identOf d core) (coreTag s d core)
    regSet s1 d (.qopSts core) (stWord Code.busy)

/-- A write of QOP_CMD with a reserved OP returns BAD_ARG (R258). -/
def coreOpReserved (s : State) (d core : Nat) (cmd : Word) : State :=
  if (field cmd 28 4 == 0 || 5 < field cmd 28 4) && domUp s d (xbarDomain (core / 32)) && !coreOpFlight s d core then
    regSet s d (.qopSts core) (stWord Code.badArg)
  else s

/-- Payload bytes of a core's operation. -/
def qopBytes (s : State) (d core : Nat) : List Byte := (List.range 16).flatMap (fun i => leBytes 4 (regGet s d (.qopData core i)).toNat)

/-- GIVE: the slip stands in QOP_ARG. -/
def coreGive (s : State) (d core : Nat) (cmd : Word) : State :=
  coreOp s d core cmd 1 (· == 0) (· < 2 ^ 13) qDie (fun s t => .give (BitVec.ofNat 13 t) (regGet s d (.qopArg core)))

/-- TAKE. -/
def coreTake (s : State) (d core : Nat) (cmd : Word) : State :=
  coreOp s d core cmd 2 (· == 0) (· < 2 ^ 13) qDie (fun _ t => .take (BitVec.ofNat 13 t))

/-- RS_POST: LEN bytes of QOP_DATA. -/
def coreRsPost (s : State) (d core : Nat) (cmd : Word) : State :=
  coreOp s d core cmd 3 (fun l => 1 ≤ l && l ≤ 64) (· < 2 ^ 15) (· / 4096)
    (fun s t => .rsPost (BitVec.ofNat 15 t) (field cmd 21 7) ((qopBytes s d core).take (field cmd 21 7)))

/-- RS_READ. -/
def coreRsRead (s : State) (d core : Nat) (cmd : Word) : State :=
  coreOp s d core cmd 4 (· == 0) (· < 2 ^ 15) (· / 4096) (fun _ t => .rsRead (BitVec.ofNat 15 t))

/-- RS_CONSUME: the sequence number stands in QOP_ARG[15:0]. -/
def coreRsConsume (s : State) (d core : Nat) (cmd : Word) : State :=
  coreOp s d core cmd 5 (· == 0) (· < 2 ^ 15) (· / 4096)
    (fun s t => .rsConsume (BitVec.ofNat 15 t) (BitVec.ofNat 16 (field (regGet s d (.qopArg core)) 0 16)))

/-- A write of QOP_CMD, by its OP. -/
def qopCmdWrite (s : State) (d core : Nat) (cmd : Word) : State :=
  match field cmd 28 4 with
  | 1 => coreGive s d core cmd
  | 2 => coreTake s d core cmd
  | 3 => coreRsPost s d core cmd
  | 4 => coreRsRead s d core cmd
  | 5 => coreRsConsume s d core cmd
  | _ => coreOpReserved s d core cmd

/-- QOP_GIVE. -/
def execQopGive (d : Die) (core : CoreNo) (cmd : Word) (s : State) : Host.Outcome State Fault Refusal :=
  act s [d.toNat] (coreGive s d.toNat core.toNat cmd)

/-- QOP_TAKE. -/
def execQopTake (d : Die) (core : CoreNo) (cmd : Word) (s : State) : Host.Outcome State Fault Refusal :=
  act s [d.toNat] (coreTake s d.toNat core.toNat cmd)

/-- QOP_RS_POST. -/
def execQopRsPost (d : Die) (core : CoreNo) (cmd : Word) (s : State) : Host.Outcome State Fault Refusal :=
  act s [d.toNat] (coreRsPost s d.toNat core.toNat cmd)

/-- QOP_RS_READ. -/
def execQopRsRead (d : Die) (core : CoreNo) (cmd : Word) (s : State) : Host.Outcome State Fault Refusal :=
  act s [d.toNat] (coreRsRead s d.toNat core.toNat cmd)

/-- QOP_RS_CONSUME. -/
def execQopRsConsume (d : Die) (core : CoreNo) (cmd : Word) (s : State) : Host.Outcome State Fault Refusal :=
  act s [d.toNat] (coreRsConsume s d.toNat core.toNat cmd)

/-! ### Combining queues (R246, R247, R252) -/

/-- Only tenancy 0 and the queue's TEN write its round registers (R246). -/
def cqWriter (s : State) (d k n w : Nat) : Bool := w == 0 || w == field (cqReg s d k n) 19 4

/-- The status of a write of CQ_CTL (R246, R247). -/
def cqCtlStatus (s : State) (d k n w : Nat) (v : Word) : Nat :=
  let st := (cqOf s (cqKey d k n)).st
  let old := regGet s d (.cqCtl k n)
  if field v 21 2 == 3 || (bit v 20 && field v 0 8 == 0) then Code.badArg
  else if !cqWriter s d k n w then Code.denied
  else if (st == .zeroing || st == .running) && field v 0 23 != field old 0 23 then Code.state
  else if bit v 23 && (st == .zeroing || !bit (cqReg s d k n) 23) then Code.state
  else Code.done

/-- A round starts (R247): a round in progress ends with an event, its held contributions go, and the region is to be
zeroed. A completion post that has not succeeded is cancelled (R252); `postAt` is the cycle from which the zeroing counts. -/
def cqBegin (s : State) (d k n : Nat) : State :=
  let key := cqKey d k n
  let v := cqOf s key
  let s1 := if v.st == .running then structEvent s d 2 (k * 16 + n) (field (cqReg s d k n) 19 4) 2 0 else s
  cqSet s1 key { v with st := .zeroing, rounds := v.rounds + 1, window := [], counts := [], ovf := 0, fault := false, postWaiting := false, postAt := s.now }

/-- CQ_CTL written: the fields, and with START = 1 a round (R246, R247). A refused write sets LAST alone. -/
def cqCtlWrite (s : State) (d k n w : Nat) (v : Word) : State :=
  let st := cqCtlStatus s d k n w v
  if st != Code.done then regField s d (.cqCtl k n) 24 8 st
  else
    let s1 := regSet s d (.cqCtl k n) (word (field v 0 23))
    if bit v 23 then cqBegin s1 d k n else s1

/-- CQ_NOTE written (R246). Its LAST stands in CQ_CTL. -/
def cqNoteWrite (s : State) (d k n w : Nat) (v : Word) : State :=
  let st := (cqOf s (cqKey d k n)).st
  let nv := word (field v 0 12 + putB 31 (bit v 31))
  let code :=
    if !cqWriter s d k n w then Code.denied
    else if (st == .zeroing || st == .running) && nv != regGet s d (.cqNote k n) then Code.state
    else Code.done
  if code != Code.done then regField s d (.cqCtl k n) 24 8 code
  else regField (regSet s d (.cqNote k n) nv) d (.cqCtl k n) 24 8 Code.done

/-- CQ_START: a write of CQ_CTL with START = 1. -/
def execCqStart (d : Die) (win : Win) (cluster : Cluster) (n : BitVec 4) (val : Word) (s : State) :
    Host.Outcome State Fault Refusal :=
  act s [d.toNat]
    (if bit val 23 && domUp s d.toNat 47 then
      presentAll (cqCtlWrite s d.toNat cluster.toNat n.toNat win.toNat val)
     else s)

/-- CQ_ZEROING_DONE: every line of the region holds 64 zero bytes, and the round runs (R247): the last of its lines is written no
earlier than one cycle a line after START. A sleeping bank is woken first. -/
def execCqZeroingDone (d : Die) (cluster : Cluster) (n : BitVec 4) (s : State) : Host.Outcome State Fault Refusal :=
  act s [d.toNat]
    (let key := cqKey d.toNat cluster.toNat n.toNat
     let v := cqOf s key
     let region := cqRegion s d.toNat cluster.toNat n.toNat
     if v.st == .zeroing then
       if portBShut s (lnBank region.1) then
         cqSet (wakeForB s (lnBank region.1)) key { v with postAt := max v.postAt (if asleep s (lnBank region.1) then s.now + 64 else s.now) }
       else atCycle s (max s.now (v.postAt + region.2)) (fun s =>
         let s1 := (List.range region.2).foldl (fun s i => portBWriteLine s (region.1 + i) (List.replicate 64 0)) s
         presentAll (cqSet s1 key { v with st := .running, slotsAdded := 0, next := 0, ovf := 0, fault := false, counts := [] }))
     else s)

/-- CQ_POST_RETRY: 256 cc after a post that found its slot not free (R252). -/
def execCqPostRetry (d : Die) (cluster : Cluster) (n : BitVec 4) (s : State) : Host.Outcome State Fault Refusal :=
  act s [d.toNat]
    (let v := cqOf s (cqKey d.toNat cluster.toNat n.toNat)
     if v.postWaiting && bit (cqReg s d.toNat cluster.toNat n.toNat) 23
     then atCycle s (max s.now v.postAt) (fun s => cqPost s d.toNat cluster.toNat n.toNat) else s)

/-- COMBINE slots that reach the queue of slot x before it: in an earlier cycle, or in the same with a lower master identity (R233). -/
def combinesBefore (s : State) (x : Slot) : Bool :=
  let queue := fun (y : Slot) => match y.dst with | .combining d k n _ _ => some (d, k, n) | _ => none
  s.fabric.slots.any (fun y => y.id != x.id && y.stage == .granted && stCode y.status == Code.done && queue y == queue x
    && lexLt [y.due, y.ident, y.seq] [x.due, x.ident, x.seq])

/-- A COMBINE slot that its queue refuses: DENIED enters an event (R327). -/
def refuseCombine (s : State) (x : Slot) (d : Nat) (v : Verdict) : State :=
  if v.code == Code.denied then noteDenied s d x.ident x.ten.toNat v 0 (slotTask s x) else s

/-- COMBINE_SLOT_ARRIVE: a granted COMBINE slot at its queue engine, in the cycle of its delivery: the checks of the queue, then its
contribution (R249, R250). Its add comes behind the port-A accesses to its lines granted before (R69) and where port B is free (R233); a sleeping or paused bank lets it
wait (R87). LATE counts as its status returns (R136). -/
def execCombineSlotArrive (id : Nat) (s : State) : Host.Outcome State Fault Refusal :=
  act s []
    (match s.fabric.slots.find? (fun x => x.id == id && x.stage == .granted) with
     | none => s
     | some x =>
       match x.dst, x.ctx with
       | .combining qd qc qn off cidx, some c =>
         if stCode x.status != Code.done || combinesBefore s x then s
         else
           let done := fun (t : State) (y : Slot) (st : Word) =>
             slotDone (dropSlot (countLate t y.ident st) id) c y.seq st (if stCode st == Code.done then 0 else endAddr y.dst y.src)
               (match y.src with | .core _ => none | _ => some y.data)
           let late := fun (st : Word) => keepLate x.status st
           let d := qd.toNat
           let k := qc.toNat
           let n := qn.toNat
           let v := cqVerdict s x.ten.toNat d k n off.toNat cidx.toNat x.len
           let arrives := fun (t : Nat) (f : State → Slot → State) =>
             atSlot s x t (fun t y => if stCode y.status != Code.done then s else f t y)
           if !domUp s d 47 then arrives x.due (fun t y => done t y (late (stWord (downCode s d 47))))
           else if v.code != 0 then arrives x.due (fun t y => done (refuseCombine t y d v) y (late (stWord v.code v.detail)))
           else
             let region := cqRegion s d k n
             let busy := (s.fabric.accs.filter (fun a => region.1 ≤ a.line && a.line < region.1 + region.2)).map (fun a => a.cycle + 1)
             if (cqOf s (cqKey d k n)).st == .running && portBShut s (lnBank region.1) then wakeForB s (lnBank region.1)
             else
               let lines := addLines s d k n cidx.toNat x.len
               match addCycle s (lnBank region.1) lines (max s.now (max x.due (maxOf busy))) with
               | none => s
               | some c => arrives c (fun t y =>
                 done (cqArrive (useAdd t (lnBank region.1) lines) d k n off.toNat cidx.toNat y.data y.ident (slotTask t y)) y y.status)
       | _, _ => s)

/-! ### Configuration writes (R229) -/

/-- STRUCTURE_CONFIG_WRITE: a write to SQ_CFG, CQ_CFG, RS_CFG, MCG_CFG or PMCG_CFG. -/
def execStructureConfigWrite (d : Die) (win : Win) (off : Word) (val : Word) (s : State) : Host.Outcome State Fault Refusal :=
  act s [d.toNat]
    (match Reg.decode s.dies win.toNat off.toNat with
     | some r => if isStruct r && regUp s d.toNat r then presentAll (structWrite s d.toNat win.toNat r val) else s
     | none => s)

end Sys2Proof.Machine
end

