-- ==== Sys2Proof/Machine/RemoteOut.lean ====
section
/-! DEFINITION. The outbound side of the remote engine (R266-R271, R277, R288-R290): slots handed off, their messages, and the
replies of the peer. -/

namespace Sys2Proof.Machine

open Sys2Proof

/-! ### Slots and their messages -/

/-- The bytes of a slot that its context folds where it is delivered with DONE (R295). -/
def Slot.folds (x : Slot) : Option (List Byte) :=
  let source := match x.src with | .bank _ _ | .store _ _ | .remote _ _ => true | _ => false
  match x.kind with
  | .emit | .gatherElem | .scatterElem | .xposeSrc _ _ | .combine | .seal => if source then some x.data else none
  | _ => none

/-- The message that the engine has taken for a slot. -/
def outMsgOf (s : State) (id : Nat) : Option OutMsg := s.remote.outMsgs.find? (fun o => o.slots.contains id)

/-- A message is over. -/
def dropOut (s : State) (id : Nat) : State :=
  s.onRemote (fun r => { r with outMsgs := r.outMsgs.filter (fun o => !o.slots.contains id), overdue := r.overdue.filter (· != id) })

/-- Address of the remote end of a slot. -/
def Slot.remoteAddr (x : Slot) : BitVec 48 := match x.dst with | .remote _ o => o | _ => x.src.addr

/-- A remote slot is completed with a status (R267, R268), with LATE where its grant woke a bank (R86). An abandoned slot has been counted
as delivered already (R270). -/
def remoteDone (s : State) (x : Slot) (code : Word) (fold : Option (List Byte)) : State :=
  let s1 := dropSlot (dropOut s x.id) x.id
  let st := keepLate x.status code
  match x.ctx with
  | some c => if x.abandoned then s1 else slotDone (countLate s1 x.ident st) c x.seq st (if stCode st == Code.done then 0 else x.remoteAddr) fold
  | none => s1

/-- A slot withdrawn after its context has stopped issuing (R270). -/
def withdraw (s : State) (x : Slot) : State :=
  match x.ctx with
  | some c => finishStop (recMod s c x.seq (fun r => { r with st := .withdrawn })) c
  | none => s

/-- A context issues no more. -/
def ctxStopped (s : State) (c : CtxId) : Bool := (ctxOf s c).stop != .no

/-- The message leaves, sealed where its window is (R288, R289); else the status with which its slots end: STATE on a die whose node
is not set, which sends nothing (R261), SEAL_FAIL where the key slot seals nothing any more (logs 25, 26). -/
def sendOut (s : State) (o : OutMsg) (m : RemoteMsg) : Except Word State :=
  if nodeOf s o.die == 0x7FFF then .error (stWord Code.state)
  else match (if m.sealedFlag then sealMsg s o.die o.ten o.key m else some (s, m)) with
    | none => .error (stWord Code.sealFail 3)
    | some p => .ok (dieCount (sendMsg p.1 o.die p.2) o.die 8)

/-- The messages of some slots replaced by one that has been sent. -/
def markSent (s : State) (o : OutMsg) (ids : List Nat) : State :=
  s.onRemote (fun r => { r with outMsgs := r.outMsgs.filter (fun p => !p.slots.any ids.contains) ++ [{ o with slots := ids, sent := true }] })

/-! ### PUT (R267) -/

/-- The slot waits for its peer. -/
def handOff (s : State) (x : Slot) : State := slotMod s x.id (fun y => { y with stage := .handedOff, due := s.now })

/-- A PUT of one slot is sent. Where its context has stopped issuing, the slot is abandoned at once (log 26). -/
def putOne (s : State) (x : Slot) (o : OutMsg) : State :=
  match sendOut s o { o.msg with payload := x.data } with
  | .error st => remoteDone s x st none
  | .ok s1 =>
    let s2 := handOff (markSent s1 o [x.id]) x
    match x.ctx with
    | some c =>
      if ctxStopped s c then withdraw (slotMod s2 x.id (fun y => { y with abandoned := true })) x else s2
    | none => s2

/-- The slots of a complete ring EMIT, in sequence. -/
def stageSlots (s : State) (e : OutStage) : List Slot :=
  (sortBy (fun (a b : Slot) => a.seq ≤ b.seq) (s.fabric.slots.filter (fun x => e.bytes.any (fun b => b.1 == x.id))))

/-- A complete ring EMIT is sent as one message, under the header taken with its first slot. -/
def putRing (s : State) (e : OutStage) : State :=
  let xs := stageSlots s e
  let ids := xs.map (·.id)
  let payload := ((sortBy (fun (a b : Nat × Nat × List Byte) => a.2.1 ≤ b.2.1) e.bytes).map (·.2.2)).flatten
  let s0 := s.onRemote (fun r => { r with outStage := r.outStage.filter (fun k => k != e) })
  match xs.head? with
  | none => s0
  | some x =>
    match outMsgOf s0 x.id with
    | none => s0
    | some o =>
      match sendOut s0 o { o.msg with payload := payload } with
      | .error st => xs.foldl (fun s y => remoteDone s y st none) s0
      | .ok s1 => markSent s1 o ids

/-- A slot of a ring EMIT enters outbound staging; the last one completes the message. Where its context has stopped, its part
is discarded (log 26). -/
def putPart (s : State) (x : Slot) (c : CtxId) (o : OutMsg) : State :=
  if ctxStopped s c then withdraw (dropSlot (dropOut s x.id) x.id) x
  else
    let len := o.msg.len.toNat
    let first := (emitOf s x).2
    let off := match x.dst with | .remote _ p => p.toNat | _ => 0
    let mine : OutStage → Bool := fun e => e.ctx == c && e.firstSeq == first
    let old := match s.remote.outStage.find? mine with | some e => e | none => ⟨c, first, len, []⟩
    let new := { old with bytes := old.bytes ++ [(x.id, off, x.data)] }
    let s1 := handOff (s.onRemote (fun r => { r with outStage := r.outStage.filter (fun e => !mine e) ++ [new] })) x
    if len ≤ ((new.bytes.map (fun b => b.2.2.length)).foldl (· + ·) 0) then putRing s1 new else s1

/-- PUT_HANDOFF: a granted PUT's data reaches the engine, at the figure of its path. -/
def execPutHandoff (id : Nat) (s : State) : Host.Outcome State Fault Refusal :=
  act s []
    (match slotAt s id .granted with
     | some x =>
       atDue s x (fun t y => match outMsgOf t id with
         | some o =>
           if stCode y.status != Code.done then s
           else if !domUp t o.die 46 then remoteDone t y (stWord (downCode t o.die 46)) none
           else (match o.ring, y.ctx with
             | true, some c => putPart t y c o
             | _, _ => putOne t y o)
         | none => s)
     | none => s)

/-! ### GET (R268) -/

/-- A GET's request at the engine: the remote side is checked, and its GETREQ is sent (R266, R268). -/
def getAtEngine (s : State) (x : Slot) (d : Nat) : State :=
  let from_ := match x.ctx with | some c => ctxDie c | none => d
  if from_ != d && !(dieOpen s from_ && dieOpen s d) then remoteDone s x (stWord Code.fenced) none
  else
    let v := checkRemote s x
    if v.code != 0 then remoteDone (noteDeny s x v) x (stWord v.code v.detail) none
    else
      let s1 := takeRemote s x
      match outMsgOf s1 x.id with
      | none => s1
      | some o =>
        match sendOut s1 o o.msg with
        | .error st => remoteDone s1 x st none
        | .ok s2 => slotMod (markSent s2 o [x.id]) x.id (fun y => { y with stage := .atPeer, due := s.now })

/-- GET_REQUEST_AT_ENGINE. -/
def execGetRequestAtEngine (id : Nat) (s : State) : Host.Outcome State Fault Refusal :=
  act s []
    (match slotAt s id .toEngine with
     | some x => match x.remoteEnd with
       | some (r, _, _) => getAtEngine s x (hDie r)
       | none => s
     | none => s)

/-! ### Replies (R268, R272, R290) -/

/-- The header of a reply to a request: the ends exchanged, EPOCH, ACC and OFFSET as the request has them (R272; OFFSET by
log 27). -/
def replyTo (m : RemoteMsg) (kind len code detail : Nat) : RemoteMsg :=
  { m with kind := BitVec.ofNat 8 kind, snode := m.dnode, sdie := m.ddie, ddie := m.sdie, dnode := m.snode, swin := m.dwin,
           dwin := m.swin, len := BitVec.ofNat 16 len, code := BitVec.ofNat 8 code, detail := BitVec.ofNat 16 detail,
           payload := [], iv := [], tag := [] }

/-- The message in flight that a reply names: by its outbound window and accession number, the first sent of several (R272). -/
def repliedTo (s : State) (d : Nat) (m : RemoteMsg) : Option OutMsg :=
  s.remote.outMsgs.find? (fun o => o.sent && o.die == d && o.msg.swin == m.dwin && o.msg.acc == m.acc)

/-- The plaintext of a reply to an outbound message: none where its tag fails, or where it should be sealed and is not (R290). -/
def openReply (s : State) (o : OutMsg) (m : RemoteMsg) : Option (List Byte) :=
  if !o.msg.sealedFlag then some m.payload
  else match keyOf s o.die o.ten o.key with
    | none => none
    | some k => if m.sealedFlag then gcmOpen k m.iv m.header m.payload m.tag else none

/-- A reply discarded and counted: for an abandoned slot, or for its tag (R270, R290). -/
def lateReply (s : State) (o : OutMsg) : State := dieCount s o.die 16

/-- The slots of a message. -/
def outSlots (s : State) (o : OutMsg) : List Slot := s.fabric.slots.filter (fun x => o.slots.contains x.id)

/-- A reply for abandoned slots: they are gone (R270). -/
def lateSlots (s : State) (o : OutMsg) : State :=
  (outSlots s o).foldl (fun s x => dropSlot (dropOut s x.id) x.id) (lateReply s o)

/-- GETDATA_RECEIVE: the bytes of a GET arrive, and its landing transfer is requested. -/
def execGetdataReceive (d : Die) (msg : RemoteMsg) (s : State) : Host.Outcome State Fault Refusal :=
  act s [d.toNat]
    (if !domUp s d.toNat 46 || msg.kind != 4 then s
     else match repliedTo s d.toNat msg with
       | none => s
       | some o => match (outSlots s o).head? with
         | none => s
         | some x =>
           if x.abandoned then lateSlots s o
           else if x.stage != .atPeer then s
           else match openReply s o msg with
             | none => lateReply s o
             | some bytes =>
               let y := { x with data := fit x.len bytes, stage := windowStage s x, presented := false, arrive := s.now }
               presentAll (slotMod (dropOut s x.id) x.id (fun _ => y)))

/-- A slot requested again after BUSY (R190, R292). -/
def askAgain (s : State) (x : Slot) : State :=
  let y := { x with stage := firstStage s x, presented := false, reserved := [], status := 0, data := [], arrive := s.now }
  presentAll (slotMod (dropOut s x.id) x.id (fun _ => y))

/-- REMOTE_STATUS_RECEIVE: the peer's status completes the slots of its message. -/
def execRemoteStatusReceive (d : Die) (msg : RemoteMsg) (s : State) : Host.Outcome State Fault Refusal :=
  act s [d.toNat]
    (if !domUp s d.toNat 46 || msg.kind != 5 then s
     else match repliedTo s d.toNat msg with
       | none => s
       | some o =>
         let xs := outSlots s o
         if xs.any (·.abandoned) then lateSlots s o
         else match openReply s o msg with
           | none => lateReply s o
           | some _ =>
             if msg.code.toNat == Code.busy then xs.foldl askAgain s
             else xs.foldl (fun s x => remoteDone s x (stWord msg.code.toNat msg.detail.toNat)
               (match x.dst with | .remote _ _ => x.folds | _ => none)) s)

/-! ### Overdue slots and lost messages (R271) -/

/-- REMOTE_OVERDUE: one event for a slot that has waited the watchdog time for its peer. -/
def execRemoteOverdue (id : Nat) (s : State) : Host.Outcome State Fault Refusal :=
  act s []
    (match s.fabric.slots.find? (fun x => x.id == id && (x.stage == .handedOff || x.stage == .atPeer) && !x.abandoned),
       outMsgOf s id with
     | some x, some o =>
       let wait := 256 * max 1 (rf s o.die .wdogCtl 0 16)
       if s.remote.overdue.contains id then s
       else atCycle s (max s.now (x.due + wait)) (fun s =>
         logEvent (s.onRemote (fun r => { r with overdue := id :: r.overdue })) o.die
           { ev 0x0F (match x.ctx with | some c => c.toNat | none => 0) (o.msg.swin.toNat * 65536 + o.msg.acc.toNat) with
             ten := some (BitVec.ofNat 4 o.ten), master := BitVec.ofNat 16 x.ident, task := BitVec.ofNat 16 (slotTask s x) })
     | _, _ => s)

/-- The engine of die d has lost what it held of a slot: a slot handed off or at the peer, or a GET whose bytes are staged and wait for
their landing's grant (R271). -/
def heldByEngine (s : State) (d : Nat) (x : Slot) : Bool :=
  match x.stage with
  | .handedOff | .atPeer => (match outMsgOf s x.id with | some o => o.die == d | none => false)
  | .translate | .storeRead | .waiting => (match x.src with | .remote r _ => hDie r.toNat == d | _ => false)
  | _ => false

/-- Every slot that an engine has lost ends with a status (R271, R356). -/
def loseOutbound (s : State) (d code : Nat) : State :=
  let lost := s.fabric.slots.filter (heldByEngine s d)
  let s1 := s.onRemote (fun r => { r with outStage := r.outStage.filter (fun e => !e.bytes.any (fun b => lost.any (fun x => x.id == b.1))) })
  lost.foldl (fun s x => remoteDone s x (stWord code) none) s1

end Sys2Proof.Machine
end

