-- ==== Sys2Proof/Machine/RemoteIn.lean ====
section
/-! DEFINITION. The inbound side of the remote engine (R272-R292): staging, the checks on arrival, landings, rings, GET service,
and the registers of outbound and inbound windows (R262-R264, R273-R276, R286). -/

namespace Sys2Proof.Machine

open Sys2Proof

/-! ### Inbound windows -/

/-- STATE of an inbound window: 0 CLOSED, 1 OPEN, 2 CLOSING (R273). -/
def rinState (s : State) (d n : Nat) : Nat := rf s d (.rinCfg n) 22 2

/-- Landing handle. -/
def rinHandle (s : State) (d n : Nat) : Nat := rf s d (.rinBuf n) 0 20

/-- Bytes of the landing entry: SZ of R284. -/
def rinSize (s : State) (d n : Nat) : Nat :=
  let e := hEntry (rinHandle s d n)
  (catExtent s d e + 1) * (if catIsWindow s d e then catPage s d e else 4096)

/-- A register of the window is unsafe (R319). -/
def rinUnsafe (s : State) (d n : Nat) : Bool :=
  [Reg.rinCfg n, .rinSrc n, .rinBuf n, .rinNote n].any (isUnsafe s d)

/-- A staged message. -/
def stagedOf (s : State) (id : Nat) : Option Staged := s.remote.staged.find? (fun m => m.id == id)

def stagedMod (s : State) (id : Nat) (f : Staged → Staged) : State :=
  s.onRemote (fun r => { r with staged := r.staged.map (fun m => if m.id == id then f m else m) })

/-- The window that a message names. -/
def Staged.win (m : Staged) : Nat := m.msg.dwin.toNat

/-- The transfers of a message that a grant has not yet taken. -/
def ungranted (x : Slot) : Bool := x.stage == .translate || x.stage == .storeRead || x.stage == .waiting

/-- The transfers of a message. -/
def messageSlots (s : State) (id : Nat) : List Slot :=
  s.fabric.slots.filter (fun x => x.kind == .landing id || x.kind == .serve id)

/-! ### Replies -/

/-- A reply leaves; a reply to a sealed request is sealed under the window's key slot, where that holds a key (R290). A die whose node is
not set answers every message with STATE (R261). -/
def sendReply (s : State) (d : Nat) (m : RemoteMsg) (kind0 code0 detail0 : Nat) (data0 : List Byte) : State :=
  let set := nodeOf s d != 0x7FFF
  let kind := if set then kind0 else 5
  let code := if set then code0 else Code.state
  let detail := if set then detail0 else 0
  let data := if set then data0 else []
  let r := { replyTo m kind data.length code detail with payload := data, sealedFlag := false }
  let n := m.dwin.toNat
  match m.sealedFlag, rinTen s d n with
  | true, some t =>
    (match sealMsg s d t (rf s d (.rinCfg n) 12 5) { r with sealedFlag := true } with
     | some p => sendMsg p.1 d p.2
     | none => sendMsg s d r)
  | _, _ => sendMsg s d r

/-- Counter of a refusal by its status (R293). -/
def refusalCounter (code : Nat) : Option Nat :=
  if code == Code.busy then some 10 else if code == Code.closed then some 11 else if code == Code.stale then some 12
  else if code == Code.sealFail then some 13 else if code == Code.full then some 14 else none

/-- A message is refused: it is counted and answered. -/
def refuseMsg (s : State) (d : Nat) (m : RemoteMsg) (code detail : Nat) : State :=
  let s1 := match refusalCounter code with | some i => dieCount s d i | none => s
  sendReply s1 d m 5 code detail []

/-- REMOTE_MESSAGE_ARRIVE: a message takes staging, or BUSY (R279 row 1). Replies reach their slots by rows of their own. A die
whose node is not set answers STATE (R261). -/
def execRemoteMessageArrive (d : Die) (msg : RemoteMsg) (s : State) : Host.Outcome State Fault Refusal :=
  act s [d.toNat]
    (let n := d.toNat
     let held := ((s.remote.staged.filter (fun m => m.die == n)).map (fun m => m.msg.payload.length)).foldl (· + ·) 0
     if !domUp s n 46 || msg.kind == 4 || msg.kind == 5 then s
     else if nodeOf s n == 0x7FFF then refuseMsg s n msg Code.state 0
     else if 2 ^ 22 < held + msg.payload.length then refuseMsg s n msg Code.busy 0
     else s.onRemote (fun r => { r with nextMsg := r.nextMsg + 1, staged := r.staged ++
       [⟨r.nextMsg + 1, n, msg, false, [], none, 0, 0, none, none, [], none⟩] }))

/-! ### Closing (R276, R281) -/

/-- A message whose transfers are over is answered; it leaves staging. A ring message moves TAIL and gives its notice; one that
fails returns its reservation (R280, R282, R285). The notice is a GIVE at its queue's engine (R233). -/
def completeStaged (s : State) (m : Staged) : State :=
  let d := m.die
  let n := m.win
  let s0 := s.onRemote (fun r => { r with staged := r.staged.filter (fun k => k.id != m.id) })
  let q := rf s d (.rinNote n) 0 13 % 1024 + 1024 * d
  if stCode m.status == Code.done then
    let s1 := dieCount s0 d 9
    let s2 := match m.ring with
      | some (at_, need) => regSet s1 d (.rinTail n) (word ((at_ + need) % rinSize s d n / 256))
      | none => s1
    let s3 := match m.notice, rinTen s d n with
      | some seq, some t =>
        submitOp s2 (.engine (BitVec.ofNat 3 d)) (.give (BitVec.ofNat 13 q)
          (word (put 0 20 (rinHandle s d n) + put 20 4 seq + put 24 8 (rf s d (.rinSrc n) 16 8)))) (identOf d 0x800) t
      | _, _ => s2
    if m.msg.kind == 3 then sendReply s3 d m.msg 4 0 0 m.data else sendReply s3 d m.msg 5 0 0 []
  else
    let s1 := match m.notice with
      | some _ => sqSet s0 q { sqOf s0 q with reserved := (sqOf s0 q).reserved - 1 }
      | none => s0
    sendReply s1 d m.msg 5 (stCode m.status) (stDetail m.status) []

/-- Landing transfers still to come of a message, none of which closing lets go on. -/
def stopLanding (s : State) (m : Staged) : State :=
  let mine := messageSlots s m.id
  let gone := mine.filter ungranted
  let cut := !gone.isEmpty || !m.toRequest.isEmpty || m.header.isSome
  let s1 := gone.foldl (fun s x => dropSlot s x.id) s
  let m1 := { m with
    toRequest := [], header := none, left := mine.length - gone.length,
    status := if cut && stCode m.status == Code.done then stWord Code.closed 2 else m.status }
  if m1.left == 0 then completeStaged s1 m1 else stagedMod s1 m.id (fun _ => m1)

/-- Cycle 0 of the closing of an OPEN window (R276). -/
def closeRin (s : State) (d n : Nat) : State :=
  if rinState s d n != 1 then s
  else
    let s1 := regField (regField s d (.rinCfg n) 22 2 2) d (.rinCfg n) 21 1 0
    (s1.remote.staged.filter (fun m => m.die == d && m.win == n && m.checked)).foldl stopLanding s1

/-- INBOUND_CLOSE_COMPLETE: no landing transfer of a CLOSING window is outstanding. -/
def execInboundCloseComplete (d : Die) (n : BitVec 10) (s : State) : Host.Outcome State Fault Refusal :=
  act s [d.toNat]
    (let e := d.toNat
     let w := n.toNat
     let left := s.remote.staged.any (fun m => m.die == e && m.win == w
       && (messageSlots s m.id).any (fun x => x.kind == .landing m.id))
     if rinState s e w == 2 && domUp s e 46 && !left then
       let s1 := regField s e (.rinSrc w) 16 16 (rf s e (.rinSrc w) 16 16 + 1)
       regField (regField s1 e (.rinCfg w) 22 2 0) e (.rinCfg w) 24 8 Code.done
     else s)

/-! ### Landings (R280, R282-R285) -/

/-- A transfer of a message requested: a landing of 0x800, or a read of 0x801 for a GETREQ, in the landing entry. -/
def requestLanding (s : State) (m : Staged) (off : Nat) (data : List Byte) (len seq : Nat) : State :=
  let d := m.die
  let h := rinHandle s d m.win
  let e := hEntry h
  let place := if catIsWindow s d e then Endp.store (BitVec.ofNat 20 h) (BitVec.ofNat 48 off)
    else .bank (BitVec.ofNat 33 (catBase s d e * 4096 + off)) none
  let t := (rinTen s d m.win).getD 0
  if m.msg.kind == 3 then
    request s { blankSlot (identOf d 0x801) t .remote (.serve m.id) place (.engine (BitVec.ofNat 3 d)) len with seq := seq }
  else
    request s { blankSlot (identOf d 0x800) t .remote (.landing m.id) (.engine (BitVec.ofNat 3 d)) place len with
      data := data, write := true }

/-- Every transfer of a message that may be requested now is. -/
def requestAllOf (s : State) (m : Staged) : State :=
  let m1 := { m with toRequest := [], left := m.left + m.toRequest.length }
  m.toRequest.foldl (fun s p => requestLanding s m p.1 p.2 p.2.length (if m.skip == some p.1 then 1 else 0)) (stagedMod s m.id (fun _ => m1))

/-- Landing messages of a window, in order of arrival, whose checks are passed. -/
def landingQueue (s : State) (d n : Nat) : List Staged :=
  s.remote.staged.filter (fun m => m.die == d && m.win == n && m.checked && m.msg.kind != 3)

/-- The last transfer of a ring message, which holds its header (R285). -/
def requestHeader (s : State) (m : Staged) : State :=
  match m.header with
  | some (off, data) => requestLanding (stagedMod s m.id (fun k => { k with header := none, left := 1 })) m off data data.length 0
  | none => s

/-- The first message of a window that still has transfers to request goes on where every transfer of the messages before it
has been granted (R280). -/
def pumpWindow (s : State) (d n : Nat) : State :=
  let q := landingQueue s d n
  match q.find? (fun m => !m.toRequest.isEmpty || m.header.isSome) with
  | none => s
  | some m =>
    let before := q.takeWhile (fun k => k.id != m.id)
    if before.all (fun k => !(messageSlots s k.id).any ungranted) then
      if !m.toRequest.isEmpty then requestAllOf s m else if m.left == 0 then requestHeader s m else s
    else s

/-- What follows when a transfer of a message is over: its header, or its completion (R280, R285). -/
def settleStaged (s : State) (m : Staged) : State :=
  if m.left != 0 || !m.toRequest.isEmpty then s
  else if m.header.isSome && stCode m.status == Code.done then requestHeader s m
  else pumpWindow (completeStaged s m) m.die m.win

/-- A transfer of a message is delivered. Number 1 among the landings is a SKIP header, which is counted as it is written (R293). -/
def landingDone (s : State) (x : Slot) (id : Nat) : State :=
  let skip := x.kind == .landing id && x.seq == 1 && stCode x.status == Code.done
  let s1 := dropSlot s x.id
  let s0 := match skip, stagedOf s1 id with | true, some m => dieCount s1 m.die 15 | _, _ => s1
  match stagedOf s0 id with
  | none => s0
  | some m =>
    let m1 := { m with
      left := m.left - 1, status := if stCode m.status == Code.done then x.status else m.status,
      data := if x.kind == .serve id && stCode x.status == Code.done then patch m.data x.seq x.data else m.data }
    presentAll (settleStaged (stagedMod s0 id (fun _ => m1)) m1)

/-! ### The checks of a staged message (R275, R278, R279, R281, R284, R285) -/

/-- Later than OPEN or CLOSING, not yet open for CLOSED, or closed since sent (R275): DETAIL, 0 where the checks go on. -/
def epochDetail (s : State) (d n e : Nat) : Nat :=
  let now := rf s d (.rinSrc n) 16 16
  if rinUnsafe s d n then 2
  else match rinState s d n with
    | 1 => if e == now then 0 else if epochLater e now then 1 else 2
    | 0 => if epochFrom e now then 1 else 2
    | _ => if epochLater e now then 1 else 2

/-- Bytes that a ring message occupies (R283). -/
def ringNeed (len : Nat) : Nat := 256 * ceilDiv (64 + len) 256

/-- TAIL in bytes as the window's previous message will leave it (R284). -/
def ringTail (s : State) (d n : Nat) : Nat :=
  match ((landingQueue s d n).filterMap (·.ring)).getLast? with
  | some p => (p.1 + p.2) % rinSize s d n
  | none => rf s d (.rinTail n) 0 22 * 256

/-- The placement of a ring message (R284): where it lands, and whether a SKIP goes before it; none where it does not fit. -/
def ringPlace (s : State) (d n need : Nat) : Option (Nat × Option Nat) :=
  let sz := rinSize s d n
  let tail := ringTail s d n
  let head := rf s d (.rinHead n) 0 22 * 256
  let free := sz - 256 - (tail + sz - head % sz) % sz
  if free < need then none
  else if tail + need ≤ sz then some (tail, none)
  else if free < need + (sz - tail) then none
  else some (0, some tail)

/-- A notice's entry is free (R285): its queue is enabled, of the window's tenancy, and neither full nor reserved up. -/
def noticeFree (s : State) (d n t : Nat) : Bool :=
  let q := rf s d (.rinNote n) 0 13 % 1024 + 1024 * d
  bit (sqReg s q) 23 && field (sqReg s q) 16 4 == t && (sqOf s q).count + (sqOf s q).reserved < 32

/-- The plaintext of a message, none where its tag fails (R290). -/
def openMsg (s : State) (d t : Nat) (m : RemoteMsg) : Option (List Byte) :=
  if !m.sealedFlag then some m.payload
  else match keyOf s d t (rf s d (.rinCfg m.dwin.toNat) 12 5) with
    | none => none
    | some k => gcmOpen k m.iv m.header m.payload m.tag

/-- Checks 2 to 9 of R279, in order, for a message of a window of tenancy t; a window whose registers are unsafe answers every message with
CLOSED (R319). -/
def msgVerdict (s : State) (d t : Nat) (m : RemoteMsg) : Verdict :=
  let n := m.dwin.toNat
  let len := m.len.toNat
  let cfg := regGet s d (.rinCfg n)
  let src := regGet s d (.rinSrc n)
  let h := rinHandle s d n
  let ring := bit cfg 20
  let msg := m.kind == 2
  let lenOk := if msg then 1 ≤ len && len ≤ 65472 else 1 ≤ len && len ≤ 256
  let ep := epochDetail s d n m.epoch.toNat
  let up := domUp s d 47
  let size := rinSize s d n
  let bad := (msg != ring) || (up && !msg && size < m.offset.toNat + len) || (up && msg && size - 256 < ringNeed len)
  firstFail [
    failIf (rinUnsafe s d n) ⟨Code.closed, 2, 0, 0, 0⟩,
    failIf (!(m.kind == 1 || msg || m.kind == 3) || !lenOk) ⟨Code.badArg, 1, 0, 0, 0⟩,
    failIf (!(bit src 15 || m.snode.toNat == field src 0 15) || (if m.kind == 3 then !bit cfg 19 else !bit cfg 18))
      ⟨Code.denied, 0, 0, 0, 0⟩,
    failIf (ep != 0) ⟨Code.closed, ep, 0, 0, 0⟩,
    failIf (m.acc.toNat / 4096 != rf s d (.rinBuf n) 20 4) ⟨Code.stale, 1, 0, 0, 0⟩,
    failIf (m.sealedFlag != bit cfg 17) ⟨Code.sealFail, 2, 0, 0, 0⟩,
    failIf (openMsg s d t m).isNone ⟨Code.sealFail, 1, 0, 0, 0⟩,
    failIf bad ⟨Code.badArg, 2, 0, 0, 0⟩,
    failIf (up && msg && (ringPlace s d n (ringNeed len)).isNone) ⟨Code.full, 1, 0, 0, 0⟩,
    failIf (up && msg && bit (regGet s d (.rinNote n)) 31 && !noticeFree s d n t) ⟨Code.full, 2, 0, 0, 0⟩,
    failIf (!up) ⟨downCode s d 47, 0, 0, 0, 0⟩,
    failIf (entryLost s h) ⟨Code.uncorrectable, 0, 0, 0, 0⟩,
    failIf (!handleCurrent s h) ⟨Code.stale, 2, 0, 0, 0⟩]

/-- A message refused by its checks: a failed tag and a stale landing handle enter events, and the latter closes the window
(R281, R290). The message itself is then answered as a closed window answers it: CLOSED, DETAIL 2 (R281, R292; log 27). -/
def refuseStaged (s : State) (m : Staged) (v : Verdict) : State :=
  let d := m.die
  let n := m.win
  let t := (rinTen s d n).map (BitVec.ofNat 4)
  let s0 := s.onRemote (fun r => { r with staged := r.staged.filter (fun k => k.id != m.id) })
  let s1 :=
    if v.code == Code.sealFail && v.detail == 1 then
      logEvent s0 d { ev 0x11 n (m.msg.snode.toNat * 256 + m.msg.sdie.toNat) with ten := t }
    else if v.code == Code.stale && v.detail == 2 then
      closeRin (logEvent s0 d { ev 0x10 n (rinHandle s d n) with ten := t }) d n
    else if v.code == Code.uncorrectable then useEntry s0 (rinHandle s d n)
    else s0
  if v.code == Code.stale && v.detail == 2 then refuseMsg s1 d m.msg Code.closed 2 else refuseMsg s1 d m.msg v.code v.detail

/-- The parts of a landing of a list of bytes at an offset: each lies in one 256-byte block (R204, R280). `fuel` bounds them. -/
def splitParts : Nat → Nat → List Byte → List (Nat × List Byte)
  | 0, _, _ => []
  | fuel + 1, off, data =>
    if data.isEmpty then []
    else
      let n := 256 - off % 256
      (off, data.take n) :: splitParts fuel (off + n) (data.drop n)

/-- The 64-byte header of a ring entry (R283): KIND 1 MSG or 2 SKIP. -/
def ringHeader (s : State) (m : Staged) (kind seq len : Nat) : List Byte :=
  fit 64 (leBytes 2 kind ++ leBytes 2 seq ++ leBytes 4 len ++ leBytes 2 m.msg.acc.toNat
    ++ leBytes 2 (rf s m.die (.rinSrc m.win) 16 16) ++ leBytes 2 m.msg.snode.toNat ++ [m.msg.sdie, 0] ++ leBytes 2 m.msg.swin.toNat)

/-- Where the count of a window's ring messages is kept. -/
def rinKey (d n : Nat) : Nat := d * 1024 + n

/-- A ring message that has passed its checks is placed, numbered and noted (R283-R285). -/
def placeRing (s : State) (m : Staged) (data : List Byte) (at_ : Nat) (skip : Option Nat) : State × Staged :=
  let d := m.die
  let n := m.win
  let seq := (SMap.get s.remote.ringCount (rinKey d n) 0 + 1) % 65536
  let note := bit (regGet s d (.rinNote n)) 31
  let q := rf s d (.rinNote n) 0 13 % 1024 + 1024 * d
  let s1 := s.onRemote (fun r => { r with ringCount := SMap.set r.ringCount (rinKey d n) seq })
  let s2 := if note then sqSet s1 q { sqOf s1 q with reserved := (sqOf s1 q).reserved + 1 } else s1
  let marker := match skip with | some t => [(t, ringHeader s m 2 0 0)] | none => []
  (s2, { m with
    checked := true, skip := skip, toRequest := marker ++ splitParts 256 (at_ + 256) (data.drop 192),
    header := some (at_, ringHeader s m 1 seq data.length ++ data.take 192),
    ring := some (at_, ringNeed data.length), notice := if note then some seq else none })

/-- A message that has passed its checks is landed or served. -/
def acceptStaged (s : State) (m : Staged) (data : List Byte) : State :=
  let off := m.msg.offset.toNat
  let len := m.msg.len.toNat
  if m.msg.kind == 2 then
    match ringPlace s m.die m.win (ringNeed len) with
    | none => s
    | some (at_, skip) =>
      let p := placeRing s m (fit len data) at_ skip
      pumpWindow (stagedMod p.1 m.id (fun _ => p.2)) m.die m.win
  else if m.msg.kind == 1 then
    let m1 := { m with checked := true, toRequest := splitParts 2 off (fit len data) }
    pumpWindow (stagedMod s m.id (fun _ => m1)) m.die m.win
  else
    let parts := splitParts 2 off (List.replicate len 0)
    let m1 := { m with checked := true, left := parts.length, data := List.replicate len 0 }
    parts.foldl (fun s p => requestLanding s m1 p.1 [] p.2.length (p.1 - off)) (stagedMod s m.id (fun _ => m1))

/-- REMOTE_MESSAGE_STAGED: the messages of one window are checked in the order of their arrival. -/
def execRemoteMessageStaged (msg : Nat) (s : State) : Host.Outcome State Fault Refusal :=
  act s []
    (match stagedOf s msg with
     | none => s
     | some m =>
       let earlier := (s.remote.staged.takeWhile (fun k => k.id != msg)).any (fun k => k.die == m.die && k.win == m.win && !k.checked)
       if m.checked || earlier || !domUp s m.die 46 then s
       else if nodeOf s m.die == 0x7FFF then refuseStaged s m ⟨Code.state, 0, 0, 0, 0⟩
       else match (if m.win < 1024 then rinTen s m.die m.win else none) with
         | none => refuseStaged s m ⟨Code.badArg, 1, 0, 0, 0⟩
         | some t =>
           let v := msgVerdict s m.die t m.msg
           if v.code != 0 then refuseStaged s m v
           else presentAll (acceptStaged s m ((openMsg s m.die t m.msg).getD [])))

/-- A staged message is lost, and its notice's reservation released: no status is returned (R271, R285). -/
def dropStaged (s : State) (m : Staged) : State :=
  let s1 := ((messageSlots s m.id).filter ungranted).foldl (fun s x => dropSlot s x.id) s
  let q := rf s m.die (.rinNote m.win) 0 13 % 1024 + 1024 * m.die
  let s2 := if m.notice.isSome then sqSet s1 q { sqOf s1 q with reserved := (sqOf s1 q).reserved - 1 } else s1
  s2.onRemote (fun r => { r with staged := r.staged.filter (fun k => k.id != m.id) })

/-- Every staged message of a die is lost (R271). -/
def loseInbound (s : State) (d : Nat) : State := (s.remote.staged.filter (fun m => m.die == d)).foldl dropStaged s

/-- A transfer of a message is lost without status, so that the message is never complete and never answered (R103, R280, R282): it
leaves staging (log 32). -/
def loseMessage (s : State) (id : Nat) : State :=
  match stagedOf s id with
  | some m => pumpWindow (dropStaged s m) m.die m.win
  | none => s

/-! ### Registers of inbound windows (R273, R274, R276, R286) -/

/-- A refused write of a window's register: LAST of the window, and for a hardened register its event. -/
def rinRefuse (s : State) (d n : Nat) (r : Reg) (code : Nat) : State :=
  let s1 := regField s d (.rinCfg n) 24 8 code
  if r.hardened then logRefused s1 d r code (rinTen s d n) else s1

/-- The status of a write of OPEN = 1 to a CLOSED window (R274). -/
def openStatus (s : State) (d n t : Nat) (v : Word) : Nat :=
  let h := rinHandle s d n
  let e := hEntry h
  let ring := bit v 20
  let note := regGet s d (.rinNote n)
  let q := field note 0 13 % 1024 + 1024 * d
  if (!bit v 19 && !bit v 18) || (ring && bit v 19) || (ring && catIsWindow s d e) || !handleForm s h || hDie h != d
      || field (catW s d e 0) 20 2 == 2 then Code.badArg
  else if entryLost s h then Code.uncorrectable
  else if !handleCurrent s h then Code.stale
  else if catTen s d e != t then Code.denied
  else if (bit v 17 && (keyOf s d t (field v 12 5)).isNone) || nodeOf s d == 0x7FFF
      || (bit note 31 && (!bit (sqReg s q) 23 || field (sqReg s q) 16 4 != t || field note 10 3 != d)) then Code.state
  else if !domUp s d 46 then Code.fenced
  else Code.done

/-- A window opens: HEAD, TAIL and its count start at 0 (R274). -/
def openRin (s : State) (d n : Nat) (v : Word) : State :=
  let s1 := hardSet s d (.rinCfg n) (word (put 22 2 1 + 2 ^ 21 + put 12 9 (field v 12 9)))
  (regSet (regSet s1 d (.rinHead n) 0) d (.rinTail n) 0).onRemote (fun r => { r with ringCount := SMap.erase r.ringCount (rinKey d n) })

/-- A write of RIN_CFG. -/
def rinCfgWrite (s : State) (d w n : Nat) (v : Word) : State :=
  let r := Reg.rinCfg n
  let st := rinState s d n
  if rinTen s d n != some w then rinRefuse s d n r Code.denied
  else if st != 0 && field v 12 9 != rf s d r 12 9 then rinRefuse s d n r Code.state
  else if bit v 21 then
    if st != 0 then rinRefuse s d n r Code.state
    else
      let code := openStatus s d n w v
      if code == Code.done then openRin s d n v
      else rinRefuse (if code == Code.uncorrectable then useEntry s (rinHandle s d n) else s) d n r code
  else if st == 1 then closeRin s d n
  else rinRefuse s d n r Code.state

/-- INBOUND_WINDOW_OPEN: a write of RIN_CFG with OPEN = 1. -/
def execInboundWindowOpen (d : Die) (win : Win) (n : BitVec 10) (val : Word) (s : State) : Host.Outcome State Fault Refusal :=
  act s [d.toNat]
    (if bit val 21 && regUp s d.toNat (.rinCfg n.toNat) then rinCfgWrite s d.toNat win.toNat n.toNat val else s)

/-- INBOUND_WINDOW_CLOSE: a write of RIN_CFG with OPEN = 0. -/
def execInboundWindowClose (d : Die) (win : Win) (n : BitVec 10) (val : Word) (s : State) : Host.Outcome State Fault Refusal :=
  act s [d.toNat]
    (if !bit val 21 && regUp s d.toNat (.rinCfg n.toNat) then rinCfgWrite s d.toNat win.toNat n.toNat val else s)

/-- A write of RIN_SRC, RIN_BUF or RIN_NOTE: closed only, but for AGEN (R273, R278). -/
def rinFieldWrite (s : State) (d w n : Nat) (r : Reg) (v : Word) : State :=
  let v1 := match r with
    | .rinBuf _ => word (field v 0 24)
    | .rinNote _ => word (put 31 1 (field v 31 1) + field v 0 13)
    | _ => v
  let old := regGet s d r
  let changes := match r with | .rinBuf _ => field v1 0 20 != field old 0 20 | _ => v1 != old
  if rinTen s d n != some w then rinRefuse s d n r Code.denied
  else if rinState s d n != 0 && changes then rinRefuse s d n r Code.state
  else regField (hardSet s d r v1) d (.rinCfg n) 24 8 Code.done

/-- A write of RIN_HEAD by the window of the tenancy or a core with its tag: a position in ring order up to TAIL (R286). -/
def rinHeadWrite (s : State) (d n : Nat) (t : Nat) (v : Word) : State :=
  let new := field v 0 22 * 256
  let head := rf s d (.rinHead n) 0 22 * 256
  let tail := rf s d (.rinTail n) 0 22 * 256
  let sz := rinSize s d n
  let dist := fun (a : Nat) => (a + sz - head % sz) % sz
  if dist tail < dist new then rinRefuse s d n (.rinHead n) Code.badArg
  else if rinTen s d n != some t then rinRefuse s d n (.rinHead n) Code.denied
  else regField (regSet s d (.rinHead n) (word (field v 0 22))) d (.rinCfg n) 24 8 Code.done

/-- RIN_HEAD_WRITE. -/
def execRinHeadWrite (d : Die) (writer : RinWriter) (n : BitVec 10) (val : Word) (s : State) : Host.Outcome State Fault Refusal :=
  act s [d.toNat]
    (let t := match writer with | .window w => w.toNat | .core c => coreTag s d.toNat c.toNat
     if regUp s d.toNat (.rinHead n.toNat) then rinHeadWrite s d.toNat n.toNat t val else s)

/-! ### Registers of outbound windows (R263, R264) -/

/-- A refused write of an outbound window's register. -/
def rwinRefuse (s : State) (d n : Nat) (r : Reg) (code : Nat) : State :=
  logRefused (regField s d (.rwinCfg n) 24 8 code) d r code (routTen s d n)

/-- An outbound window disabled: GEN advances (R264). -/
def disableRwin (s : State) (d n : Nat) : State :=
  if rf s d (.rwinCfg n) 23 1 == 1 then
    regField (regField s d (.rwinCfg n) 23 1 0) d (.rwinCfg n) 15 4 (rf s d (.rwinCfg n) 15 4 + 1)
  else s

/-- A write of RWIN_CFG (R264). -/
def rwinCfgWrite (s : State) (d w n : Nat) (v : Word) : State :=
  let r := Reg.rwinCfg n
  let old := regSeen s d r
  let en := bit v 23
  let node := field v 0 15
  let key := field (regSeen s d (.rwinExt n)) 27 5
  let same := field v 22 1 == field old 22 1 && field v 19 3 == field old 19 3 && node == field old 0 15
  if en && (24575 < node || node == nodeOf s d) then rwinRefuse s d n r Code.badArg
  else if routTen s d n != some w then rwinRefuse s d n r Code.denied
  else if (bit old 23 && !same) || (en && bit v 22 && (keyOf s d w key).isNone) then rwinRefuse s d n r Code.state
  else
    let gen := field old 15 4 + (if bit old 23 && !en then 1 else 0)
    hardSet s d r (word (putB 23 en + put 22 1 (field v 22 1) + put 19 3 (field v 19 3) + put 15 4 gen + node))

/-- A write of RWIN_PEER or RWIN_EXT (R264). -/
def rwinFieldWrite (s : State) (d w n : Nat) (r : Reg) (v : Word) : State :=
  let v1 := match r with | .rwinPeer _ => word (put 12 20 (field v 12 20) + field v 0 10) | _ => v
  let ext := match r with | .rwinExt _ => true | _ => false
  if routTen s d n != some w then rwinRefuse s d n r Code.denied
  else if ext && bit (regSeen s d (.rwinCfg n)) 23 && v1 != regSeen s d r then rwinRefuse s d n r Code.state
  else regField (hardSet s d r v1) d (.rwinCfg n) 24 8 Code.done

/-- A write of any register of an outbound window. -/
def rwinWrite (s : State) (d w n : Nat) (reg : RwinReg) (v : Word) : State :=
  match reg with
  | .cfg => rwinCfgWrite s d w n v
  | .peer => rwinFieldWrite s d w n (.rwinPeer n) v
  | .ext => rwinFieldWrite s d w n (.rwinExt n) v

/-- RWIN_CFG_WRITE. -/
def execRwinCfgWrite (d : Die) (win : Win) (n : BitVec 10) (reg : RwinReg) (val : Word) (s : State) :
    Host.Outcome State Fault Refusal :=
  act s [d.toNat]
    (if regUp s d.toNat (.rwinCfg n.toNat) then rwinWrite s d.toNat win.toNat n.toNat reg val else s)

end Sys2Proof.Machine
end

