-- ==== Sys2Proof/Machine/Delivery.lean ====
section
/-! DEFINITION. Deliveries (R102, R103): what follows when a granted slot reaches its delivery point, and the answers of the
memory stack. -/

namespace Sys2Proof.Machine

open Sys2Proof

/-- The four-byte indices of an index slot (R212). -/
def indexList (data : List Byte) : List Nat := (List.range (data.length / 4)).map (fun i => leNat ((data.drop (4 * i)).take 4))

/-- An index slot delivered: its context goes on (R212). -/
def indexDone (s : State) (x : Slot) (c : CtxId) : State :=
  let ok := stCode x.status == Code.done
  let s1 := if ok then ctxMod s c (fun y => { y with prog := { y.prog with indices := indexList x.data } }) else s
  let s2 := slotDone (dropSlot s1 x.id) c x.seq x.status x.faddr none
  let y := ctxOf s2 c
  if ok && y.wait == .index && y.st == .running && y.stop == .no then makeReady s2 c else s2

/-- Rows of a tile delivered into its buffer (R216). -/
def tileIn (s : State) (x : Slot) (t off : Nat) : State :=
  if stCode x.status == Code.done then tileMod s t (fun b => { b with data := patch b.data off x.data, left := b.left - 1 }) else s

/-- Rows of a tile delivered at their destination: the buffer is free after the last (R216). -/
def tileOut (s : State) (x : Slot) (t : Nat) : State :=
  if stCode x.status == Code.done then
    let s1 := tileMod s t (fun b => { b with outLeft := b.outLeft - 1 })
    s1.onStreams (fun k => { k with tiles := k.tiles.filter (fun b => b.id != t || b.outLeft != 0) })
  else s

/-- The slot of a sequence number reads rows of a tile again that stood before the saved position (R217): they are folded already
(R296). -/
def rereads (s : State) (c : CtxId) (seq : Nat) : Bool := (ctxOf s c).recs.any (fun r => r.seq == seq && r.spos < r.prog.skipTo)

/-- A slot of a stream delivered: BUSY requests it again (R190). -/
def streamDone (s : State) (x : Slot) (c : CtxId) : State :=
  if stCode x.status == Code.busy then askAgain s x
  else match x.kind with
    | .index => indexDone s x c
    | .xposeSrc t off => slotDone (dropSlot (tileIn s x t off) x.id) c x.seq x.status x.faddr (if rereads s c x.seq then none else x.folds)
    | .xposeOut t => slotDone (dropSlot (tileOut s x t) x.id) c x.seq x.status x.faddr none
    | _ => slotDone (dropSlot s x.id) c x.seq x.status x.faddr x.folds

/-- The status of a transfer as its requester receives it: LATE on an access that missed the carrel cache (R83). -/
def Slot.answer (x : Slot) : Word := if x.missed then setField x.status 9 1 1 else x.status

/-- A transfer is over, by its kind. A fill or a write-back of the carrel cache returns no status of its own. -/
def slotOver (s0 : State) (x : Slot) : State :=
  let s := match x.kind with | .cacheFill _ _ | .cacheBack _ _ => s0 | _ => countLate s0 x.ident x.answer
  match x.kind with
  | .landing m => landingDone s x m
  | .serve m => landingDone s x m
  | .load off => match x.ctx with
    | some c => loadDelivered (dropSlot s x.id) c off x.status x.data
    | none => dropSlot s x.id
  | .cacheFill blk acc => fillDone s x blk acc
  | .cacheBack blk acc => backDone s x blk acc
  | .plain | .host | .cacheAcc _ =>
    presentAll ((dropSlot s x.id).emitOut (.access x.ident x.answer (if x.write then [] else x.data)))
  | _ => match x.ctx with
    | some c => streamDone s x c
    | none => dropSlot s x.id

/-- A slot that has passed its checks and ends at a store window leaves by the store port (R103, R269). -/
def toStore (s : State) (x : Slot) : State :=
  match x.dst with
  | .store h o => slotMod (s.emitOut (.storeWrite h o x.data)) x.id (fun y => { y with stage := .storeWrite })
  | _ => s

/-- Whether a granted slot is delivered by a row of its own: a PUT handed off, a COMBINE slot at its queue engine. -/
def ownDelivery (x : Slot) : Bool :=
  stCode x.status == Code.done && (match x.dst with | .remote _ _ => true | .combining _ _ _ _ _ => true | _ => false)

/-- SLOT_DELIVERED. -/
def execSlotDelivered (id : Nat) (s : State) : Host.Outcome State Fault Refusal :=
  act s []
    (match slotAt s id .granted with
     | none => s
     | some x =>
       atDue s x (fun t y =>
         if ownDelivery y then s
         else
           let store := match y.dst with | .store _ _ => true | _ => false
           if store && stCode y.status == Code.done then toStore t y else slotOver t y))

/-- STORE_PORT_RESPONSE: the data of a read goes on to its arbiter, or a write is complete (R103). -/
def execStorePortResponse (id : Nat) (data : List Byte) (s : State) : Host.Outcome State Fault Refusal :=
  act s []
    (match slotAt s id .storeRead, slotAt s id .storeWrite with
     | some x, _ => presentAll (slotMod s id (fun y => { y with stage := .waiting, data := fit x.len data, arrive := s.now }))
     | _, some x => slotOver s x
     | _, _ => s)

end Sys2Proof.Machine
end

