-- ==== Sys2Proof/Machine/FabricCmds.lean ====
section
/-! DEFINITION. Frames and windows (R91, R119-R128), the segment control registers and the grant watchdog (R112-R115), the squall
log (R132) and the counters' snapshots (R134). -/

namespace Sys2Proof.Machine

open Sys2Proof

/-! ### Frames and regulation windows -/

/-- FRAME_START: frame cc 0 of the next frame. No frame begins during a relock (R371). -/
def execFrameStart (s : State) : Host.Outcome State Fault Refusal :=
  act s [] (if rootStopped s then s else presentAll (frameStart s))

/-- BUDGET of every master that a write has reached comes into force (R120). -/
def budgetsEdge (s : State) : SMap Nat :=
  s.regs.foldl (fun m e => match keyReg s e.1 with
    | some (d, .regBudget x) => SMap.set m (identOf d x) (field e.2 0 16)
    | _ => m) []

/-- USED of every master is 0, then takes the grants already counted for the window that begins (R122, R125). -/
def usedEdge (s : State) : State :=
  let s1 := (List.range s.dies).foldl (fun s d => regResetIf s d (fun r => match r with | .regUsed _ => true | _ => false)) s
  let s2 := s1.fabric.usedNext.foldl (fun s e => regSet s (e.1 / 4096) (.regUsed (e.1 % 4096)) (word (min e.2 0x1FFFF))) s1
  s2.onFabric (fun f => { f with usedNext := [] })

/-- Writes of guest entries come into force at the second edge after them (R128). -/
def guestsEdge (s : State) : State :=
  s.onFabric (fun f => { f with
    guests := guestsAfterEdge s,
    guestPending := (f.guestPending.filter (fun g => 1 < g.edges)).map (fun g => { g with edges := g.edges - 1 }),
    guestCount := f.guestNext, guestNext := [] })

/-- Tenures at a window edge (R110, R125): none ends here, between boundaries. One whose holder was demoted since it began ends at its
next boundary; every other goes on, and its holder is demoted anew from here on. -/
def tenuresEdge (s : State) : State :=
  s.onFabric (fun f => { f with tenures := f.tenures.map (fun e => (e.1, { e.2 with
    demotedAtStart := false, revoked := e.2.revoked || (!e.2.demotedAtStart && demoted s e.2.holder false) })) })

/-- A window edge: demotions are cleared, and those that the grants already counted bring are noted; budgets and guests come into force, package copies advance (R119-R128, R136,
R237, R301). -/
def windowEdge (s : State) : State :=
  let s1 := tenuresEdge s
  let b := budgetsEdge s1
  let s2 := guestsEdge (usedEdge (s1.onFabric (fun f => { f with budgets := b, window := s.frame / 16 })))
  copiesEdge ((demotedMasters s2).foldl (fun s i => ctrAdd s (i / 4096) (.masterCounter (i % 4096) 5 false) 1) s2)

/-- REG_WINDOW_EDGE: the edge of the window in which the current frame lies, once, at frame cc 0 (R119). -/
def execRegWindowEdge (s : State) : Host.Outcome State Fault Refusal :=
  act s [] (if frameCc0 s && s.fabric.window < s.frame / 16 then presentAll (windowEdge s) else s)

/-! ### Segments (R112, R113) -/

/-- A write of a segment control register (R112). Tenures on a segment that is frozen end at their next boundary (R110, R113). -/
def segCtlWrite (s : State) (d w sg : Nat) (v : Word) : State :=
  let r := Reg.segCtl sg
  if w != 0 then regField s d r 24 8 Code.denied
  else
    let s1 := clearByOnes s d r 1 1 (field v 1 1)
    regField (regField s1 d r 0 1 (field v 0 1)) d r 24 8 Code.done

/-- SEGMENT_FREEZE: a write of a segment's control register. -/
def execSegmentFreeze (d : Die) (win : Win) (seg : SegId) (val : Word) (s : State) : Host.Outcome State Fault Refusal :=
  act s [d.toNat] (if segExists s.dies seg.toNat then segCtlWrite s d.toNat win.toNat seg.toNat val else s)

/-- Positions booked and not yet crossed: INFLIGHT; DRAINED (R112). -/
def segCtlRead (s : State) (d sg : Nat) : Word :=
  let w := regGet s d (.segCtl sg)
  let n := inflight s (d * 65536 + sg)
  word (put 24 8 (field w 24 8) + put 8 9 n + putB 2 (bit w 0 && n == 0) + field w 0 2)

/-! ### The grant watchdog (R114, R115) -/

/-- A booked transfer is lost and returns no status (R103, R115): its positions pass empty and it writes nothing more; its stream counts
it as delivered without DONE (log 29). -/
def loseSlot (s : State) (x : Slot) : State :=
  let s2 := dropSlot (dropBooked s x.id) x.id
  match x.ctx with
  | some c => if x.kind.isLoad then s2 else finishStop (recMod s2 c x.seq (fun r => { r with st := .withdrawn })) c
  | none => s2

/-- The watchdog fences the holder of a tenure (R115). -/
def fenceHolder (s : State) (d sg k : Nat) (t : Tenure) : State :=
  let s1 := s.onFabric (fun f => { f with
    wdogFenced := if f.wdogFenced.contains t.holder then f.wdogFenced else t.holder :: f.wdogFenced,
    tenures := SMap.erase f.tenures k })
  let s2 := segCount s1 d sg 16
  let lost := s2.fabric.slots.filter (fun x => x.ident == t.holder && s2.fabric.booked.any (fun b => b.slot == x.id))
  let s3 := lost.foldl loseSlot s2
  logEvent (hardSetBit s3 d (.segCtl sg) 1) d { ev 0x0C sg (frameCount s % 2 ^ 32) with master := BitVec.ofNat 16 t.holder }

/-- WATCHDOG_FIRE. -/
def execWatchdogFire (d : Die) (seg : SegId) (cls : SlotClass) (s : State) : Host.Outcome State Fault Refusal :=
  let k := orderKey (d.toNat * 65536 + seg.toNat) (clsNo cls)
  act s [d.toNat]
    (match SMap.find s.fabric.tenures k with
     | none => s
     | some t =>
       let limit := 256 * max 1 (rf s d.toNat .wdogCtl 0 16)
       if !bit (regGet s d.toNat .wdogCtl) 31 then s
       else atCycle s (max s.now (t.since + limit)) (fun s => fenceHolder s d.toNat seg.toNat k t))

/-! ### The squall log (R130, R132) -/

/-- Records held. -/
def squallsOf (s : State) (d : Nat) : List (BitVec 64) := SMap.get s.fabric.squalls d []

/-- POP: the oldest record is removed; a record that the full log discarded in this cycle is stored after all, and counts in LOST no
more (R132). -/
def popSquall (s : State) (d : Nat) : State :=
  let log := (squallsOf s d).drop 1
  let m := SMap.get s.fabric.squallNow d ⟨0, 0, 0, []⟩
  match m.dropped with
  | w :: rest =>
    if m.cycle = s.now then
      let old := log.take (log.length - m.count)
      let fresh := insertBy (fun a b => squallSeg a ≤ squallSeg b) w (log.drop (log.length - m.count))
      regField (s.onFabric (fun f => { f with
        squalls := SMap.set f.squalls d (old ++ fresh),
        squallNow := SMap.set f.squallNow d { m with count := m.count + 1, dropped := rest } })) d .squallCtl 16 8 (min 255 (m.lost + rest.length))
    else s.onFabric (fun f => { f with squalls := SMap.set f.squalls d log })
  | [] => s.onFabric (fun f => { f with squalls := SMap.set f.squalls d log })

/-- A write of SQUALL_CTL. -/
def squallCtlWrite (s : State) (d w : Nat) (v : Word) : State :=
  if w != 0 then s
  else
    let s1 := regField s d .squallCtl 31 1 (field v 31 1)
    let s2 := if bit v 8 then popSquall s1 d else s1
    if bit v 9 then
      (regField s2 d .squallCtl 16 8 0).onFabric (fun f => { f with
        squallNow := match SMap.find f.squallNow d with | some m => SMap.set f.squallNow d { m with lost := 0 } | none => f.squallNow })
    else s2

/-- SQUALL_CTL as it reads: LOST, PEND and DEPTH. -/
def squallCtlRead (s : State) (d : Nat) : Word :=
  let w := regGet s d .squallCtl
  let n := (squallsOf s d).length
  word (put 31 1 (field w 31 1) + put 16 8 (field w 16 8) + putB 7 (bit w 31 && n != 0) + put 0 7 n)

/-- SQUALL_POP: a write of SQUALL_CTL with POP = 1. -/
def execSquallPop (d : Die) (win : Win) (val : Word) (s : State) : Host.Outcome State Fault Refusal :=
  act s [d.toNat] (if bit val 8 then squallCtlWrite s d.toNat win.toNat val else s)

/-- SQUALL_CLR_LOST: a write of SQUALL_CTL with CLR_LOST = 1. -/
def execSquallClrLost (d : Die) (win : Win) (val : Word) (s : State) : Host.Outcome State Fault Refusal :=
  act s [d.toNat] (if bit val 9 then squallCtlWrite s d.toNat win.toNat val else s)

/-! ### Snapshots (R134) -/

/-- A write of PERF_CTL. -/
def perfCtlWrite (s : State) (d w : Nat) (v : Word) : State :=
  if w != 0 then regField s d .perfCtl 24 8 Code.denied
  else
    let s1 := regField (regField s d .perfCtl 0 1 (field v 0 1)) d .perfCtl 24 8 Code.done
    let s2 := if bit v 1 then (regField s1 d .perfCtl 3 1 0).onFabric (fun f => { f with snapWanted := f.snapWanted.erase d ++ [d] }) else s1
    if bit v 2 then s2.onFabric (fun f => { f with clearWanted := f.clearWanted.erase d ++ [d] }) else s2

/-- PERF_SNAP: a write of PERF_CTL with SNAP = 1. -/
def execPerfSnap (d : Die) (win : Win) (val : Word) (s : State) : Host.Outcome State Fault Refusal :=
  act s [d.toNat] (if bit val 1 then perfCtlWrite s d.toNat win.toNat val else s)

/-- PERF_CLEAR: a write of PERF_CTL with CLEAR = 1. -/
def execPerfClear (d : Die) (win : Win) (val : Word) (s : State) : Host.Outcome State Fault Refusal :=
  act s [d.toNat] (if bit val 2 then perfCtlWrite s d.toNat win.toNat val else s)

/-- COUNTER_SNAPSHOT: where the die has been asked for a snapshot or a clear, frame cc 0 of the next frame comes and makes them
(R134). -/
def execCounterSnapshot (d : Die) (s : State) : Host.Outcome State Fault Refusal :=
  act s [d.toNat]
    (if (s.fabric.snapWanted ++ s.fabric.clearWanted).contains d.toNat && !rootStopped s then presentAll (frameStart s) else s)

/-- A counter's snapshot as two words (R133). EMPTY_c of a segment with a class split is the positions of class c that have
passed on its die, less those moved (R135). -/
def counterRead (s : State) (d : Nat) (r : Reg) : Word :=
  let half := fun (hi : Bool) (n : Nat) => word (if hi then n / 2 ^ 32 else n % 2 ^ 32)
  let snap := fun (r : Reg) => SMap.get s.fabric.snaps (key d r) 0
  match r with
  | .dieCounter i hi => if 3 ≤ i && i < 8 then 0 else half hi (snap (.dieCounter i false))
  | .clusterCounter k i hi => half hi (snap (.clusterCounter k i false))
  | .carrelCounter c i hi => half hi (snap (.carrelCounter c i false))
  | .masterCounter x i hi => half hi (snap (.masterCounter x i false))
  | .segCounter sg i hi =>
    if 3 ≤ i && i < 6 then
      half hi (if segSplit sg then snap (.dieCounter i false) - snap (.segCounter sg (i - 3) false) else 0)
    else half hi (snap (.segCounter sg i false))
  | _ => 0

end Sys2Proof.Machine
end

