-- ==== Sys2Proof/Machine/MarchBase.lean ====
section
/-! DEFINITION. What other events do to a running march (R378, R379): a bank leaves it, a domain's march ends. -/

namespace Sys2Proof.Machine

open Sys2Proof

/-- The march that tests a bank, with its domain's key. -/
def marchOf (s : State) (b : Nat) : Option (Nat × MarchRun) := s.power.marches.find? (fun m => (SMap.find m.2.banks b).isSome)

/-- Die and domain of a domain's key. -/
def domOfKey (k : Nat) : Nat × Nat := (k / 64, k % 64)

/-- A field of MARCH_STAT_n counted up, saturating. -/
def marchCount (s : State) (d n lo w : Nat) : State :=
  regField s d (.marchStat n) lo w (min (rf s d (.marchStat n) lo w + 1) (2 ^ w - 1))

/-- The march of a domain is over with an outcome: 1 PASS, 2 REPAIRED, 3 RETIRED, 4 ABORTED (R384). MARCH returns when it has
ended on every named domain (R378). -/
def endMarch (s : State) (d n outcome : Nat) : State :=
  let k := domKey d n
  let s1 := regField (regField s d (.marchStat n) 29 3 outcome) d (.marchStat n) 28 1 0
  let s2 := s1.onPower (fun p => { p with
    marches := SMap.erase p.marches k, marchDoms := p.marchDoms.filter (fun e => e.2 != k) })
  completeWhere s2 0x50 (fun src => !s2.power.marchDoms.any (fun e => e.1 == src)) (stWord Code.done)

/-- The outcome of a march that no other event has ended. -/
def marchOutcome (s : State) (d n : Nat) : Nat :=
  if rf s d (.marchStat n) 0 8 != 0 then 3 else if rf s d (.marchStat n) 8 8 != 0 then 2 else 1

/-- A bank's march is over; with the last bank the domain's march ends. -/
def bankMarched (s : State) (b : Nat) : State :=
  match marchOf s b with
  | none => s
  | some (k, m) =>
    let p := domOfKey k
    let rest := SMap.erase m.banks b
    if rest.isEmpty then endMarch s p.1 p.2 (marchOutcome s p.1 p.2)
    else s.onPower (fun w => { w with marches := SMap.set w.marches k { m with banks := rest } })

/-- A bank leaves its march; `skipped` counts it (R379). -/
def leaveMarch (s : State) (b : Nat) (skipped : Bool) : State :=
  match marchOf s b with
  | none => s
  | some (k, _) => bankMarched (if skipped then marchCount s (domOfKey k).1 (domOfKey k).2 16 9 else s) b

/-- A domain's march is aborted (R379): its banks are released. -/
def abortMarch (s : State) (d n : Nat) : State :=
  match SMap.find s.power.marches (domKey d n) with
  | none => s
  | some m =>
    let s1 := m.banks.foldl (fun s e => match pauseOf s e.1 with
      | some ⟨.march, _, _⟩ => nextPause s e.1
      | some p => setPause s e.1 { p with behind := p.behind.filter (· != .march) }
      | none => s) s
    endMarch s1 d n 4

end Sys2Proof.Machine
end

