-- ==== Sys2Proof/Machine/Weeding.lean ====
section
/-! DEFINITION. The weeding of banks (R346-R350), hand-overs (R42-R45), retirement (R382), the two commands that weed, and the
zeroing pass. -/

namespace Sys2Proof.Machine

open Sys2Proof

/-! ### Phase 1 (R347, R350) -/

/-- The reset value of BANK_OWN: the supervisor in tenancy 0 (R39). -/
def resetOwn : Word := 0x840

/-- The weeding is part of a hand-over. -/
def WeedCause.isHandover : WeedCause → Bool
  | .handover _ => true | _ => false

/-- The operation of several banks that the weeding belongs to. -/
def WeedCause.op : WeedCause → Option LostOp
  | .handover o => o | .weed o => o | .retire _ => none

/-- The weeding gives reset ownership (R346): an operation of several banks does. -/
def WeedCause.resets (c : WeedCause) : Bool := c.op.isSome

/-- A weeding that meets one in phase 1: reset ownership where either gives it, else the first one's (R350). A retirement stays one. -/
def joinPhase1 (first : Pause) (cause : WeedCause) : Pause :=
  match first with
  | .phase1 o r c =>
    let both := match c, cause with | .retire x, _ => WeedCause.retire x | _, .retire x => .retire x | _, _ => c
    .phase1 (if r || cause.resets then resetOwn else o) (r || cause.resets) both
  | p => p

/-- The first phase 1 of a list of pauses changed by f. -/
def onPhase1 (f : Pause → Pause) : List Pause → List Pause
  | [] => []
  | p :: l => if p.isPhase1 then f p :: l else p :: onPhase1 f l

/-- The pauses of a bank after a weeding has met them: it joins a phase 1 that has begun or is to come; it takes the place of a hand-over,
and of a march that the bank leaves; else it follows what is in progress, before all that waits. One that waits for a DESTRUCTIVE march
(`stays`) comes behind all (R350, R379). -/
def weedPauses (p : PauseRec) (now : Nat) (own : Word) (cause : WeedCause) (stays : Bool) : PauseRec :=
  let next := Pause.phase1 own cause.resets cause
  let joined := if p.behind.any Pause.isPhase1 then onPhase1 (joinPhase1 · cause) p.behind
                else if stays then p.behind ++ [next] else next :: p.behind
  match p.kind with
  | .phase1 _ _ _ => { p with kind := joinPhase1 p.kind cause }
  | .handover => ⟨(joined.find? Pause.isPhase1).getD next, now, joined.filter (fun k => !k.isPhase1)⟩
  | .march => if stays then { p with behind := joined }
              else ⟨(joined.find? Pause.isPhase1).getD next, now, joined.filter (fun k => !k.isPhase1)⟩
  | _ => { p with behind := if stays then joined else joined.filter (· != .march) }

/-- A weeding of a bank begins, or joins one in phase 1. A sleeping bank is woken first, a retired one is not (R347). A bank
under march leaves it; only a hand-over waits for a DESTRUCTIVE march (R379). -/
def startWeed (s : State) (b : Nat) (own : Word) (cause : WeedCause) : State :=
  let stays := cause.isHandover && (match marchOf s b with | some m => !m.2.preserving | none => false)
  let s00 := s.onBanks (fun k => { k with zeroing := SMap.erase k.zeroing b })
  let s0 := if stays then s00 else leaveMarch s00 b true
  match pauseOf s b with
  | none =>
    let first := Pause.phase1 own cause.resets cause
    if asleep s b && !retired s b then startWake s0 b [first] else setPause s0 b ⟨first, s.now, []⟩
  | some p => setPause s0 b (weedPauses p s.now own cause stays)

/-- The live entries that touch a bank freed, each with an event (R329, R349). Cause: 1 weeding, 2 retirement, 3 TEN_CLOSE. -/
def freeEntriesOf (s : State) (b cause : Nat) (p : Nat → Bool) : State :=
  let d := pbDie b
  ((liveEntries s d).filter (fun e => entryCovers s d e b && p e)).foldl (fun s e =>
    let s1 := freeEntry s d e
    logEvent s1 d { ev 0x07 (put 16 4 (catGen s1 d e) + put 12 3 d + e) cause with ten := some (BitVec.ofNat 4 (catTen s1 d e)) }) s

/-- What stood in a bank is gone (R347): valid bits, classes, seal states, collations, merge entries, seal contexts, structures,
cache mode, catalogue entries. -/
def emptyBank (s : State) (b cause : Nat) (op : Option LostOp) : State :=
  let s1 := disableBank (releaseSeals (mergeDiscardFor s op (fun e => lnBank e.line == b)) (fun c => foBank c.folio == b) true) b
  let s2 := dropCollations s1 (fun f => foBank f == b)
  let s3 := if isCarrel b && b % 4 == 3 then endCache s2 (pbDie b) (carrelCore b) else s2
  let s4 := freeEntriesOf s3 b cause (fun _ => true)
  (clearValid s4 b).onBanks (fun k => { k with
    classMap := SMap.eraseIf k.classMap (fun f => foBank f == b),
    sealMap := SMap.eraseIf k.sealMap (fun f => foBank f == b) })

/-- Kind of a repair entry, in the order of R385 (DESIGN CHOICE, log 31). -/
def RepairEntry.kind : RepairEntry → Nat
  | .remap _ _ _ => 0 | .spareBad _ _ => 1 | .retire _ => 2 | .fence _ | .cluster _ => 3

/-- An entry appended to a die's repair record; a flash write that fails enters an event, and the repair stays until die reset (R385). -/
def addRecord (s : State) (d : Nat) (e : RepairEntry) : State :=
  let s1 := { s with draws := s.draws + 1 }
  if Config.flashFails s.draws then logEvent s1 d (ev 0x1C 1 e.kind)
  else s1.onPower (fun p => { p with record := SMap.upd p.record d [] (· ++ [e]) })

/-- A bank is retired from now on (R382, R383): held OFF, counted, logged. -/
def retireBank (s : State) (b : Nat) (rcause : Nat) : State :=
  let d := pbDie b
  let r := Reg.bankTest (pbBank b)
  let s1 := regField (regField s d r 31 1 1) d r 29 2 rcause
  let s2 := regField (setBankPower s1 b 3) d .dieGrade 0 14 (rf s d .dieGrade 0 14 + 1)
  logEvent (s2.onBanks (fun k => { k with zeroing := SMap.erase k.zeroing b })) d
    { ev 0x1A 0 rcause with ten := evTen s b, addr := BitVec.ofNat 48 (b * 2 ^ 17) }

/-- A bank's weeding, in progress or behind its wake, belongs to an operation. -/
def PauseRec.weedsFor (p : PauseRec) (op : LostOp) : Bool :=
  (p.kind :: p.behind).any (fun k => match k with | .phase1 _ _ c => c.op == some op | _ => false)

/-- An operation none of whose banks is still to be cleared has ended (R160). -/
def lostEnds (s : State) (op : Option LostOp) : State :=
  match op with
  | none => s
  | some o => if s.banks.pauses.any (fun e => e.2.weedsFor o) then s else logLost s o

/-- Cycle 25 of phase 1: the bank is empty, under the ownership to come, and its zeroing pass begins; a retirement retires it
instead (R44, R347, R348, R382). RETAIN and PIN are 0 (R359). -/
def endPhase1 (s : State) (b : Nat) (own : Word) (cause : WeedCause) : State :=
  let d := pbDie b
  let retire := match cause with | .retire _ => true | _ => false
  let s1 := emptyBank s b (if retire then 2 else 1) cause.op
  let s2 := (hardChange s1 d (.bankOwn (pbBank b)) own).onBanks (fun k => { k with tags := SMap.erase k.tags b })
  let s3 := lostEnds (nextPause (regField s2 d (.bankPwr (pbBank b)) 0 2 0) b) cause.op
  match cause with
  | .retire r => addRecord (retireBank s3 b r.toNat) d (.retire (pbBank b))
  | _ => if retired s b then s3 else touchBank (s3.onBanks (fun k => { k with zeroing := SMap.set k.zeroing b 0 })) b

/-- Some bank of a die is in phase 1 (R351). -/
def clearing (s : State) (d : Nat) : List Nat := ((s.banks.pauses.map (·.1)).filter (fun b => pbDie b == d && inPhase1 s b))

/-- The carrel banks of a core. -/
def carrelBanks (d core : Nat) : List Nat := (List.range 4).map (fun j => d * 8192 + core / 32 * 512 + 384 + core % 32 * 4 + j)

/-- The commands that waited for the phase 1 of a bank complete (R345, R348, R382, R389). -/
def endWeedCmds (s : State) (d : Nat) : State :=
  let here : CmdSrc → Bool := fun src => src.die == d
  let bankOfCmd : CmdSrc → Nat := fun src => taPkgBank (cmdArgF s src 0 0 27 * 64)
  let done := stWord Code.done
  let s1 := completeWhere s 0x42 (fun src => here src && !inPhase1 s (bankOfCmd src)) done
  let s2 := completeWhere s1 0x52 (fun src => here src && !inPhase1 s (bankOfCmd src)) done
  let s3 := completeWhere s2 0x53 (fun src => here src && (carrelBanks d (cmdArgF s src 0 0 10)).all (fun b => !inPhase1 s b)) done
  let s4 := completeWhere s3 0x40 (fun src => here src && (clearing s d).isEmpty) done
  completeWhere s4 0x41 (fun src => here src && (clearing s d).isEmpty) done

/-- WEED_PHASE1_END: cycle 25 of a weeding. -/
def execWeedPhase1End (bank : BankNo) (s : State) : Host.Outcome State Fault Refusal :=
  let b := bank.toNat
  act s [pbDie b]
    (match pauseOf s b with
     | some ⟨.phase1 own _ cause, start, _⟩ =>
       atBank s b (max s.now (start + 25)) (fun s => presentAll (wakeSeals (endWeedCmds (endPhase1 s b own cause) (pbDie b))))
     | _ => s)

/-! ### Hand-overs (R42-R45) -/

/-- The carrel bank 3 of a core is in cache mode, or on its way there: that one whose entry still clears the bank counts is the model's
choice (R43, R81; DESIGN CHOICE, log 23). -/
def inCacheMode (s : State) (b : Nat) : Bool :=
  isCarrel b && b % 4 == 3 && (carrelState s (pbDie b) (carrelCore b) != 0 || rf s (pbDie b) (.carrelCtl (carrelCore b)) 16 1 == 1)

/-- A carrel bank of a fenced core, which KIND CORE never owns (R77, R390). -/
def orphan (s : State) (b : Nat) : Bool := isCarrel b && coreFenced s (pbDie b) (carrelCore b)

/-- The status of a write of BANK_OWN (R42, R43). For an orphan bank KIND CORE is refused as naming a fenced core is (DEDUCED, log
56). -/
def ownStatus (s : State) (b w : Nat) (v : Word) : Nat :=
  let d := pbDie b
  let old := regSeen s d (.bankOwn (pbBank b))
  let change := ownTen v != ownTen old
  let kind := field v 19 3
  if kind ≥ 5 || field v 22 2 == 3 || !ownerFieldsOk s kind (field v 16 3) (field v 0 12) then Code.badArg
  else if !(w == 0 || (w == ownTen old && !change)) then Code.denied
  else if inCacheMode s b then Code.state
  else if change && bankCovered s b then Code.state
  else if change && inPhase1 s b then Code.state
  else if retired s b || (kind == 1 && (orphan s b || coreFenced s (field v 16 3) (field v 0 12))) then Code.fenced
  else Code.done

/-- Phase 1 takes the ownership of a hand-over that keeps TEN with it, unless a weeding gives the reset value (R346, R350). -/
def takeOwn (own : Word) : Pause → Pause
  | .phase1 o true c => .phase1 o true c
  | .phase1 _ false c => .phase1 own false c
  | p => p

/-- A hand-over that keeps TEN begins (R44): the bank's merge entries are due (R157), and the old tags stay for 9 cycles. A weeding
in progress or to come takes the new ownership with it. -/
def startHandover (s : State) (b : Nat) (own : Word) : State :=
  let s1 := s.onBanks (fun k => { k with merge := k.merge.map (fun e => if lnBank e.line == b then { e with due := true } else e) })
  match pauseOf s b with
  | none => setPause s1 b ⟨.handover, s.now, []⟩
  | some p =>
    if p.kind.isPhase1 then setPause s1 b { p with kind := takeOwn own p.kind }
    else if p.behind.any Pause.isPhase1 then setPause s1 b { p with behind := onPhase1 (takeOwn own) p.behind }
    else if p.kind == .handover then setPause s1 b { p with start := s.now }
    else setPause s1 b { p with behind := p.behind.filter (· != .handover) ++ [.handover] }

/-- A write of BANK_OWN. A register that was unsafe weeds its bank (R319). The structures of a bank that changes TEN are disabled at
cycle 0 (R231). -/
def bankOwnWrite (s : State) (b w : Nat) (v : Word) : State :=
  let d := pbDie b
  let r := Reg.bankOwn (pbBank b)
  let code := ownStatus s b w v
  let old := regSeen s d r
  if code != Code.done then refuseLast s d r code (some (ownTen old))
  else
    let own := word (field v 0 24)
    let lost := isUnsafe s d r
    let s1 := hardSet (s.onBanks (fun k => { k with tags := SMap.set k.tags b (ownOf s b) })) d r own
    if ownTen v != ownTen old || lost then startWeed (disableBank s1 b) b own (.handover none) else startHandover s1 b own

/-- BANK_OWN_WRITE. -/
def execBankOwnWrite (d : Die) (win : Win) (bank : BitVec 13) (val : Word) (s : State) : Host.Outcome State Fault Refusal :=
  let b := d.toNat * 8192 + bank.toNat
  act s [d.toNat] (if regUp s d.toNat (.bankOwn bank.toNat) then bankOwnWrite s b win.toNat val else s)

/-- HANDOVER_TAGS_IN_FORCE: cycle 9 of a hand-over that keeps TEN. -/
def execHandoverTagsInForce (bank : BankNo) (s : State) : Host.Outcome State Fault Refusal :=
  let b := bank.toNat
  act s [pbDie b]
    (match pauseOf s b with
     | some ⟨.handover, start, _⟩ =>
       atBank s b (max s.now (start + 9)) (fun s =>
         presentAll (nextPause (s.onBanks (fun k => { k with tags := SMap.erase k.tags b })) b))
     | _ => s)

/-! ### The zeroing pass (R348) -/

/-- A row of a bank zeroed. -/
def zeroRow (s : State) (b row : Nat) : State :=
  s.onBanks (fun k => { k with mem := Mem.writeN k.mem (rowAddr b row) (List.replicate 72 0) })

/-- Spare row n of a bank is unused, or the line that it holds is invalid. -/
def spareFree (s : State) (b n : Nat) : Bool :=
  let w := regGet s (pbDie b) (.bankRemap (pbBank b) n)
  !bit w 31 || !lineValid s (b * 2048 + field w 0 11)

/-- The pass's cycle of line n: its row while it is invalid, the failed row behind its remap entry, and spare row n. -/
def zeroLine (s : State) (b n : Nat) : State :=
  let pl := b * 2048 + n
  let s1 := if lineValid s pl then s else zeroRow s b (rowOf s pl)
  let s2 := if rowOf s pl != n then zeroRow s1 b n else s1
  if n < 4 && spareFree s b n then zeroRow s2 b (2048 + n) else s2

/-- WEED_ZERO_ROW. -/
def execWeedZeroRow (bank : BankNo) (s : State) : Host.Outcome State Fault Refusal :=
  let b := bank.toNat
  act s [pbDie b]
    (match SMap.find s.banks.zeroing b, nextCycle s b 1 s.now 3 with
     | some n, some t =>
       let s1 := useCycles (zeroLine (advanceTo s t) b n) b t 1
       s1.onBanks (fun k => { k with zeroing := if n + 1 < 2048 then SMap.set k.zeroing b (n + 1) else SMap.erase k.zeroing b })
     | _, _ => s)

/-! ### WEED_BANK and WEED-ALL (R348) -/

/-- The bank that a command's TA names, where it is a bank of the slot's die with OFFSET 0. -/
def cmdBank (s : State) (src : CmdSrc) : Option Nat :=
  let ta := cmdArgF s src 0 0 27 * 64
  if taDie ta == src.die && s.present (taDie ta) && ta % 2 ^ 17 == 0 then some (taPkgBank ta) else none

/-- A bank's domain is not UP: its status, else DONE. -/
def bankDown (s : State) (b : Nat) : Nat :=
  let n := bankDomain (pbBank b)
  if domUp s (pbDie b) n then Code.done else downCode s (pbDie b) n

/-- WEED_BANK. A bank in a domain that is not UP cannot be weeded (R356). -/
def execWeedBank (src : CmdSrc) (s : State) : Host.Outcome State Fault Refusal :=
  cmdAct s src 0x42 (fun s =>
    match cmdBank s src with
    | none => endCmd s src Code.badArg
    | some b =>
      cmdChecked s src [(cmdTen s src != ownTen (ownOf s b), Code.denied),
          (bankCovered s b || inCacheMode s b || inPhase1 s b, Code.state), (retired s b, Code.fenced),
          (bankDown s b != Code.done, bankDown s b)]
        (fun s => startWeed (continueCmd s src) b (regGet s (pbDie b) (.bankOwn (pbBank b))) (.weed none)))

/-- Every bank of a die whose domain is UP weeded, to reset ownership (R346). -/
def weedDie (s : State) (d : Nat) : State :=
  ((List.range 8192).map (· + d * 8192)).foldl (fun s b =>
    if retired s b || !domUp s d (bankDomain (pbBank b)) then s else startWeed s b resetOwn (.weed (some (.die (BitVec.ofNat 3 d))))) s

/-- WEED-ALL, in a side slot. -/
def execWeedAll (src : CmdSrc) (s : State) : Host.Outcome State Fault Refusal :=
  cmdAct s src 0x41 (fun s =>
    if src.win != some 0 then endCmd s src Code.denied
    else presentAll (endWeedCmds (weedDie (continueCmd s src) src.die) src.die))

/-- WEED_STAT (R351). -/
def weedStatRead (s : State) (d : Nat) : Word :=
  word (put 16 14 ((s.banks.zeroing.filter (fun e => pbDie e.1 == d)).length) + put 0 14 (clearing s d).length)

end Sys2Proof.Machine
end

