-- ==== Sys2Proof/Machine/Banks.lean ====
section
/-! DEFINITION. What the banks do by themselves and for software: wakes (R87), flushes (R157-R161), collations (R148, R149), parity
passes (R167), remapping (R169), raw check mode (R170), error registers (R171). -/

namespace Sys2Proof.Machine

open Sys2Proof

/-! ### Wakes (R87) -/

/-- BANK_WAKE_END: the 64-cc wake is over. A wake from OFF runs the zeroing pass behind it (R346). -/
def execBankWakeEnd (bank : BankNo) (s : State) : Host.Outcome State Fault Refusal :=
  let b := bank.toNat
  act s [pbDie b]
    (match pauseOf s b with
     | some ⟨.wake off, start, _⟩ =>
       atBank s b (max s.now (start + 64)) (fun s =>
         let s1 := if off then s.onBanks (fun k => { k with zeroing := SMap.set k.zeroing b 0 }) else s
         presentAll (touchBank (nextPause s1 b) b))
     | _ => s)

/-! ### The merge buffer (R157-R161) -/

/-- A merge entry. -/
def mergeEntry (s : State) (id : Nat) : Option MergeEntry := s.banks.merge.find? (fun e => e.id == id)

/-- Die and cluster of an entry. -/
def MergeEntry.place (e : MergeEntry) : Nat × Nat := (pbDie (lnBank e.line), pbCluster (lnBank e.line))

/-- MERGE_ENTRY_DUE: the entry reaches its age, or is the oldest of a cluster that holds 48 or more (R157). -/
def execMergeEntryDue (entry : Nat) (s : State) : Host.Outcome State Fault Refusal :=
  act s []
    (match mergeEntry s entry with
     | none => s
     | some e =>
       let p := e.place
       let all := mergeOfCluster s p.1 p.2
       let crowded := 48 ≤ all.length && (all.head?.map (·.id)) == some entry
       let due := if crowded then s.now else max s.now (e.born + mergeHold s p.1 p.2)
       if e.due then s else atCycle s due (fun s => mergeMod s entry (fun k => { k with due := true })))

/-- MERGE_FLUSH: due entries of a bank flush in the order of their allocation, in a pair of free bank cycles. The entry is CLOSED
from the first of them and is free after the second, in which the line is written (R88, R154). -/
def execMergeFlush (entry : Nat) (s : State) : Host.Outcome State Fault Refusal :=
  act s []
    (match mergeEntry s entry with
     | none => s
     | some e =>
       let b := lnBank e.line
       let first := s.banks.merge.find? (flushWaits s b s.now)
       if (first.map (·.id)) != some entry then s
       else match nextFree s b 2 with
         | none => s
         | some t => startFlush (useCycles (advanceTo s t) b t 2) e t)

/-- A write of MERGE_CTL (R161). -/
def mergeCtlWrite (s : State) (d w k : Nat) (v : Word) : State :=
  let r := Reg.mergeCtl k
  if w != 0 then regField s d r 24 8 Code.denied
  else
    let s1 := regSet s d r (word (put 8 8 (field v 8 8) + put 4 4 (field v 4 4)))
    if bit v 0 then
      s1.onBanks (fun b => { b with merge := b.merge.map (fun e => if e.place == (d, k) then { e with due := true } else e) })
    else s1

/-- MERGE_FLUSH_ALL: a write of MERGE_CTL with FLUSH = 1. -/
def execMergeFlushAll (d : Die) (win : Win) (cluster : Cluster) (val : Word) (s : State) : Host.Outcome State Fault Refusal :=
  act s [d.toNat]
    (if bit val 0 && regUp s d.toNat (.mergeCtl cluster.toNat) then
       presentAll (mergeCtlWrite s d.toNat win.toNat cluster.toNat val) else s)

/-! ### Collations (R148, R149) -/

/-- COLLATION_READ: one line in one free bank cycle. -/
def execCollationRead (folio : FolioNo) (s : State) : Host.Outcome State Fault Refusal :=
  let f := folio.toNat
  let b := foBank f
  act s [pbDie b]
    (match collationOf s f, nextCycle s b 1 s.now 2 with
     | some ⟨_, .reading n, _, _, _, _, _⟩, some t =>
       if 64 ≤ n || !codecUp s b then s
       else
         let s1 := useCycles (advanceTo s t) b t 1
         collationMod s1 f (fun e => { e with st := .reading (n + 1), bytes := e.bytes ++ seenBytes s1 (foLine f + n), lastRead := t })
     | _, _ => s)

/-- Strength of a folio's code. -/
def folioT (s : State) (f : Nat) : Nat := match classOf s f with | .folio t => strengthT t | _ => 16

/-- The codeword in 64 rows of 72 bytes: for each line its 66 message bytes, then the parity bytes (R142). -/
def codeword (t : Nat) (rows : List Byte) : List Byte :=
  (List.range 64).flatMap (fun i => (rows.drop (72 * i)).take 66)
    ++ (List.range (2 * t)).map (fun p => rows.getD (72 * (parityPlace p).1 + 64 + (parityPlace p).2) 0)

/-- Findings of a collation: a failed one at the folio's first line, located errors in their lines (R171, R172). -/
def collationFindings (f : Nat) (errs : Option (List Nat)) : List LineRead :=
  match errs with
  | none => [⟨foLine f, [], 0, 1, 5, false⟩]
  | some l => ((List.range 64).map (fun i => (i, (l.filter (fun e => errorLine e == i)).length))).filterMap (fun p =>
      if p.2 == 0 then none else some ⟨foLine f + p.1, [], p.2, 0, 4, false⟩)

/-- COLLATION_DONE: 1 cc after the last read where every syndrome is 0, else t + 1 cc after it. -/
def execCollationDone (folio : FolioNo) (s : State) : Host.Outcome State Fault Refusal :=
  let f := folio.toNat
  act s [pbDie (foBank f)]
    (match collationOf s f with
     | some ⟨_, .reading 64, bytes, _, lastRead, ident, task⟩ =>
       let t := folioT s f
       let errs := bchLocate t (codeword t bytes)
       atCycle s (max s.now (lastRead + 1 + (if errs == some [] then 0 else t))) (fun s =>
         let s1 := collationMod s f (fun e => { e with bytes := [], st := match errs with | some l => .ready l | none => .failed })
         presentAll (recordFindings s1 (foBank f) 2 (collationFindings f errs) ident task))
     | _ => s)

/-- COLLATION_ENTRY_DROP: no request has named the folio for 4,096 cc. -/
def execCollationEntryDrop (folio : FolioNo) (s : State) : Host.Outcome State Fault Refusal :=
  let f := folio.toNat
  act s [pbDie (foBank f)]
    (match collationOf s f with
     | some e =>
       if folioNamed s f then s
       else atCycle s (max s.now (e.used + 4096)) (fun s => presentAll (dropCollations s (· == f)))
     | none => s)

/-! ### Parity passes (R167) -/

/-- The message of a folio as its rows hold it (R142). -/
def folioMessage (s : State) (f : Nat) : List Byte := (List.range 64).flatMap (fun i => (seenBytes s (foLine f + i)).take 66)

/-- Parity line k written: check bytes 2-7, zeros beyond the 2t parity bytes (R142, R167). -/
def writeParity (s : State) (f k : Nat) : State :=
  let t := folioT s f
  let p := bchParity t (folioMessage s f)
  let pl := foLine f + k
  putRow s pl ((seenBytes s pl).take 66 ++ (List.range 6).map (fun i => p.getD (6 * k + i) 0))

/-- The cycle after the bank holds of the granted slots of a folio's seal. -/
def sealHeldTo (s : State) (f : Nat) : Nat :=
  (s.fabric.holds.filter (fun h => h.bank == foBank f && s.fabric.slots.any (fun x => x.id == h.slot && x.kind == .seal))).foldl
    (fun m h => max m (h.last + 1)) 0

/-- SEAL_PARITY_WRITE: one parity line in one free bank cycle; with the last the folio is SEALED and the context free. -/
def execSealParityWrite (folio : FolioNo) (s : State) : Host.Outcome State Fault Refusal :=
  let f := folio.toNat
  let b := foBank f
  act s [pbDie b]
    (match (sealCtxOf s f).bind (·.parity), nextCycle s b 1 (sealHeldTo s f) 1 with
     | some k, some t =>
       if !codecUp s b then s
       else
         let s1 := useCycles (writeParity (advanceTo s t) f k) b t 1
         if k + 1 < parityLines (folioT s f) then sealMod s1 f (fun c => { c with parity := some (k + 1) })
         else presentAll (wakeSeals (setSeal (s1.onBanks (fun x => { x with seals := x.seals.filter (fun c => c.folio != f) })) f .sealed))
     | _, _ => s)

/-! ### Remapping (R169, R381) -/

/-- The status of a write of BANK_REMAP_n. -/
def remapStatus (s : State) (b w n : Nat) (v : Word) : Nat :=
  let d := pbDie b
  let r := fun (i : Nat) => regGet s d (.bankRemap (pbBank b) i)
  let line := field v 0 11
  let pl := b * 2048 + line
  let en := bit v 31
  if en && (List.range 4).any (fun i => i != n && bit (r i) 31 && field (r i) 0 11 == line) then Code.badArg
  else if w != 0 then Code.denied
  else if bit (r n) 31 || isUnsafe s d (.bankRemap (pbBank b) n) || (marchOf s b).isSome then Code.state
  else if en && (regGet s d (.bankTest (pbBank b))).toNat.testBit (8 + n) then Code.state
  else if en && (!(mergeOf s pl).isEmpty || sealOf s (lnFolio pl) == .sealing) then Code.busy
  else if retired s b then Code.fenced
  else Code.done

/-- A write of BANK_REMAP_n: the entry is enabled at once, its copy follows. -/
def bankRemapWrite (s : State) (b w n : Nat) (v : Word) : State :=
  let d := pbDie b
  let r := Reg.bankRemap (pbBank b) n
  let code := remapStatus s b w n v
  if code != Code.done then logRefused (regField s d r 16 8 code) d r code (some (ownTen (ownOf s b)))
  else
    let s1 := hardSet s d r (word (put 31 1 (field v 31 1) + field v 0 11))
    if bit v 31 then
      (dropCollations s1 (fun f => foBank f == b)).onBanks (fun k => { k with remapCopies := SMap.set k.remapCopies (b * 4 + n) (field v 0 11) })
    else s1

/-- BANK_REMAP_WRITE. -/
def execBankRemapWrite (d : Die) (win : Win) (bank : BitVec 13) (n : BitVec 2) (val : Word) (s : State) :
    Host.Outcome State Fault Refusal :=
  act s [d.toNat] (presentAll (bankRemapWrite s (d.toNat * 8192 + bank.toNat) win.toNat n.toNat val))

/-- REMAP_COPY: the line's bytes go to the spare row in a pair of free bank cycles. A sleeping bank is woken for it (DEDUCED, log
24). -/
def execRemapCopy (bank : BankNo) (n : BitVec 2) (s : State) : Host.Outcome State Fault Refusal :=
  let b := bank.toNat
  act s [pbDie b]
    (match SMap.find s.banks.remapCopies (b * 4 + n.toNat) with
     | none => s
     | some line =>
       if asleep s b && (pauseOf s b).isNone && domUp s (pbDie b) (bankDomain (pbBank b)) then startWake s b []
       else match nextFree s b 2 with
         | none => s
         | some t =>
           let s1 := advanceTo s t
           let row := Mem.readN s1.banks.mem (rowAddr b line) 72
           useCycles (s1.onBanks (fun k => { k with
             mem := Mem.writeN k.mem (rowAddr b (2048 + n.toNat)) row,
             remapCopies := SMap.erase k.remapCopies (b * 4 + n.toNat) })) b t 2)

/-! ### Raw check mode (R170) -/

/-- The line that RAW_TA names. -/
def rawLine (s : State) (d : Nat) : Nat := rf s d .rawTa 0 27

/-- The status of a raw operation on a line. A bank of another die is reached while both dies are open (DEDUCED, log 30). -/
def rawStatus (s : State) (d w pl : Nat) (op : RawOp) : Nat :=
  let b := lnBank pl
  let f := lnFolio pl
  if w != 0 then Code.denied
  else if !s.present (pbDie b) then Code.badArg
  else if field (ownOf s b) 19 3 != 0 then Code.denied
  else if op == .sealMark && (!isFolioClass s f || sealOf s f != .opened) then Code.state
  else if retired s b || (pbDie b != d && !(dieOpen s d && dieOpen s (pbDie b))) then Code.fenced
  else if bankDown s b != Code.done then bankDown s b
  else if !(mergeOf s pl).isEmpty || sealOf s f == .sealing then Code.busy
  else Code.done

/-- LAST of RAW_CMD. -/
def rawLast (s : State) (d code : Nat) : State := regField s d .rawCmd 24 8 code

/-- RAW_DATA and RAW_CHECK loaded with 72 bytes. -/
def rawLoad (s : State) (d : Nat) (row : List Byte) : State :=
  let part := fun (i : Nat) => word (leNat ((row.drop (4 * i)).take 4))
  let s1 := (List.range 16).foldl (fun s i => regSet s d (.rawData i) (part i)) s
  (List.range 2).foldl (fun s i => regSet s d (.rawCheck i) (part (16 + i))) s1

/-- The 72 bytes that RAW_DATA and RAW_CHECK hold. -/
def rawRow (s : State) (d : Nat) : List Byte :=
  (List.range 16).flatMap (fun i => leBytes 4 (regGet s d (.rawData i)).toNat)
    ++ (List.range 2).flatMap (fun i => leBytes 4 (regGet s d (.rawCheck i)).toNat)

/-- A write of RAW_CMD: the operation waits for its cycle, behind those that wait already (DESIGN CHOICE, log 30). -/
def rawCmdWrite (s : State) (d w : Nat) (op : RawOp) : State :=
  let code := rawStatus s d w (rawLine s d) op
  if code != Code.done then rawLast s d code
  else s.onBanks (fun k => { k with
    rawOps := SMap.set k.rawOps d ((SMap.find k.rawOps d).getD [] ++ [⟨op, rawLine s d, rawRow s d⟩]) })

/-- RAW_READ. -/
def execRawRead (d : Die) (win : Win) (s : State) : Host.Outcome State Fault Refusal :=
  act s [d.toNat] (rawCmdWrite s d.toNat win.toNat .read)

/-- RAW_WRITE. -/
def execRawWrite (d : Die) (win : Win) (s : State) : Host.Outcome State Fault Refusal :=
  act s [d.toNat] (rawCmdWrite s d.toNat win.toNat .write)

/-- RAW_SEALMARK. -/
def execRawSealmark (d : Die) (win : Win) (s : State) : Host.Outcome State Fault Refusal :=
  act s [d.toNat] (rawCmdWrite s d.toNat win.toNat .sealMark)

/-- A raw operation carried out. -/
def rawDo (s : State) (d : Nat) (q : RawReq) : State :=
  let f := lnFolio q.line
  match q.op with
  | .read => rawLoad s d (seenBytes s q.line)
  | .write => putRow (dropCollations s (· == f)) q.line q.row
  | .sealMark => setSeal (dropCollations s (· == f)) f .sealed

/-- RAW_OP_EXECUTE: in one free bank cycle. Its checks are made again, since the line may stand otherwise by now (log 30). -/
def execRawOpExecute (d : Die) (s : State) : Host.Outcome State Fault Refusal :=
  let n := d.toNat
  act s [n]
    (match (SMap.find s.banks.rawOps n).getD [] with
     | [] => s
     | q :: rest =>
       let b := lnBank q.line
       let take := fun (s : State) =>
         s.onBanks (fun k => { k with rawOps := if rest.isEmpty then SMap.erase k.rawOps n else SMap.set k.rawOps n rest })
       let code := rawStatus s n 0 q.line q.op
       if code != Code.done then rawLast (take s) n code
       else if asleep s b && (pauseOf s b).isNone then startWake s b []
       else match nextFree s b 1 with
         | none => s
         | some t =>
           presentAll (rawLast (useCycles (rawDo (take (advanceTo s t)) n q) b t 1) n Code.done))

/-! ### Error registers (R171) -/

/-- BANK_ECNT_CLR: CORR and UNCORR are 0. -/
def execBankEcntClr (d : Die) (win : Win) (bank : BitVec 13) (s : State) : Host.Outcome State Fault Refusal :=
  act s [d.toNat]
    (if win.toNat == 0 && regUp s d.toNat (.bankEcnt bank.toNat) then regSet s d.toNat (.bankEcnt bank.toNat) 0 else s)

end Sys2Proof.Machine
end

