-- ==== Sys2Proof/Machine/Image.lean ====
section
/-! DEFINITION. The image slots of a die's flash: manifests, blocks and parts (R432-R434), and the scan pattern set (R315). -/

namespace Sys2Proof.Machine

open Sys2Proof

/-- A die's flash; empty where nothing has been loaded (log 5). -/
def flashOf (s : State) (d : Nat) : Flash := SMap.get s.flash d ⟨[], 0, [], [], 0, [], none, false⟩
def flashSet (s : State) (d : Nat) (f : Flash) : State := { s with flash := SMap.set s.flash d f }

/-! ### The manifest (R432, R433) -/

/-- Little-endian field of a header. -/
def hdr (h : List Byte) (at_ n : Nat) : Nat := leNat ((h.drop at_).take n)

/-- Body length in blocks. -/
def bodyBlocks (h : List Byte) : Nat := hdr h 18 2

/-- Entry k of a manifest header: its 64 bytes (R433). -/
def partEntry (header : List Byte) (k : Nat) : List Byte := ((header.drop (32 + 64 * k)).take 64)

/-- Parts of a manifest (R432). -/
def partCount (header : List Byte) : Nat := leNat ((header.drop 6).take 2)

/-- The parts of a manifest. -/
def partsOf (h : List Byte) : List (List Byte) := (List.range (min 32 (partCount h))).map (partEntry h)

/-- The part of a kind that serves a die. -/
def partFor (h : List Byte) (d kind : Nat) : Option (List Byte) :=
  (partsOf h).find? (fun p => (p.getD 0 0).toNat == kind && (p.getD 1 0).toNat.testBit d)

/-! ### The body (R434) -/

/-- A block decrypted with the Ralligil firmware key; none where its tag does not verify (R434). -/
def openBlock (h : List Byte) (i : Nat) (cipher tag : List Byte) : Option (List Byte) :=
  gcmOpen Config.firmwareKey ((h.drop 20).take 8 ++ leBytes 4 i) (h.take 32) cipher tag

/-- The body plaintext of an image; none where a block is missing or a tag fails (R439). -/
def openBody (h : List Byte) (blocks : SMap (List Byte × List Byte)) : Option (List Byte) :=
  ((List.range (bodyBlocks h)).map (fun i =>
    match SMap.find blocks i with | some b => openBlock h i b.1 b.2 | none => none)).foldl
      (fun acc b => match acc, b with | some x, some y => some (x ++ y) | _, _ => none) (some [])

/-- A part's digest is the manifest's. -/
def partOk (body p : List Byte) : Bool := sha384 ((body.drop (hdr p 4 4)).take (hdr p 8 4)) == (p.drop 16).take 48

/-- What the check of a die's scan pattern set finds, part kind 4 of its active image (R315): 0 good, 3 PATTERN_BAD, 4 NO_FLASH. A flash
on which nothing stands is an absent one (DEDUCED, log 34). -/
def patternCheck (s : State) (d : Nat) : Nat :=
  match SMap.find s.flash d with
  | none => 4
  | some f =>
    match partFor f.activeHeader d 4, openBody f.activeHeader f.activeBlocks with
    | some p, some body => if partOk body p then 0 else 3
    | _, _ => 3

end Sys2Proof.Machine
end

