-- ==== Sys2Proof/Machine/March.lean ====
section
/-! DEFINITION. March testing (R375-R380), BANK_RETIRE (R382), CORE_FENCE (R389) and UNFENCE (R403). -/

namespace Sys2Proof.Machine

open Sys2Proof

/-- The issuer is not the host window of tenancy 0. -/
def notZero (src : CmdSrc) : Bool := src.win != some 0

/-- The banks of a bank domain 0-39 of a die (R24). -/
def domainBanks (d n : Nat) : List Nat :=
  if n < 32 then (List.range 192).map (fun i => d * 8192 + n / 2 * 512 + n % 2 * 192 + i)
  else (List.range 256).map (fun i => d * 8192 + (2 * (n - 32) + i / 128) * 512 + 384 + i % 128)

/-! ### MARCH (R378) -/

/-- The domains that MARCH names. -/
def marchDomains (v : Nat) : List Nat := if v == 0xFF then List.range 40 else [v]

/-- A level change runs on a die (R371). -/
def changing (s : State) (d : Nat) : Bool := (SMap.find s.power.perf d).isSome

/-- The checks of MARCH. -/
def marchChecks (s : State) (src : CmdSrc) : List (Bool × Nat) :=
  let d := src.die
  let v := cmdArgF s src 0 0 8
  let mode := cmdArgF s src 0 8 2
  let doms := marchDomains v
  let busyBank : Nat → Bool := fun b => !retired s b
    && (field (ownOf s b) 19 3 != 0 || ownTen (ownOf s b) != 0 || inPhase1 s b)
  [((39 < v && v != 0xFF) || 2 ≤ mode, Code.badArg), (notZero src, Code.denied),
   (doms.any (fun n => !domUp s d n) || changing s d || (mode == 0 && doms.any (fun n => (domainBanks d n).any busyBank)), Code.state),
   (doms.any (fun n => (SMap.find s.power.marches (domKey d n)).isSome), Code.busy)]

/-- A march starts on a domain: its banks, but the retired ones, are held or woken (R376, R377). -/
def startMarch (s : State) (d n : Nat) (preserving : Bool) (src : Option CmdSrc) : State :=
  let banks := (domainBanks d n).filter (fun b => !retired s b)
  let s1 := regSet s d (.marchStat n) (word (2 ^ 28 + putB 27 preserving))
  let run : MarchRun := ⟨preserving, src, banks.map (fun b => (b, ⟨0, 0, []⟩))⟩
  let s2 := s1.onPower (fun p => { p with
    marches := SMap.set p.marches (domKey d n) run,
    marchDoms := match src with | some c => p.marchDoms ++ [(c, domKey d n)] | none => p.marchDoms })
  let s3 := banks.foldl (fun s b =>
    if preserving then (if asleep s b && (pauseOf s b).isNone then startWake s b [] else s) else startPause s b .march) s2
  if banks.isEmpty then endMarch s3 d n 1 else s3

/-- MARCH. -/
def execMarch (src : CmdSrc) (s : State) : Host.Outcome State Fault Refusal :=
  cmdAct s src 0x50 (fun s =>
    cmdChecked s src (marchChecks s src) (fun s =>
      (marchDomains (cmdArgF s src 0 0 8)).foldl (fun s n => startMarch s src.die n (cmdArgF s src 0 8 2 == 1) (some src)) (continueCmd s src)))

/-! ### The operations of a march (R375-R377, R380) -/

/-- Entry n of a bank's remap table is enabled, with its line. -/
def remapLine (s : State) (b n : Nat) : Option Nat :=
  let w := regGet s (pbDie b) (.bankRemap (pbBank b) n)
  if bit w 31 then some (field w 0 11) else none

/-- Spare row n is unusable (R380). -/
def spareBad (s : State) (b n : Nat) : Bool := bit (regGet s (pbDie b) (.bankTest (pbBank b))) (8 + n)

/-- Elements 3 and 4 run downward (R375). -/
def descends (e : Nat) : Bool := e == 3 || e == 4

/-- What stands at a place of an element's order: spare row n as 2,048 + n, else a line; none for a spare row in use. -/
def marchRow (s : State) (b e p : Nat) : Option Nat :=
  let q := if descends e then 2051 - p else p
  if q < 4 then (if (remapLine s b q).isSome then none else some (2048 + q)) else some (q - 4)

/-- The next place of an element from place p on at which a row stands. -/
def nextPlace (s : State) (b e p : Nat) : Option (Nat × Nat) :=
  ((List.range (2052 - p)).map (· + p)).findSome? (fun q => (marchRow s b e q).map (fun r => (q, r)))

/-- The physical row of a row under test. -/
def testRow (s : State) (b r : Nat) : Nat := if 2048 ≤ r then r else rowOf s (b * 2048 + r)

/-- Bank cycles of an element on one row (R375). -/
def elementCycles (preserving : Bool) (e : Nat) : Nat := if preserving then 6 else if e == 0 || e == 5 then 1 else 2

/-- What an element leaves in a row: elements 1 and 3 write ones, 0, 2 and 4 zeros (R375). -/
def marchWrite (s : State) (b r e : Nat) : State :=
  let fill : List Byte := List.replicate 72 (if e == 1 || e == 3 then 0xFF else 0)
  if e == 5 then s else s.onBanks (fun k => { k with mem := Mem.writeN k.mem (rowAddr b (testRow s b r)) fill })

/-- One failing row counted (R380, R383). -/
def countFail (s : State) (b : Nat) : State :=
  let r := Reg.bankTest (pbBank b)
  regField s (pbDie b) r 0 8 (min (rf s (pbDie b) r 0 8 + 1) 255)

/-- A spare row found unusable. -/
def markSpare (s : State) (b n : Nat) : State :=
  if spareBad s b n then s
  else addRecord (regField (countFail s b) (pbDie b) (.bankTest (pbBank b)) (8 + n) 1 1) (pbDie b) (.spareBad (pbBank b) n)

/-- The lowest entry of a bank that is disabled with a usable spare row. -/
def freeSpare (s : State) (b : Nat) : Option Nat :=
  (List.range 4).find? (fun n => (remapLine s b n).isNone && !spareBad s b n)

/-- The march that tests a bank is PRESERVING. -/
def marchPreserves (s : State) (b : Nat) : Bool := match marchOf s b with | some m => m.2.preserving | none => false

/-- Entry n of a bank enabled for a line, by its march (R380), but for one that is unsafe until die reset (R319): a DESTRUCTIVE one leaves 72 zero bytes in the spare row, a
PRESERVING one what it holds of the line. -/
def enableRemap (s : State) (b n line : Nat) : State :=
  let old := if marchPreserves s b then Mem.readN s.banks.mem (rowAddr b line) 72 else List.replicate 72 0
  let s1 := (dropCollations s (fun f => foBank f == b)).onBanks (fun k => { k with mem := Mem.writeN k.mem (rowAddr b (2048 + n)) old })
  let r := Reg.bankRemap (pbBank b) n
  let s2 := if isUnsafe s (pbDie b) r then s1 else hardSet s1 (pbDie b) r (word (2 ^ 31 + line))
  addRecord s2 (pbDie b) (.remap (pbBank b) n line)

/-- A bank is retired by its march, which ends for it (R380, R382). -/
def marchRetires (s : State) (d n b : Nat) : State :=
  let s1 := leaveMarch (marchCount (countFail s b) d n 0 8) b false
  startWeed s1 b (regGet s1 d (.bankOwn (pbBank b))) (.retire 2)

/-- A failing row: the four cases of R380. -/
def rowFails (s : State) (d n b r : Nat) : State :=
  if 2048 ≤ r then markSpare s b (r - 2048)
  else match (List.range 4).find? (fun i => remapLine s b i == some r) with
    | some i => markSpare s b i
    | none => match freeSpare s b with
      | some i => marchCount (enableRemap (countFail s b) b i r) d n 8 8
      | none => marchRetires s d n b

/-- The bank cycle that a new remap adds to a failing row's operations, to write the spare row (R376, R380). -/
def remapCycles (s : State) (b r : Nat) (bad : Bool) : Nat :=
  if bad && decide (r < 2048) && !(List.range 4).any (fun i => remapLine s b i == some r) && (freeSpare s b).isSome then 1 else 0

/-- The first cycle from now on, in the current frame, that begins n cycles in which nothing holds a bank under DESTRUCTIVE
march. -/
def marchCycle (s : State) (b n : Nat) : Option Nat :=
  if rootStopped s || dieStopped s (pbDie b) then none else ((List.range (frameEnd s - s.now)).map (· + s.now)).find? (fun c => (List.range n).all (fun i => !bankHeld s b (c + i)))

/-- A bank's place in its march replaced. -/
def marchPut (s : State) (k : Nat) (m : MarchRun) (b : Nat) (v : MarchBank) : State :=
  s.onPower (fun p => { p with marches := SMap.set p.marches k { m with banks := SMap.set m.banks b v } })

/-- A bank's march ends: a DESTRUCTIVE one releases it. -/
def bankDone (s : State) (b : Nat) (preserving : Bool) : State :=
  let s1 := bankMarched s b
  if preserving then s1 else presentAll (nextPause s1 b)

/-- The next row of a DESTRUCTIVE march. -/
def destructiveOp (s : State) (k : Nat) (m : MarchRun) (b : Nat) (v : MarchBank) (bad : Bool) : State :=
  let p := domOfKey k
  match nextPlace s b v.element v.row with
  | none => if 5 ≤ v.element then bankDone s b false else marchPut s k m b ⟨v.element + 1, 0, []⟩
  | some (q, r) =>
    let n := elementCycles false v.element
    match marchCycle s b n with
    | none => s
    | some t =>
      let s1 := useCycles (marchWrite (advanceTo s t) b r v.element) b t (n + remapCycles s b r bad)
      let s2 := marchPut s1 k m b { v with row := q + 1 }
      let s3 := if bad then rowFails s2 p.1 p.2 b r else s2
      if (marchOf s3 b).isSome && v.element == 5 && (nextPlace s3 b 5 (q + 1)).isNone then bankDone s3 b false else s3

/-- A line that a PRESERVING march passes over (R377). -/
def passedOver (s : State) (b r : Nat) : Bool :=
  decide (r < 2048) && (!(mergeOf s (b * 2048 + r)).isEmpty || sealOf s (lnFolio (b * 2048 + r)) == .sealing)

/-- One group of a PRESERVING march on a row: its row keeps what it holds. The group holds the whole bank for its six cycles
(DEDUCED, log 31). -/
def preservingGroup (s : State) (k : Nat) (m : MarchRun) (b r : Nat) (next : MarchBank) (bad : Bool) : State :=
  let p := domOfKey k
  match nextCycle s b 6 s.now 4 with
  | none => s
  | some t =>
    let s1 := marchPut (useCycles (advanceTo s t) b t (6 + remapCycles s b r bad)) k m b next
    let s2 := if bad then rowFails s1 p.1 p.2 b r else s1
    if (marchOf s2 b).isSome && (nextPlace s2 b 0 next.row).isNone && next.later.isEmpty then bankDone s2 b true else s2

/-- The next row of a PRESERVING march; lines passed over are taken up behind line 2,047. -/
def preservingOp (s : State) (k : Nat) (m : MarchRun) (b : Nat) (v : MarchBank) (bad : Bool) : State :=
  match nextPlace s b 0 v.row with
  | some (q, r) =>
    if passedOver s b r then marchPut s k m b { v with row := q + 1, later := v.later ++ [r] }
    else preservingGroup s k m b r { v with row := q + 1 } bad
  | none =>
    match v.later.find? (fun r => !passedOver s b r) with
    | some r => preservingGroup s k m b r { v with later := v.later.filter (· != r) } bad
    | none => if v.later.isEmpty then bankDone s b true else s

/-- MARCH_OPERATION: the next row of a bank under march, and what its reads answered. -/
def execMarchOperation (bank : BankNo) (reads : MarchReads) (s : State) : Host.Outcome State Fault Refusal :=
  let b := bank.toNat
  act s [pbDie b]
    (match marchOf s b with
     | none => s
     | some (k, m) =>
       match SMap.find m.banks b with
       | none => s
       | some v =>
         let bad := reads == .bad && !(!m.preserving && v.element == 0)
         if m.preserving then preservingOp s k m b v bad
         else match pauseOf s b with
           | some ⟨.march, _, _⟩ => destructiveOp s k m b v bad
           | _ => s)

/-! ### BANK_RETIRE, CORE_FENCE, UNFENCE -/

/-- BANK_RETIRE: an event of cycles 0-25 of R347 (R382). A bank of a domain that is not UP holds nothing: it is retired at once
(DEDUCED, log 31). -/
def execBankRetire (src : CmdSrc) (s : State) : Host.Outcome State Fault Refusal :=
  cmdAct s src 0x52 (fun s =>
    match cmdBank s src with
    | none => endCmd s src Code.badArg
    | some b =>
      cmdChecked s src [(notZero src, Code.denied), (retired s b, Code.fenced)]
        (fun s =>
          if bankDown s b != Code.done then
            endWeedCmds (addRecord (retireBank (emptyBank (continueCmd s src) b 2 none) b 3) (pbDie b) (.retire (pbBank b))) src.die
          else startWeed (leaveMarch (continueCmd s src) b true) b (regGet s (pbDie b) (.bankOwn (pbBank b))) (.retire 3)))

/-- Cores of a grade (R387). -/
def gradeCores (s : State) (d : Nat) : Nat := match rf s d .dieGrade 30 2 with | 0 => 512 | 1 => 480 | _ => 448

/-- ENABLED of a die set, and BELOW with it (R387). -/
def setEnabled (s : State) (d n : Nat) : State :=
  regField (regField s d .dieGrade 17 10 n) d .dieGrade 29 1 (if n < gradeCores s d then 1 else 0)

/-- A core is fenced from now on (R389). -/
def fenceCore (s : State) (d core : Nat) : State :=
  let ident := identOf d core
  let s1 := regField s d (.coreFenced (core / 32)) (core % 32) 1 1
  let gone := s1.fabric.slots.filter (fun x => x.ident == ident
    && (x.stage == .translate || x.stage == .storeRead || x.stage == .cached || x.stage == .waiting))
  let s2 := gone.foldl (fun s x => dropSlot s x.id) s1
  let s3 := hardChange (endCache s2 d core) d (.coreTen core) 0
  let s4 := addRecord (setEnabled s3 d (rf s3 d .dieGrade 17 10 - 1)) d (.fence core)
  let s5 := logEvent s4 d (ev 0x1B core 0)
  (carrelBanks d core).foldl (fun s b =>
    if retired s b || bankDown s b != Code.done then s else startWeed s b resetOwn (.weed (some (.core (BitVec.ofNat 3 d) (BitVec.ofNat 9 core))))) s5

/-- CORE_FENCE. -/
def execCoreFence (src : CmdSrc) (s : State) : Host.Outcome State Fault Refusal :=
  cmdAct s src 0x53 (fun s =>
    let d := src.die
    let core := cmdArgF s src 0 0 10
    cmdChecked s src [(511 < core, Code.badArg), (notZero src, Code.denied)]
      (fun s =>
        if coreFenced s d core then endCmd s src Code.done
        else presentAll (endWeedCmds (fenceCore (continueCmd s src) d core) d)))

/-- UNFENCE (R403). -/
def execUnfence (src : CmdSrc) (s : State) : Host.Outcome State Fault Refusal :=
  cmdAct s src 0x54 (fun s =>
    let m := cmdArgF s src 0 0 12
    let ident := identOf src.die m
    cmdChecked s src [(!assigned m, Code.badArg), (notZero src, Code.denied), (masterStatus s src.die m == Code.fenced, Code.fenced),
        (!s.fabric.wdogFenced.contains ident, Code.state)]
      (fun s => endCmd (s.onFabric (fun f => { f with wdogFenced := f.wdogFenced.filter (· != ident) })) src Code.done))

end Sys2Proof.Machine
end

