-- ==== Sys2Proof/Machine/Tap.lean ====
section
/-! DEFINITION. Boundary test (R393): the wrappers of the power domains and the TAP of a die. No command of the table is a shift of the
TAP or of a wrapper; SCAN drives the wrappers. -/

namespace Sys2Proof.Machine

open Sys2Proof

/-- The wrapper of a domain; at reset it is transparent (log 54). -/
def wrapperOf (s : State) (d n : Nat) : Wrapper := SMap.get s.replicas.wrappers (domKey d n) ⟨.functional, false, []⟩

/-- WIR of a domain's wrapper set. -/
def setWrapper (s : State) (d n : Nat) (m : WirMode) : State :=
  s.onReplicas (fun r => { r with wrappers := SMap.set r.wrappers (domKey d n) { wrapperOf s d n with wir := m } })

/-- The instruction that a die's TAP holds; at reset IDCODE (PRESUMED, log 54: as IEEE 1149.1 has it). -/
def tapOf (s : State) (d : Nat) : TapInstr := SMap.get s.replicas.taps d .idcode

/-- IDCODE: version 0x1, part number 0xB7C1, Ralligil's JEP106 code, 1 (R393). -/
def idcode : Word := word (put 28 4 0x1 + put 12 16 0xB7C1 + put 1 11 Config.jep106.toNat + 1)

/-- What a TAP instruction puts between the TAP's input and output. -/
inductive TapTarget where
  | bypass | idcode | boundary
  | wir (domain : BitVec 6)
deriving DecidableEq, Repr

/-- The register that an instruction reaches in a life-cycle state (R393): in MANUFACTURE every one of its own, in every other state
BYPASS and IDCODE alone. A private instruction that names no domain reaches nothing of the BTM. -/
def tapSelect (life : Nat) : TapInstr → TapTarget
  | .bypass => .bypass
  | .idcode => .idcode
  | .samplePreload => if life == 0 then .boundary else .bypass
  | .extest => if life == 0 then .boundary else .bypass
  | .selectWir n => if life == 0 && n.toNat < 48 then .wir n else .bypass
  | .other => .bypass

/-- What a die's TAP reaches now. -/
def tapReaches (s : State) (d : Nat) : TapTarget := tapSelect (lifeCycle s d) (tapOf s d)

end Sys2Proof.Machine
end

