-- ==== Sys2Proof/Machine/Power.lean ====
section
/-! DEFINITION. Power domains (R353-R358, R367), bank states (R359-R366), performance levels and doze (R368-R373). -/

namespace Sys2Proof.Machine

open Sys2Proof

/-! ### What the loss of a domain takes with it (R231, R271, R350, R354, R355, R367) -/

/-- A booked transfer lost to the loss of a domain: it makes no access any more, its positions pass empty, and it returns no status
(R103, R367). Its stream aborts its task with ACAUSE 10; what waited for a transfer of the engine, of the cache or of a load goes on as
log 32 says. -/
def loseTransfer (s : State) (x : Slot) : State :=
  match x.kind with
  | .load _ => slotOver (dropBooked s x.id) { x with status := stWord Code.brownout }
  | .landing m | .serve m => loseMessage (loseSlot s x) m
  | .cacheFill _ acc => fillLost (dropBooked s x.id) x acc
  | .cacheBack blk acc => backOver (dropBooked s x.id) x blk acc
  | _ => match x.ctx with
    | some c => ctxAbort (loseSlot s x) c 10
    | none => loseSlot s x

/-- A granted transfer has a hold of a bank, or an array cycle in it, still to come. -/
def holdsStill (s : State) (x : Slot) (p : Nat → Bool) : Bool :=
  s.fabric.holds.any (fun h => h.slot == x.id && p h.bank && s.now ≤ h.last)
    || s.fabric.accs.any (fun a => a.slot == x.id && p (lnBank a.line))

/-- The transfers booked on banks that `bank` picks or on segments that `seg` picks. -/
def bookedOn (s : State) (bank seg : Nat → Bool) : List Slot :=
  s.fabric.slots.filter (fun x => (x.stage == .granted || x.stage == .planned)
    && (s.fabric.booked.any (fun b => b.slot == x.id && (seg b.seg || (x.bankEnds s).any (fun e => bank (taPkgBank e.1))))
      || holdsStill s x bank))

/-- The registers of a domain lost: they hold their reset values when it comes up (R8, R357). -/
def resetDomainRegs (s : State) (d n : Nat) : State :=
  (regResetIf s d (fun r => r.domain == some n)).onReplicas (fun x => { x with
    unsafeRegs := SMap.eraseIf x.unsafeRegs (fun k => match keyReg s k with
      | some (e, r) => e == d && r.domain == some n
      | none => false) })

/-- The clusters of crossbar group j, and of half h (R24). -/
def groupClusters (n : Nat) : List Nat := (List.range 4).map (fun i => 4 * (n - 40) + i)
def halfClusters (n : Nat) : List Nat := (List.range 8).map (fun i => 8 * (n - 44) + i)

/-- What banks of a domain hold is lost (R367): structures, seal contexts, merge entries, collations, cache mode, valid bits, and
every pass in them (R350, R379). A weeding in phase 1 ends with the domain: WEED_BANK and BANK_RETIRE return STATE (R407), and a command
over several banks waits for the others. -/
def loseBanks (s : State) (d n : Nat) : State :=
  let mine : Nat → Bool := fun b => pbDie b == d && bankDomain (pbBank b) == n
  let s1 := abortMarch s d n
  let s2 := (domainBanks d n).foldl disableBank s1
  let s3 := mergeDiscard (releaseSeals s2 (fun c => mine (foBank c.folio)) true) (fun e => mine (lnBank e.line))
  let s4 := dropCollations s3 (fun f => mine (foBank f))
  let s5 := (domainBanks d n).foldl (fun s b =>
    if isCarrel b && b % 4 == 3 && rf s d (.carrelCtl (carrelCore b)) 16 4 != 0 then endCache s d (carrelCore b) else s) s4
  let weeding := (s.banks.pauses.filter (fun e => mine e.1)).flatMap (fun e =>
    (e.2.kind :: e.2.behind).filterMap (fun k => match k with | .phase1 _ _ c => some (e.1, c.op) | _ => none))
  let s6 := (s5.onFabric (fun f => { f with accs := f.accs.filter (fun a => !mine (lnBank a.line)) })).onBanks (fun k => { k with
    valid := SMap.eraseIf k.valid (fun pl => mine (lnBank pl)),
    pauses := SMap.eraseIf k.pauses mine, zeroing := SMap.eraseIf k.zeroing mine, tags := SMap.eraseIf k.tags mine,
    remapCopies := SMap.eraseIf k.remapCopies (fun i => mine (i / 4)) })
  let named := fun (src : CmdSrc) => src.die == d && weeding.any (fun e => e.1 == taPkgBank (cmdArgF s src 0 0 27 * 64))
  let s7 := completeWhere (completeWhere s6 0x42 named (stWord Code.state)) 0x52 named (stWord Code.state)
  endWeedCmds ((weeding.map (·.2)).eraseDups.foldl lostEnds s7) d

/-- A load of a context that is lost ends with STATE. -/
def endLoad (s : State) (c : CtxId) : State :=
  match (ctxOf s c).loading with
  | some l => completeCmd (dropLoads (ctxMod s c (fun x => { x with loading := none })) c) l.src (stWord Code.state)
  | none => s

/-- A context lost with its hall (R367): its transfers, operations and waits go with it, and it is IDLE. -/
def loseCtx (s : State) (c : CtxId) : State :=
  let s1 := (slotsOf s c).foldl (fun s x => dropSlot (dropBooked s x.id) x.id) (endLoad s c)
  let s2 := freeTiles (releaseSeals (unlist s1 c) (fun k => k.ctx == c.toNat) false) c
  let s3 := (s2.onQueues (fun q => { q with ops := q.ops.filter (fun o => o.issuer != .ctx c) })).onRemote (fun r => { r with
    outStage := r.outStage.filter (fun o => o.ctx != c) })
  let s4 := s3.onStreams (fun t => { t with
    tokens := t.tokens.filter (fun k => match k.kind with | .answer e _ => e != c | _ => true),
    ctxs := SMap.erase t.ctxs c.toNat })
  let s5 := s4.onReplicas (fun r => { r with posts := r.posts.filter (fun p => p.ctx != c) })
  endHalts s5 c Code.state

/-- The contexts of halls are lost; the other contexts of their tasks abort with ACAUSE 11 (R190, R367). -/
def loseHalls (s : State) (d : Nat) (clusters : List Nat) : State :=
  let gone := clusters.flatMap (hallCtxs s d)
  let live := gone.filter (fun e => e.2.st == .armed || e.2.st == .running || e.2.st == .halted)
  let tasks := live.map (fun e => (e.1, e.2.task.toNat, ctxTen s e.1))
  let s1 := gone.foldl (fun s e => loseCtx s e.1) s
  tasks.foldl (fun s t =>
    if (allCtxs s).any (fun e => e.2.task.toNat == t.2.1 && ctxTen s e.1 == t.2.2
        && (e.2.st == .armed || e.2.st == .running || e.2.st == .halted))
    then taskAbort s d t.2.1 t.2.2 t.1.toNat none 11 11 else s) s1

/-- The cores of halls lose their commands and operations there. -/
def loseCoreCmds (s : State) (d : Nat) (clusters : List Nat) : State :=
  let mine : CmdSrc → Bool := fun src => match src with | .core e k => e.toNat == d && clusters.contains (k.toNat / 32) | _ => false
  (s.onSup (fun u => { u with cmds := u.cmds.filter (fun c => !mine c.1) })).onQueues (fun q => { q with
    ops := q.ops.filter (fun o => match o.issuer with | .core e k => !(e.toNat == d && clusters.contains (k.toNat / 32)) | _ => true) })

/-- A crossbar group is lost: contexts, merge entries, the cores' commands. -/
def loseCrossbars (s : State) (d n : Nat) : State :=
  let cl := groupClusters n
  let s1 := mergeDiscard (loseHalls s d cl) (fun e => pbDie (lnBank e.line) == d && cl.contains (pbCluster (lnBank e.line)))
  loseCoreCmds s1 d cl

/-- A folio codec group is lost: collations and open seal contexts of its half (R151, R168). -/
def loseCodec (s : State) (d n : Nat) : State :=
  let mine : Nat → Bool := fun b => pbDie b == d && (halfClusters n).contains (pbCluster b)
  dropCollations (releaseSeals s (fun c => mine (foBank c.folio)) true) (fun f => mine (foBank f))

/-- The generations of a die's catalogue entries once the domain is up again: a VALID entry's has advanced (R358). -/
def catalogueGens (s : State) (d : Nat) : List (Nat × Nat) :=
  s.regs.filterMap (fun k => match keyReg s k.1 with
    | some (e, .catWord n 0) => if e == d then some (n, (catGen s d n + (if catValid s d n then 1 else 0)) % 16) else none
    | _ => none)

/-- Domain 47 is lost: structures and catalogue; generations survive (R231, R358). -/
def loseCatalogue (s : State) (d : Nat) : State :=
  let gens := catalogueGens s d
  let s0 := s.onSup (fun u => { u with
    catUpsets := SMap.eraseIf u.catUpsets (fun k => k / 16384 == d), catCorrected := SMap.erase u.catCorrected d,
    catReported := u.catReported.filter (fun e => e / 4096 != d) })
  let s1 := dropDescriptors (disableDie s0 d) (fun t => t.die == d)
  gens.foldl (fun s g => if g.2 == 0 then s else regSet s d (.catWord g.1 0) (word (put 28 4 g.2))) (resetDomainRegs s1 d 47)

/-- Everything that a domain holds is lost. `lossy` is a forced power-off or a brown-out, which takes the transfers booked in the
domain with it (R355, R367). -/
def powerOff (s : State) (d n : Nat) (lossy : Bool) : State :=
  let none_ : Nat → Bool := fun _ => false
  let bank : Nat → Bool := if n < 40 then (fun b => pbDie b == d && bankDomain (pbBank b) == n) else none_
  let seg : Nat → Bool := if 40 ≤ n && n < 44
    then (fun sg => segDie sg == d && segKind sg < 3 && (groupClusters n).contains (sg / 4096 % 16)) else none_
  let s1 := if lossy then (bookedOn s bank seg).foldl loseTransfer s else s
  let s2 :=
    if n < 40 then loseBanks s1 d n
    else if n < 44 then loseCrossbars s1 d n
    else if n < 46 then loseCodec s1 d n
    else if n == 46 then loseInbound (loseOutbound s1 d (if lossy then Code.brownout else Code.fenced)) d
    else loseCatalogue s1 d
  if n == 47 then s2 else resetDomainRegs s2 d n

/-! ### PWR_DOWN and PWR_UP (R354-R358) -/

/-- The domain that a power command names. -/
def cmdDomain (s : State) (src : CmdSrc) : Nat := cmdArgF s src 0 0 6

/-- LAST of a domain. -/
def domLast (s : State) (d n code : Nat) : State := if n < 48 then regField s d (.pwrDom n) 24 8 code else s

/-- A power command is refused: LAST and the command take the status. -/
def refusePower (s : State) (src : CmdSrc) (code : Nat) : State := endCmd (domLast s src.die (cmdDomain s src) code) src code

/-- A segment is frozen and DRAINED (R112). -/
def drained (s : State) (sg : Nat) : Bool := frozen s sg && inflight s sg == 0

/-- The framed segments of a cluster: every kind but the lanes (R131). -/
def clusterSegs (s : State) (d k : Nat) : List Nat :=
  ((List.range 3072).filter (fun i => segExists s.dies (k * 4096 + i))).map (fun i => d * 65536 + k * 4096 + i)

/-- The listed registers of a die that `p` picks. -/
def someReg (s : State) (d : Nat) (p : Reg → Bool) : Bool :=
  s.regs.any (fun e => match keyReg s e.1 with | some (x, r) => x == d && p r | none => false)

/-- The precondition of PWR_DOWN with FORCE = 0 (R354). -/
def mayPowerDown (s : State) (d n : Nat) : Bool :=
  if n < 40 then
    (domainBanks d n).all (fun b => field (ownOf s b) 19 3 == 0 && ownTen (ownOf s b) == 0 && !inPhase1 s b)
  else if n < 44 then
    (groupClusters n).all (fun k => (clusterSegs s d k).all (drained s)
      && (hallCtxs s d k).all (fun e => e.2.st == .idle && e.2.loading.isNone))
  else if n < 46 then
    (halfClusters n).all (fun k => (List.range 96).all (fun i => drained s (segOf d k 0 (i / 2) (i % 2))))
      && !s.banks.seals.any (fun c => pbDie (foBank c.folio) == d && (halfClusters n).contains (pbCluster (foBank c.folio)))
  else if n == 46 then
    !someReg s d (fun r => match r with
      | .rwinCfg k => rf s d (.rwinCfg k) 23 1 == 1 | .rinCfg k => rinState s d k != 0 | _ => false)
  else (liveEntries s d).isEmpty

/-- A domain is on its way down; its logic is isolated at once. -/
def goDown (s : State) (d n : Nat) (forced : Bool) : State :=
  let s1 := powerOff s d n forced
  let s2 := domSet s1 d n { dom s1 d n with st := .goingDown, low := false, brown := false, returning := none, wakes := 0 }
  regField s2 d (.pwrDom n) 0 1 (if forced then 1 else 0)

/-- The merge entries of a crossbar group flushed before it goes down (R160, R354). -/
def flushGroup (s : State) (d n : Nat) : State :=
  if 40 ≤ n && n < 44 then
    (s.banks.merge.filter (fun e => pbDie (lnBank e.line) == d && (groupClusters n).contains (pbCluster (lnBank e.line)))).foldl
      flushEntry s
  else s

/-- PWR_DOWN with FORCE = 0: its precondition holds, or STATE. -/
def execPwrDown (src : CmdSrc) (s : State) : Host.Outcome State Fault Refusal :=
  cmdAct s src 0x48 (fun s =>
    let d := src.die
    let n := cmdDomain s src
    if cmdArgF s src 0 8 1 == 1 then s
    else if 47 < n then endCmd s src Code.badArg
    else if notZero src then refusePower s src Code.denied
    else if !(domUp s d n && mayPowerDown s d n) then refusePower s src Code.state
    else presentAll (goDown (flushGroup (continueCmd s src) d n) d n false))

/-- PWR_DOWN_COMPLETE: the regulator is OFF; the commands that took the domain down return DONE. -/
def execPwrDownComplete (d : Die) (dom_ : BitVec 6) (s : State) : Host.Outcome State Fault Refusal :=
  let n := dom_.toNat
  act s [d.toNat]
    (if (dom s d.toNat n).st != .goingDown then s
     else
       let s1 := domSet s d.toNat n { dom s d.toNat n with st := .down }
       completeWhere (domLast s1 d.toNat n Code.done) 0x48 (fun src => src.die == d.toNat && cmdDomain s src == n) (stWord Code.done))

/-- PWR_DOWN with FORCE = 1, on the side path: accepted in every STATE but DOWN. A PWR_UP that it overtakes returns STATE (DESIGN
CHOICE, log 32). -/
def execPwrDownForce (src : CmdSrc) (s : State) : Host.Outcome State Fault Refusal :=
  cmdAct s src 0x48 (fun s =>
    let d := src.die
    let n := cmdDomain s src
    if cmdArgF s src 0 8 1 == 0 then s
    else if 47 < n then endCmd s src Code.badArg
    else if notZero src then refusePower s src Code.denied
    else if (dom s d n).st == .down then refusePower s src Code.state
    else
      let s1 := completeWhere s 0x49 (fun c => c.die == d && cmdDomain s c == n) (stWord Code.state)
      presentAll (goDown (continueCmd s1 src) d n true))

/-- PWR_UP. -/
def execPwrUp (src : CmdSrc) (s : State) : Host.Outcome State Fault Refusal :=
  cmdAct s src 0x49 (fun s =>
    let d := src.die
    let n := cmdDomain s src
    if 47 < n then endCmd s src Code.badArg
    else if notZero src then refusePower s src Code.denied
    else if (dom s d n).st != .down then refusePower s src Code.state
    else domSet (continueCmd s src) d n { dom s d n with st := .goingUp })

/-- A bank of a domain that comes up is weeded: its phase 1 ends as the domain reaches UP (R346, R357). A retired bank stays OFF
(R362). -/
def wakeDomainBank (s : State) (b : Nat) : State :=
  if retired s b then setBankPower s b 3 else endPhase1 s b resetOwn (.weed none)

/-- The waves in which start-up phase 4 powers the domains (R419). -/
def bootWaves : List (List Nat) := [(List.range 8).map (· + 40)] ++ (List.range 4).map (fun w => (List.range 10).map (· + 10 * w))

/-- In phase 4 the first wave with a domain that is not UP goes up (R419). -/
def bootWave (s : State) (d : Nat) : State :=
  if (bootOf s d).phase != 4 || (bootOf s d).asserted then s
  else match bootWaves.find? (fun w => !w.all (domUp s d)) with
    | none => s
    | some w => w.foldl (fun s n => if (dom s d n).st == .down then domSet s d n { dom s d n with st := .goingUp } else s) s

/-- PWR_UP_COMPLETE. -/
def execPwrUpComplete (d : Die) (dom_ : BitVec 6) (s : State) : Host.Outcome State Fault Refusal :=
  let n := dom_.toNat
  act s [d.toNat]
    (if (dom s d.toNat n).st != .goingUp then s
     else
       let s1 := domSet s d.toNat n ⟨.up, false, false, none, 0⟩
       let s2 := bootWave (if n < 40 then (domainBanks d.toNat n).foldl wakeDomainBank s1 else s1) d.toNat
       completeWhere (domLast s2 d.toNat n Code.done) 0x49 (fun src => src.die == d.toNat && cmdDomain s src == n) (stWord Code.done))

/-! ### PWR_DOM (R353) -/

/-- Banks of a domain in RET: RETN. Retired banks are OFF (R362). -/
def retBanks (s : State) (d n : Nat) : Nat :=
  if n < 40 && domUp s d n then ((domainBanks d n).filter (fun b => bankPower s b == 2)).length else 0

/-- A write of PWR_DOM_n: BROWN is cleared by 1, LOWOK takes its value on bank domains. -/
def pwrDomWrite (s : State) (d w n : Nat) (v : Word) : State :=
  let r := Reg.pwrDom n
  if 40 ≤ n && bit v 22 then regField s d r 24 8 Code.badArg
  else if w != 0 then regField s d r 24 8 Code.denied
  else
    let s1 := clearByOnes s d r 23 1 (field v 23 1)
    regField (if n < 40 then regField s1 d r 22 1 (field v 22 1) else s1) d r 24 8 Code.done

/-- PWR_DOM_n as the host window of tenancy 0 reads it. -/
def pwrDomRead (s : State) (d n : Nat) : Word :=
  let v := dom s d n
  let reg := if v.st == .up then (if v.low then 1 else 0) else if v.st == .down then 2 else 0
  let st := match v.st with | .up => 0 | .goingDown => 1 | .down => 2 | .goingUp => 3
  let w := regGet s d (.pwrDom n)
  word (put 24 8 (field w 24 8) + put 22 2 (field w 22 2) + put 20 2 reg + put 17 3 st + put 8 9 (retBanks s d n) + field w 0 1)

/-! ### Bank states (R359-R366) -/

/-- A bank goes to sleep under its RETAIN bit; entry to OFF drops its collations (R361, R363). -/
def sleepBank (s : State) (b : Nat) : State :=
  if rf s (pbDie b) (.bankPwr (pbBank b)) 0 1 == 1 then setBankPower s b 2
  else dropCollations (setBankPower s b 3) (fun f => foBank f == b)

/-- A write to BANK_PWR (R359, R364). PIN from 0 to 1 wakes a sleeping bank; RETAIN from 1 to 0 sends a bank in RET to OFF at the
next tick (RET_BANK_ENTER_OFF). -/
def bankPwrWrite (s : State) (b w : Nat) (v : Word) : State :=
  let d := pbDie b
  let r := Reg.bankPwr (pbBank b)
  if w != ownTen (regSeen s d (.bankOwn (pbBank b))) then regField s d r 24 8 Code.denied
  else if retired s b then regField s d r 24 8 Code.fenced
  else
    let pinned := rf s d r 1 1 == 0 && bit v 1
    let s1 := regField (regField s d r 0 2 (field v 0 2)) d r 24 8 Code.done
    if pinned && asleep s b && (pauseOf s b).isNone then startWake s1 b [] else s1

/-- BANK_PWR_WRITE. -/
def execBankPwrWrite (d : Die) (win : Win) (bank : BitVec 13) (val : Word) (s : State) : Host.Outcome State Fault Refusal :=
  act s [d.toNat]
    (if regUp s d.toNat (.bankPwr bank.toNat) then bankPwrWrite s (d.toNat * 8192 + bank.toNat) win.toNat val else s)

/-- The next housekeeping tick at or after cycle c (R361). -/
def tickFrom (c : Nat) : Nat := 4 * ceilDiv c 4

/-- The tick at which a bank's idle count is 0: the first one after its last active cycle. -/
def idleFrom (s : State) (b : Nat) : Nat :=
  match SMap.find s.banks.lastActive b with | some c => 4 * (c / 4) + 4 | none => 0

/-- Nothing makes a bank active now: it is held by no access, no request is presented for it, no pause or pass runs in it
(R361). -/
def bankIdle (s : State) (b : Nat) : Bool :=
  bankQuiet s b && (pauseOf s b).isNone && (marchOf s b).isNone
    && !s.fabric.holds.any (fun h => h.bank == b && s.now ≤ h.last)
    && !s.fabric.slots.any (fun x => x.stage == .waiting && x.presented && (x.bankEnds s).any (fun e => taPkgBank e.1 == b))
    && !s.banks.collations.any (fun c => foBank c.folio == b && (match c.st with | .reading _ => true | _ => false))

/-- BANK_CLOCK_GATE. -/
def execBankClockGate (bank : BankNo) (s : State) : Host.Outcome State Fault Refusal :=
  let b := bank.toNat
  let d := pbDie b
  let gate := rf s d .pwrTimer 0 16
  act s [d]
    (if !domUp s d (bankDomain (pbBank b)) || retired s b || bankPower s b != 0 || gate == 0 || !bankIdle s b then s
     else atBank s b (tickFrom (max s.now (idleFrom s b + 16 * gate))) (fun s => setBankPower s b 1))

/-- The timers do not send a bank to sleep (R362). -/
def keptAwake (s : State) (b : Nat) : Bool :=
  let d := pbDie b
  rf s d (.bankPwr (pbBank b)) 1 1 == 1 || (isExchange b && !(structsOf s b).isEmpty)
    || (isCarrel b && b % 4 == 3 && carrelState s d (carrelCore b) != 0) || hasSealing s b

/-- BANK_SLEEP. -/
def execBankSleep (bank : BankNo) (s : State) : Host.Outcome State Fault Refusal :=
  let b := bank.toNat
  let d := pbDie b
  let sleep := rf s d .pwrTimer 16 8
  act s [d]
    (if !domUp s d (bankDomain (pbBank b)) || retired s b || asleep s b || sleep == 0 || !bankIdle s b || keptAwake s b then s
     else atBank s b (tickFrom (max s.now (idleFrom s b + 4096 * sleep))) (fun s => sleepBank s b))

/-- RET_BANK_ENTER_OFF: the tick after RETAIN is written 0 on a bank in RET (R364). -/
def execRetBankEnterOff (bank : BankNo) (s : State) : Host.Outcome State Fault Refusal :=
  let b := bank.toNat
  act s [pbDie b]
    (if domUp s (pbDie b) (bankDomain (pbBank b)) && bankPower s b == 2 && rf s (pbDie b) (.bankPwr (pbBank b)) 0 1 == 0
        && (pauseOf s b).isNone then
       atBank s b (tickFrom (s.now + 1)) (fun s => dropCollations (setBankPower s b 3) (fun f => foBank f == b))
     else s)

/-- REGULATOR_LOW_ENTRY: at a tick at which LOWOK is 1, every bank sleeps and RETN is at most 40 (R366). -/
def execRegulatorLowEntry (d : Die) (dom_ : BitVec 6) (s : State) : Host.Outcome State Fault Refusal :=
  let n := dom_.toNat
  let v := dom s d.toNat n
  act s [d.toNat]
    (if n < 40 && v.st == .up && !v.low && rf s d.toNat (.pwrDom n) 22 1 == 1 && (domainBanks d.toNat n).all (asleep s)
         && retBanks s d.toNat n ≤ 40 then
       atBank s (d.toNat * 8192) (tickFrom s.now) (fun s => domSet s d.toNat n { v with low := true, returning := none, wakes := 0 })
     else s)

/-! ### Brown-out (R367) -/

/-- Wakes counted as W while a regulator returns from LOW mode (R366). -/
def wakesNow (s : State) (v : Dom) : Nat :=
  match v.returning with | some t => if s.now < t + 16 then v.wakes else 0 | none => 0

/-- Banks of a domain that draw the current of a RET bank: those in RET and those on their way out of it (R365, R367; DEDUCED, log 13:
the fourth of R367's wakes is one too many also where the banks woken were in RET). -/
def drawingBanks (s : State) (d n : Nat) : Nat :=
  retBanks s d n + ((domainBanks d n).filter (fun b => match pauseOf s b with | some ⟨.wake false, _, _⟩ => true | _ => false)).length

/-- A domain can brown out: a bank domain in LOW mode, or returning from it, whose draw can exceed 30 mA; above 105 C the draw of a bank
in RET has no bound (R365, R367). The causes of a brown-out of domains 40-47 lie outside the BTM: it can come at any time (log 13). -/
def mayBrownOut (s : State) (d n : Nat) : Bool :=
  let v := dom s d n
  let draws := v.low || (match v.returning with | some t => decide (s.now < t + 16) | none => false)
  let ret := drawingBanks s d n
  if n < 40 then v.st == .up && draws && (decide (300 < 6 * ret + 20 * wakesNow s v) || (Config.aboveLimit s.draws && 0 < ret))
  else n < 48 && v.st == .up

/-- A scan of a die ends with an outcome, its wrapper is transparent again, and SCAN returns DONE (R316, R393). -/
def endScan (s : State) (d outcome fpat : Nat) : State :=
  match SMap.find s.replicas.scans d with
  | none => s
  | some x =>
    let s1 := regSet s d .scanStat (word (put 29 3 outcome + put 22 6 x.domain + fpat))
    let s2 := setWrapper (s1.onReplicas (fun r => { r with scans := SMap.erase r.scans d })) d x.domain .functional
    endCmd s2 x.src Code.done

/-- A brown-out ends the scan of its domain: OUTCOME 5 (R316). -/
def scanBrownout (s : State) (d n : Nat) : State :=
  match SMap.find s.replicas.scans d with
  | some x => if x.domain == n then endScan s d 5 0 else s
  | none => s

/-- BROWNOUT. -/
def execBrownout (d : Die) (dom_ : BitVec 6) (s : State) : Host.Outcome State Fault Refusal :=
  let n := dom_.toNat
  act s [d.toNat]
    (if mayBrownOut s d.toNat n then
       let retn := retBanks s d.toNat n
       let s1 := domSet s.draw d.toNat n { dom s d.toNat n with st := .down, low := false, brown := true, returning := none, wakes := 0 }
       let s2 := hardSetBit (powerOff s1 d.toNat n true) d.toNat (.pwrDom n) 23
       presentAll (scanBrownout (logEvent s2 d.toNat (ev 0x19 n retn)) d.toNat n)
     else s)

/-! ### Performance levels (R369-R371) -/

/-- Every framed segment of a die: those of its clusters, and the lanes that leave it (R131). -/
def dieSegs (s : State) (d : Nat) : List Nat :=
  (List.range 16).flatMap (clusterSegs s d)
    ++ ((List.range 512).filter (fun i => segExists s.dies (3072 + i))).map (fun i => d * 65536 + 3072 + i)

/-- The dies whose bypass is open. -/
def openDies (s : State) : List Nat := (List.range s.dies).filter (dieOpen s)

/-- The level in force in the package: that of its open dies; where none is open, the die's own. -/
def levelOf (s : State) (d : Nat) : Nat :=
  match openDies s with | e :: _ => rf s e .perfStat 0 2 | [] => rf s d .perfStat 0 2

/-- PERF_SET: the change is sent to every open die (R370). -/
def execPerfSet (src : CmdSrc) (s : State) : Host.Outcome State Fault Refusal :=
  cmdAct s src 0x4A (fun s =>
    let level := cmdArgF s src 0 0 3
    cmdChecked s src [(3 < level, Code.badArg), (notZero src, Code.denied),
        (!s.power.perf.isEmpty || (openDies s).any (fun d => !(dieSegs s d).all (drained s)), Code.state)]
      (fun s =>
        if level == levelOf s src.die || (openDies s).isEmpty then endCmd s src Code.done
        else (continueCmd s src).onPower (fun p => { p with
          perf := (openDies s).foldl (fun m d => SMap.set m d ⟨.pending (s.frame + 4), BitVec.ofNat 2 level, some src, false⟩) p.perf })))

/-- CLK of PERF_STAT set: 0 DERIVED, 1 OSC, 2 RELOCK. -/
def setClk (s : State) (d v : Nat) : State := regField s d .perfStat 29 2 v

/-- The step of a die's level change replaced. -/
def perfStep (s : State) (d : Nat) (p : PerfChange) (step : PerfStep) : State :=
  (setClk s d (match step with | .relock _ => 2 | _ => 1)).onPower (fun q => { q with perf := SMap.set q.perf d { p with step := step } })

/-- The root of a dozing die runs again: the wakes that waited for it start, and every other pause goes on where it stopped (R373). -/
def resumeRoot (s : State) (d : Nat) : State :=
  match SMap.find s.power.stopped d with
  | none => s
  | some t =>
    let mine := s.banks.pauses.filter (fun e => pbDie e.1 == d)
    mine.foldl (fun s e => match e.2.kind with
      | .wake _ => if asleep s e.1 then startWake s e.1 e.2.behind else s
      | _ => setPause s e.1 { e.2 with start := e.2.start + (s.now - max t e.2.start) })
      (s.onPower (fun p => { p with stopped := SMap.erase p.stopped d }))

/-- A change ends on a die (step 4 of R371): its command returns when it has ended on every die. -/
def perfEnd (s : State) (d : Nat) (p : PerfChange) : State :=
  let s0 := resumeRoot s d
  let s1 := regField (regField (setClk s0 d 0) d .perfStat 0 2 p.target.toNat) d .perfStat 31 1 0
  let s2 := s1.onPower (fun q => { q with perf := SMap.erase q.perf d })
  match p.src with
  | some src => if s2.power.perf.any (fun e => e.2.src == some src) then s2 else endCmd s2 src Code.done
  | none => s2

/-- The package's change passes by a die: its command returns when it has ended on every other die (R370). -/
def perfDrop (s : State) (d : Nat) : State :=
  match SMap.find s.power.perf d with
  | none => s
  | some p =>
    let s1 := s.onPower (fun q => { q with perf := SMap.erase q.perf d })
    match p.src with
    | some src => if s1.power.perf.any (fun e => e.2.src == some src) then s1 else endCmd s1 src Code.done
    | none => s1

/-- PERF_CHANGE_START: the start frame has come. A rise ramps the voltage first, a fall relocks first (R371). -/
def execPerfChangeStart (d : Die) (s : State) : Host.Outcome State Fault Refusal :=
  let n := d.toNat
  act s [n]
    (match SMap.find s.power.perf n with
     | some ⟨.pending f, target, src, own⟩ =>
       if s.frame < f || !frameCc0 s then s
       else if !own && !dieOpen s n then perfDrop s n
       else
         let s0 := s.onReplicas (fun r => { r with leftP0 := n :: r.leftP0.filter (· != n) })
         let s1 := regField (regField s0 n .perfStat 31 1 1) n .perfStat 4 2 target.toNat
         let p : PerfChange := ⟨.pending f, target, src, own⟩
         perfStep s1 n p (if target.toNat < rf s n .perfStat 0 2 then .ramp true else .relock true)
     | _ => s)

/-- PERF_RAMP_DONE. -/
def execPerfRampDone (d : Die) (s : State) : Host.Outcome State Fault Refusal :=
  act s [d.toNat]
    (match SMap.find s.power.perf d.toNat with
     | some ⟨.ramp true, t, src, own⟩ => perfStep s d.toNat ⟨.ramp true, t, src, own⟩ (.relock false)
     | some ⟨.ramp false, t, src, own⟩ => perfEnd s d.toNat ⟨.ramp false, t, src, own⟩
     | _ => s)

/-- PERF_RELOCK_DONE. -/
def execPerfRelockDone (d : Die) (s : State) : Host.Outcome State Fault Refusal :=
  act s [d.toNat]
    (match SMap.find s.power.perf d.toNat with
     | some ⟨.relock true, t, src, own⟩ => perfStep s d.toNat ⟨.relock true, t, src, own⟩ (.ramp false)
     | some ⟨.relock false, t, src, own⟩ => perfEnd s d.toNat ⟨.relock false, t, src, own⟩
     | _ => s)

/-! ### DOZE and CLK_SWITCH (R372, R373) -/

/-- An ON bank sleeps: a wake in progress in it is undone; what else pauses it waits for another wake of it. -/
def dozeBank (s : State) (b : Nat) : State :=
  let s1 := sleepBank s b
  match pauseOf s b with
  | none => s1
  | some p =>
    let rest := (match p.kind with | .wake _ => [] | k => [k]) ++ p.behind
    if rest.isEmpty then endPause s1 b else setPause s1 b ⟨.wake (bankPower s1 b == 3), s.now, rest⟩

/-- Every ON bank of a die sleeps, whatever its PIN and whatever runs in it (R372). -/
def dozeBanks (s : State) (d : Nat) : State :=
  (((List.range 40).filter (domUp s d)).flatMap (domainBanks d)).foldl (fun s b =>
    if retired s b || asleep s b then s else dozeBank s b) s

/-- The ready report is withdrawn: the die is HELD, and its open bypass closes at frame cc 0 of the next frame (R28, R372, R429). -/
def withdrawReady (s : State) (d : Nat) : State :=
  bootSet s d (fun b => { b with
    phase := 8, ready := false, listening := false, closing := b.opened, openAt := if b.opened then some (s.frame + 1) else none })

/-- DOZE: the root stops (R372). -/
def execDoze (src : CmdSrc) (s : State) : Host.Outcome State Fault Refusal :=
  cmdAct s src 0x4B (fun s =>
    let d := src.die
    cmdChecked s src [(notZero src, Code.denied),
        (!(List.range 8).all (fun i => (dom s d (40 + i)).st == .down) || changing s d, Code.state)]
      (fun s =>
        let s1 := setClk (withdrawReady (dozeBanks s d) d) d 1
        endCmd (s1.onPower (fun p => { p with stopped := SMap.set p.stopped d s.now })) src Code.done))

/-- CLK_SWITCH: the voltage ramps, then the root relocks at the level named. -/
def execClkSwitch (src : CmdSrc) (s : State) : Host.Outcome State Fault Refusal :=
  cmdAct s src 0x4C (fun s =>
    let d := src.die
    let level := cmdArgF s src 0 0 3
    cmdChecked s src [(3 < level, Code.badArg), (notZero src, Code.denied),
        (rf s d .perfStat 29 2 != 1 || changing s d, Code.state)]
      (fun s =>
        let s0 := (continueCmd s src).onReplicas (fun r => { r with leftP0 := d :: r.leftP0.filter (· != d) })
        let s1 := regField s0 d .perfStat 4 2 level
        perfStep s1 d ⟨.ramp true, BitVec.ofNat 2 level, some src, true⟩ (.ramp true)))

end Sys2Proof.Machine
end

