-- ==== Sys2Proof/Machine/Replicas.lean ====
section
/-! DEFINITION. Digest keys (R296-R298), ballots (R301-R306), held epochs (R307), the self-test of paired units (R312, R313), scans
(R314-R316), hardened registers (R317-R319) and the barometer (R320, R321). -/

namespace Sys2Proof.Machine

open Sys2Proof

/-! ### Digest keys (R297, R298) -/

/-- The tenancy whose range holds a digest-key entry. -/
def djobTen (s : State) (d n : Nat) : Option Nat :=
  (List.range 16).find? (fun t => inRange (field (regGet s d (.djobRange t)) 0 8) (field (regGet s d (.djobRange t)) 16 9) n)

/-- The key words of an entry all 0: K = 0. -/
def djobNoKey (s : State) (d n : Nat) : Bool := (List.range 4).all (fun i => regGet s d (.djobKey n i) == 0)

/-- TASK stands in another enabled entry of the tenancy on the die. -/
def djobTaken (s : State) (d t n task : Nat) : Bool :=
  (enabledRegs s d (fun r => match r with | .djobCfg _ => true | _ => false)).any (fun r => match r with
    | .djobCfg m => m != n && djobTen s d m == some t && rf s d (.djobCfg m) 0 16 == task
    | _ => false)

/-- A write of DJOB_CFG_n; TASK is compared with the other entries of the entry's tenancy (R298). -/
def djobCfgWrite (s : State) (d w n : Nat) (v : Word) : State :=
  let r := Reg.djobCfg n
  let task := field v 0 16
  let taken := match djobTen s d n with | some t => djobTaken s d t n task | none => false
  if bit v 23 && (djobNoKey s d n || task == 0xFFFF || taken) then regField s d r 24 8 Code.badArg
  else if djobTen s d n != some w then regField s d r 24 8 Code.denied
  else
    let s1 := regSet s d r (word (2 ^ 23 * field v 23 1 + task))
    if bit v 23 then s1 else (List.range 4).foldl (fun s i => regReset s d (.djobKey n i)) s1

/-- DJOB_CFG_WRITE. -/
def execDjobCfgWrite (d : Die) (win : Win) (n : BitVec 8) (val : Word) (s : State) : Host.Outcome State Fault Refusal :=
  act s [d.toNat] (djobCfgWrite s d.toNat win.toNat n.toNat val)

/-- A write of a key word (R298). -/
def djobKeyWrite (s : State) (d w n i : Nat) (v : Word) : State :=
  let r := Reg.djobCfg n
  if djobTen s d n != some w then regField s d r 24 8 Code.denied
  else if rf s d r 23 1 == 1 then regField s d r 24 8 Code.state
  else regField (regSet s d (.djobKey n i) v) d r 24 8 Code.done

/-! ### Ballots (R301-R306) -/

/-- BALLOT_CFG of a ballot on a die, and the fields of such a word. -/
def ballotCfg (s : State) (d b : Nat) : Word := regGet s d (.ballotCfg b)
def ballotHome (w : Word) : Nat := field w 19 3
def ballotTen (w : Word) : Nat := field w 12 4
def ballotReps (w : Word) : Nat := field w 16 3 + 1

/-- A ballot that nobody has posted to. -/
def Ballot.empty : Ballot := ⟨[], false, 0, 0, 0, 0, 0, false, 0, false⟩

/-- The ballot at the unit of a die. -/
def ballotOf (s : State) (d b : Nat) : Ballot := SMap.get s.replicas.ballots (ballotKey d b) .empty
def ballotSet (s : State) (d b : Nat) (v : Ballot) : State :=
  s.onReplicas (fun r => { r with ballots := SMap.set r.ballots (ballotKey d b) v })

/-- The unit of a die holds the ballot: its own copy has EN = 1 and names it HOME. -/
def ballotHeld (s : State) (d b : Nat) : Bool := bit (ballotCfg s d b) 23 && ballotHome (ballotCfg s d b) == d

/-- A write of BALLOT_CFG_b: every copy takes it at the second window edge (R301). -/
def ballotCfgWrite (s : State) (d w b : Nat) (v : Word) : State :=
  let r := Reg.ballotCfg b
  let old := copyView s d r
  let code :=
    if bit v 23 && (field v 16 3 == 0 || !s.present (ballotHome v)) then Code.badArg
    else if w != 0 then Code.denied
    else if bit old 23 && field v 0 23 != field old 0 23 then Code.state
    else Code.done
  if code != Code.done then refuseLast s d r code (some (ballotTen old))
  else copyWrite (regField s d r 24 8 Code.done) d r (word (field v 0 24))

/-- BALLOT_CFG_WRITE. -/
def execBallotCfgWrite (d : Die) (win : Win) (b : BitVec 8) (val : Word) (s : State) : Host.Outcome State Fault Refusal :=
  act s [d.toNat] (ballotCfgWrite s d.toNat win.toNat b.toNat val)

/-- The status of a post that the copy of die d judges, for the unit of die `home` (R302). -/
def postStatus (s : State) (d home : Nat) (p : BallotPost) : Nat :=
  let b := p.ballot.toNat
  let w := ballotCfg s d b
  let v := ballotOf s home b
  if isUnsafe s d (.ballotCfg b) then Code.state
  else if ballotReps w ≤ p.replica.toNat then Code.badArg
  else if p.ten.toNat != ballotTen w then Code.denied
  else if !bit w 23 then Code.state
  else if !dieOpen s home || ringShut s (ctxDie p.ctx) home then Code.fenced
  else if v.decided || v.posts.any (fun e => e.1 == p.replica.toNat) then Code.full
  else Code.done

/-- BALLOT_POST_ARRIVE: the post is checked and recorded; its status goes back. For a HOME behind a closed bypass, and where the sender's
own copy is lost, the sending die's copy judges (R319; DEDUCED, log 33). -/
def execBallotPostArrive (post : Nat) (s : State) : Host.Outcome State Fault Refusal :=
  act s []
    (match s.replicas.posts.find? (fun p => p.id == post && !p.done) with
     | none => s
     | some p =>
       let b := p.ballot.toNat
       let here := ctxDie p.ctx
       let home := ballotHome (ballotCfg s here b)
       let code := postStatus s (if ringShut s here home || isUnsafe s here (.ballotCfg b) then here else home) home p
       let v := ballotOf s home b
       let s1 := if code != Code.done then s else
         ballotSet s home b { v with
           posts := v.posts ++ [(p.replica.toNat, p.d, p.ctx)]
           firstPost := if v.posts.isEmpty then s.now else v.firstPost
           stallLogged := if v.posts.isEmpty then false else v.stallLogged }
       s1.onReplicas (fun r => { r with posts := r.posts.map (fun q =>
         if q.id == post then { q with done := true, status := stWord code } else q) }))

/-- BALLOT_POST_STATUS_RECEIVE: the status returns to its context (R302, R225). -/
def execBallotPostStatusReceive (post : Nat) (s : State) : Host.Outcome State Fault Refusal :=
  act s []
    (match s.replicas.posts.find? (fun p => p.id == post && p.done) with
     | none => s
     | some p => ctxOpDone (s.onReplicas (fun r => { r with posts := r.posts.filter (fun q => q.id != post) })) p.ctx p.status 0)

/-- The verdict on a round's posts: 1 AGREE, 2 ODD, 3 SPLIT; with the odd replica's post (R303). -/
def verdictOf (posts : List (Nat × BitVec 128 × CtxId)) : Nat × Option (Nat × BitVec 128 × CtxId) :=
  let agree : List (Nat × BitVec 128 × CtxId) → Bool := fun l => l.all (fun p => l.all (fun q => p.2.1 == q.2.1))
  if agree posts then (1, none)
  else match posts.find? (fun p => let rest := posts.filter (fun q => q.1 != p.1); 2 ≤ rest.length && agree rest) with
    | some p => (2, some p)
    | none => (3, none)

/-- The bitmap POSTED. -/
def ballotPosted (v : Ballot) : Nat := (v.posts.map (fun p => 2 ^ p.1)).foldl (· + ·) 0

/-- The 16 bytes of a verdict (R304). -/
def verdictBytes (v : Ballot) : List Byte :=
  let major := match v.verdict.toNat, v.posts.find? (fun p => v.verdict.toNat == 1 || p.1 != v.odd.toNat) with
    | 3, _ => 0
    | _, some p => p.2.1.toNat % 2 ^ 64
    | _, none => 0
  leBytes 2 v.round.toNat ++ leBytes 1 v.verdict.toNat ++ leBytes 1 v.odd.toNat ++ leBytes 3 v.oddCtx.toNat
    ++ leBytes 1 (ballotPosted v) ++ leBytes 8 major

/-- The next round of a ballot is open. -/
def reopen (v : Ballot) : Ballot := { v with posts := [], decided := false, verdictWaiting := false, stallLogged := false }

/-- The verdict posted to RSLOT: DONE reopens the ballot, FULL is tried again 256 cc later (R304); where port B is taken or does not reach
the bank it waits for that (R87, R233). -/
def postVerdict (s : State) (d b : Nat) : State :=
  let w := ballotCfg s d b
  let v := ballotOf s d b
  let slot := field w 0 12
  let bank := lnBank (rsLine s d slot)
  let writes := field (rsReg s d slot) 16 4 == ballotTen w && bit (rsReg s d slot) 23 && !(rsOf s d slot).ready
  if writes && portBShut s bank then ballotSet (wakeForB s bank) d b { v with verdictWaiting := true, postAt := s.now }
  else if writes && !portBFree s bank s.now then ballotSet s d b { v with verdictWaiting := true, postAt := s.now + 1 }
  else
    let r := rsPost (if writes then usePortB s bank false else s) d slot (ballotTen w) 16 (verdictBytes v)
    if stCode r.2 == Code.done then ballotSet r.1 d b (reopen v)
    else ballotSet r.1 d b { v with verdictWaiting := stCode r.2 == Code.full, postAt := s.now + 256 }

/-- BALLOT_DECIDE: every replica has posted. -/
def execBallotDecide (d : Die) (b : BitVec 8) (s : State) : Host.Outcome State Fault Refusal :=
  let n := d.toNat
  act s [n]
    (let w := ballotCfg s n b.toNat
     let v := ballotOf s n b.toNat
     if !ballotHeld s n b.toNat || v.decided || v.posts.length != ballotReps w then s
     else
       let r := verdictOf v.posts
       let odd := r.2.getD (0, 0, 0)
       let s1 := ballotSet s n b.toNat { v with
         decided := true, verdict := BitVec.ofNat 2 r.1, odd := BitVec.ofNat 3 odd.1, oddCtx := odd.2.2, round := v.round + 1 }
       if bit w 22 then postVerdict s1 n b.toNat else s1)

/-- BALLOT_VERDICT_RETRY: 256 cc after a verdict post that returned FULL. -/
def execBallotVerdictRetry (d : Die) (b : BitVec 8) (s : State) : Host.Outcome State Fault Refusal :=
  let n := d.toNat
  act s [n]
    (let v := ballotOf s n b.toNat
     if ballotHeld s n b.toNat && v.decided && v.verdictWaiting then
       atCycle s (max s.now v.postAt) (fun s => postVerdict s n b.toNat)
     else s)

/-- A write of BALLOT_ODD with REOPEN = 1: on die HOME, by tenancy 0 or TEN (R304, R305). -/
def ballotOddWrite (s : State) (d w b : Nat) : State :=
  let v := ballotOf s d b
  if ballotHeld s d b && (w == 0 || w == ballotTen (ballotCfg s d b)) && v.decided then ballotSet s d b (reopen v) else s

/-- BALLOT_REOPEN. -/
def execBallotReopen (d : Die) (win : Win) (b : BitVec 8) (s : State) : Host.Outcome State Fault Refusal :=
  act s [d.toNat] (ballotOddWrite s d.toNat win.toNat b.toNat)

/-- BALLOT_STALL: a round has held a post for the watchdog time undecided (R306). -/
def execBallotStall (d : Die) (b : BitVec 8) (s : State) : Host.Outcome State Fault Refusal :=
  let n := d.toNat
  act s [n]
    (let v := ballotOf s n b.toNat
     let limit := 256 * max 1 (rf s n .wdogCtl 0 16)
     if !ballotHeld s n b.toNat || v.posts.isEmpty || v.decided || v.stallLogged then s
     else atCycle s (max s.now (v.firstPost + limit)) (fun s =>
       logEvent (ballotSet s n b.toNat { v with stallLogged := true }) n
         { ev 0x12 b.toNat (ballotPosted v) with ten := some (BitVec.ofNat 4 (ballotTen (ballotCfg s n b.toNat))) }))

/-- The dies' package copies are still on their way (R237, R301), or the die has just opened (R428): PEND. -/
def copyPending (s : State) (d : Nat) (mine : Nat → Bool) : Bool :=
  let b := bootOf s d
  s.queues.copies.any (fun c => mine c.code) || (b.opened && !b.master && s.frame < b.openedFrame + 4)

/-- BALLOT_STAT_b and BALLOT_ODD_b as window `w` of a die reads them (R305): on the die that the copy names HOME, with EN 0 too. PEND is
held on every die. -/
def ballotStatRead (s : State) (d w b : Nat) : Word :=
  let v := ballotOf s d b
  let cfg := ballotCfg s d b
  let pend := putB 15 (copyPending s d (· == (Reg.ballotCfg b).code))
  if w != 0 && w != ballotTen cfg then 0
  else if ballotHome cfg == d then
    word (put 16 16 v.round.toNat + pend + putB 13 v.decided + put 11 2 v.verdict.toNat + put 8 3 v.odd.toNat + ballotPosted v)
  else word pend

def ballotOddRead (s : State) (d w b : Nat) : Word :=
  if (w == 0 || w == ballotTen (ballotCfg s d b)) && ballotHome (ballotCfg s d b) == d then word (ballotOf s d b).oddCtx.toNat else 0

/-! ### STEP_HOLD (R307) -/

/-- A write of STEP_HOLD_t: FROM only rises. -/
def stepHoldWrite (s : State) (d w t : Nat) (v : Word) : State :=
  let r := Reg.stepHold t
  let old := field (regSeen s d r) 0 16
  let new := field v 0 16
  if !epochFrom new old then refuseLast s d r Code.badArg (some t)
  else if w != 0 && w != t then refuseLast s d r Code.denied (some t)
  else hardSet s d r (word new)

/-! ### Paired units (R312, R313) -/

/-- Pairs of a kind. -/
def xchkPairs (kind : Nat) : Nat := match kind with | 0 => 16 | 1 => 8 | 2 => 16 | _ => 17

/-- The domain that a pair stands in; none for the ring stop's, which is always on (DEDUCED, log 34). -/
def xchkDomain (kind pair : Nat) : Option Nat :=
  match kind with
  | 0 => some 47 | 1 => some (44 + pair / 4) | 2 => some (40 + pair / 4) | _ => if pair < 16 then some (40 + pair / 4) else none

/-- The seed of the LFSR. -/
def xchkSeed (s : State) (d : Nat) : Nat := pairGet s d .xchkSeed

/-- One step of the LFSR x^64 + x^63 + x^61 + x^60 + 1. -/
def lfsrStep (x : BitVec 64) : BitVec 64 :=
  let b := xor (xor (x.getLsbD 63) (x.getLsbD 62)) (xor (x.getLsbD 60) (x.getLsbD 59))
  (x <<< 1) ||| (if b then 1 else 0)

/-- A check compares a pair: XCHK_RUN counts, the LFSR goes on. -/
def xchkRun (s : State) (d : Nat) : State :=
  let x := SMap.get s.replicas.lfsr d (BitVec.ofNat 64 (xchkSeed s d))
  (dieCount s d 0).onReplicas (fun r => { r with lfsr := SMap.set r.lfsr d (lfsrStep x) })

/-- A mismatch: transient where both repeats match, else persistent. -/
def xchkMismatch (s : State) (d kind pair : Nat) (persistent : Bool) : State :=
  let s1 := regField (regField s d .xchkStat 8 2 kind) d .xchkStat 0 5 pair
  let s2 := hardSetBit s1 d .xchkStat (if persistent then 31 else 30)
  logEvent (dieCount s2 d (if persistent then 2 else 1)) d (ev (if persistent then 0x14 else 0x13) (256 * kind + pair) 0)

/-- Both units of a pair are idle in this cycle (R312): no read-modify-write runs in the banks of the adders' cluster; no collation and no
parity pass in the half of the codec lanes; no access through the merge buffer of the cluster; no granted multicast slot in the cluster of
the replicators. A unit that is needed in the cycle abandons the check. -/
def pairIdle (s : State) (d kind pair : Nat) : Bool :=
  let cluster : Nat → Bool := fun b => pbDie b == d && pbCluster b == pair
  let half : Nat → Bool := fun b => pbDie b == d && pbCluster b / 8 == pair / 4
  match kind with
  | 0 => !s.fabric.locks.any (fun l => cluster (lnBank l.line) && l.first ≤ s.now && s.now ≤ l.first + 2)
  | 1 => !s.banks.collations.any (fun c => half (foBank c.folio) && (match c.st with | .reading _ => true | _ => false))
      && !s.banks.seals.any (fun c => half (foBank c.folio) && c.parity.isSome)
  | 2 => !s.fabric.accs.any (fun a => cluster (lnBank a.line) && a.cycle == s.now && (a.slot == 0 || a.merged))
  | _ => !s.fabric.slots.any (fun x => x.stage == .granted
      && (match x.dst with | .mcast _ _ => true | _ => false) && (x.origin s).die == d && (pair == 16 || (x.origin s).cluster == some pair))

/-- CROSS_CHECK. The outcome is that of the units, whose faults lie outside the state; both get the operands of the LFSR (log 34). -/
def execCrossCheck (d : Die) (kind : BitVec 2) (pair : BitVec 5) (outcome : XchkOutcome) (s : State) :
    Host.Outcome State Fault Refusal :=
  let n := d.toNat
  let k := kind.toNat
  let p := pair.toNat
  act s [n]
    (let up := match xchkDomain k p with | some m => domUp s n m | none => true
     if p < xchkPairs k && rf s n .xchkCtl k 1 == 1 && xchkSeed s n != 0 && up && pairIdle s n k p then
       match outcome with
       | .agree => xchkRun s n
       | .transient => xchkMismatch (xchkRun s n) n k p false
       | .persistent => xchkMismatch (xchkRun s n) n k p true
     else s)

/-! ### Scans (R314-R316) -/

/-- The precondition of SCAN. -/
def mayScan (s : State) (d n : Nat) : Bool :=
  (dom s d n).st == .up &&
  (if n < 40 then (domainBanks d n).all (fun b => field (ownOf s b) 19 3 == 0 && ownTen (ownOf s b) == 0)
   else mayPowerDown s d n
     && (if n < 44 then (groupClusters n).all (fun k => (mergeOfCluster s d k).isEmpty)
         else if n == 47 then (enabledRegs s d isStruct).isEmpty else true))

/-- SCAN: the pattern set is checked (R315); with a good one the patterns are applied from now on, and what the domain held is lost
(R316). -/
def execScan (src : CmdSrc) (s : State) : Host.Outcome State Fault Refusal :=
  cmdAct s src 0x51 (fun s =>
    let d := src.die
    let n := cmdArgF s src 0 0 8
    cmdChecked s src [(47 < n, Code.badArg), (notZero src, Code.denied), (!mayScan s d n, Code.state),
        ((SMap.find s.replicas.scans d).isSome, Code.busy)]
      (fun s =>
        let found := patternCheck s d
        let s1 := regSet (continueCmd s src) d .scanStat (word (2 ^ 28 + put 22 6 n))
        let s2 := if found == 0 then setWrapper (powerOff s1 d n true) d n .scan else s1
        presentAll (s2.onReplicas (fun r => { r with scans := SMap.set r.scans d ⟨n, src, found⟩ }))))

/-- The supervisor powers a scanned domain off and on again: it holds reset values, and its banks are weeded (R316, R357). -/
def powerCycle (s : State) (d n : Nat) : State :=
  if (dom s d n).st != .up then s
  else
    let s2 := domSet s d n ⟨.up, false, false, none, 0⟩
    if n < 40 then (domainBanks d n).foldl wakeDomainBank s2 else s2

/-- The outcome of a scan, where it is one that the scan's patterns allow: the domain comes back as after a power cycle (R316). -/
def scanOver (s : State) (d : Nat) (x : Scan) (outcome : ScanOutcome) : State :=
  match outcome with
  | .pass => if x.found = 0 then presentAll (powerCycle (endScan s d 1 0) d x.domain) else s
  | .fail p => if x.found = 0 then presentAll (powerCycle (endScan s d 2 p.toNat) d x.domain) else s
  | .patternBad => if x.found = 3 then endScan s d 3 0 else s
  | .noFlash => if x.found = 4 then endScan s d 4 0 else s

/-- SCAN_COMPLETE: the last pattern, the first failure, or no usable pattern set, as the check found it. -/
def execScanComplete (d : Die) (outcome : ScanOutcome) (s : State) : Host.Outcome State Fault Refusal :=
  let n := d.toNat
  act s [n]
    (match SMap.find s.replicas.scans n with
     | some x => scanOver s n x outcome
     | none => s)

/-! ### Hardened registers (R317-R319) -/

/-- The hardened register at an offset of a die's supervisor space, where its domain is UP. -/
def hardenedAt (s : State) (d : Nat) (off : Word) : Option Reg :=
  match Reg.decode s.dies 0 off.toNat with
  | some r => if r.hardened && regUp s d r then some r else none
  | none => none

/-- HARDEN_FIX: the voter finds one copy differing, and overwrites it in the next control-clock cycle; a write of the register by the end
of that cycle sets all copies, and the repair is dropped (R318). Every use has the majority value all the while (R317). -/
def execHardenFix (d : Die) (off : Word) (copy : BitVec 2) (s : State) : Host.Outcome State Fault Refusal :=
  let n := d.toNat
  act s [n]
    (match hardenedAt s n off with
     | none => s
     | some r =>
       if isUnsafe s n r || copy == 3 || (SMap.find s.replicas.strays (key n r)).isSome then s
       else s.onReplicas (fun x => { x with strays := SMap.set x.strays (key n r) (copy, 2 * (s.now / 2) + 2) }))

/-- What the function of a lost register does from now on: the table of R319, as the stored value it uses. -/
def loseReg (s : State) (d : Nat) (r : Reg) : State :=
  match r with
  | .bankRemap _ _ => s
  | .catRange _ | .djobRange _ | .routRange _ | .rinRange _ | .ctxRange _ _ => regSet s d r 0
  | .slotResv _ _ => regSet s d r 0
  | .sqCfg _ _ | .cqCfg _ _ | .rsCfg _ | .mcgCfg _ | .pmcgCfg _ =>
    regSet (if bit (regGet s d r) 23 then disableReg s d true r else s) d r 0
  | .mcgMem g _ _ => regSet (if rf s d (.mcgCfg g) 23 1 == 1 then disableReg s d true (.mcgCfg g) else s) d r 0
  | .pmcgMem g _ _ => regSet (if rf s d (.pmcgCfg g) 23 1 == 1 then disableReg s d true (.pmcgCfg g) else s) d r 0
  | .groupCfg _ _ => regSet s d r 0
  | .rwinCfg n => disableRwin s d n
  | .ballotCfg b =>
    let s1 := if ballotHeld s d b then
        structEvent (s.onReplicas (fun x => { x with ballots := SMap.erase x.ballots (ballotKey d b) })) d 6 b (ballotTen (ballotCfg s d b)) 1 0
      else s
    regSet s1 d r 0
  | .rinCfg _ | .rinSrc _ | .rinBuf _ | .rinNote _ => s
  | .guestId n | .guestLim n => regReset (s.onFabric (fun f => { f with guests := SMap.erase f.guests (d * 32 + n) })) d r
  | _ => regReset s d r

/-- HARDEN_LOST: the three copies differ, and the register is unsafe. -/
def execHardenLost (d : Die) (off : Word) (s : State) : Host.Outcome State Fault Refusal :=
  let n := d.toNat
  act s [n]
    (match hardenedAt s n off with
     | none => s
     | some r =>
       if isUnsafe s n r then s
       else
         let s1 := (loseReg s n r).onReplicas (fun x => { x with unsafeRegs := SMap.set x.unsafeRegs (key n r) true, strays := SMap.erase x.strays (key n r) })
         presentAll (logEvent s1 n (ev 0x16 r.code 0)))

/-- HARDEN_STAT: UNSAFE counts the registers now unsafe. -/
def hardenStatRead (s : State) (d : Nat) : Word :=
  word (put 16 16 (rf s d .hardenStat 16 16) + min 255 ((s.replicas.unsafeRegs.filter (fun e => e.1 / 2 ^ 40 == d)).length))

/-! ### The barometer (R320, R321) -/

/-- The number of a day of package time (R436). -/
def dayOf (s : State) : Nat := s.pkgTime.toNat / 86400000000

/-- Enabled remap entries of a domain. -/
def remapCount (s : State) (d n : Nat) : Nat :=
  (s.regs.filter (fun e => match keyReg s e.1 with
    | some (x, .bankRemap b _) => x == d && bankDomain b == n && bit e.2 31
    | _ => false)).length

/-- The histories of a domain. -/
def baroOf (s : State) (d n : Nat) : Baro := SMap.get s.replicas.baro (domKey d n) ⟨[], [], []⟩

/-- One domain's samples of a day: 32 are kept. -/
def sampleDomain (s : State) (d n : Nat) (margin : Option Nat) : State :=
  let b := baroOf s d n
  let day := dayOf s
  let keep : List (Nat × Nat) → Nat → List (Nat × Nat) := fun l v => ((v, day) :: l).take 32
  let errs := SMap.get s.replicas.baroCorr (domKey d n) 0
  let b2 : Baro := ⟨match margin with | some m => keep b.margin m | none => b.margin, keep b.errors errs, keep b.remap (remapCount s d n)⟩
  s.onReplicas (fun r => { r with baro := SMap.set r.baro (domKey d n) b2, baroCorr := SMap.erase r.baroCorr (domKey d n) })

/-- BAROMETER_SAMPLE: once for each day of package time; a margin only on a day that P0 was in force throughout. `margins` are the
margins that the sensors answer, in mV, by domain. -/
def execBarometerSample (d : Die) (margins : List Nat) (s : State) : Host.Outcome State Fault Refusal :=
  let n := d.toNat
  act s [n]
    (if dayOf s ≤ SMap.get s.replicas.sampled n 0 then s
     else
       let p0 := rf s n .perfStat 0 2 == 0 && !s.replicas.leftP0.contains n
       let s1 := (List.range 40).foldl (fun s i => sampleDomain s n i (if p0 then margins[i]? else none)) s
       s1.onReplicas (fun r => { r with
         sampled := SMap.set r.sampled n (dayOf s)
         leftP0 := r.leftP0.filter (· != n) }))

/-- The sums of a least-squares line over samples (value, day): count, numerator and denominator of the slope, sum of values, sum of
days. -/
structure Fit where
  n : Int
  num : Int
  den : Int
  sy : Int
  sx : Int
deriving DecidableEq, Repr

/-- The line fitted to a history. -/
def fitLine (l : List (Nat × Nat)) : Fit :=
  let sum : (Nat × Nat → Int) → Int := fun f => (l.map f).foldl (· + ·) 0
  let n : Int := l.length
  let sx := sum (fun p => p.2)
  let sy := sum (fun p => p.1)
  ⟨n, n * sum (fun p => (p.2 : Int) * p.1) - sx * sy, n * sum (fun p => (p.2 : Int) * p.2) - sx * sx, sy, sx⟩

/-- Days of an estimate: 0 where the limit is reached; none without 8 samples, or where the slope does not approach the limit. `gap` is what
is left to the limit, `over` the slope towards it, as fractions with positive denominators. -/
def estimate (samples : Nat) (gapNum gapDen overNum overDen : Int) : Option Nat :=
  if samples < 8 then none
  else if gapNum ≤ 0 then some 0
  else if overNum ≤ 0 || overDen ≤ 0 || gapDen ≤ 0 then none
  else some ((gapNum * overDen) / (gapDen * overNum)).toNat

/-- The three estimates of a domain: MARGIN, ERRORS, REMAP. -/
def estimates (s : State) (d n : Nat) : List (Option Nat) :=
  let b := baroOf s d n
  let latest : List (Nat × Nat) → Int := fun l => match l with | (v, _) :: _ => v | [] => 0
  let m := fitLine b.margin
  let e := fitLine b.errors
  let r := fitLine b.remap
  let day : Int := match b.errors with | (_, x) :: _ => x | [] => 0
  let fitted := e.sy * e.den + e.num * (e.n * day - e.sx)
  let celim : Int := rf s d .baroCfg 0 16
  let limit : Int := if n < 32 then 384 else 512
  [estimate b.margin.length (latest b.margin - rf s d .baroCfg 16 8) 1 (-m.num) m.den,
   if e.den ≤ 0 then none else estimate b.errors.length (celim * (e.n * e.den) - fitted) (e.n * e.den) e.num e.den,
   estimate b.remap.length (limit - latest b.remap) 1 r.num r.den]

/-- The smallest estimate with the number of its history, the first between equals. -/
def firstOut (l : List (Option Nat)) : Option (Nat × Nat) :=
  (l.zip (List.range l.length)).foldl (fun acc e => match acc, e.1 with
    | none, some v => some (v, e.2 + 1)
    | some a, some v => if v < a.1 then some (v, e.2 + 1) else some a
    | acc, none => acc) none

/-- BARO_n. -/
def baroRead (s : State) (d n : Nat) : Word :=
  let b := baroOf s d n
  let nohist := b.margin.length < 8 && b.errors.length < 8 && b.remap.length < 8
  let out := firstOut (estimates s d n)
  let days := match out with | some p => min p.1 0xFFFE | none => 0xFFFF
  let by_ := match out with | some p => p.2 | none => 0
  let m := match b.margin with | (v, _) :: _ => min v 255 | [] => 0
  word (put 16 16 days + put 14 2 by_ + putB 13 nohist + m)

end Sys2Proof.Machine
end

