-- ==== Sys2Proof/Machine/Security.lean ====
section
/-! DEFINITION. Tenancies (R322-R329), keys (R330-R333), attestation (R334-R336), the life cycle (R337-R340) and tamper response
(R341-R345). -/

namespace Sys2Proof.Machine

open Sys2Proof

/-! ### Keys (R330-R333) -/

/-- Where a transport key stands. -/
def transportIdx (d t : Nat) : Nat := d * 16 + t

/-- The enabled outbound windows, and the inbound windows in a state that `p` picks, that are sealed under key slot k of tenancy t. -/
def sealedOut (s : State) (d t k : Nat) : List Nat :=
  (enabledRegs s d (fun r => match r with | .rwinCfg _ => true | _ => false)).filterMap (fun r => match r with
    | .rwinCfg n => if rf s d (.rwinCfg n) 22 1 == 1 && routTen s d n == some t && rf s d (.rwinExt n) 27 5 == k then some n else none
    | _ => none)
def sealedIn (s : State) (d t k : Nat) (p : Nat → Bool) : List Nat :=
  s.regs.filterMap (fun e => match keyReg s e.1 with
    | some (x, .rinCfg n) =>
      if x == d && p (rinState s d n) && rf s d (.rinCfg n) 17 1 == 1 && rinTen s d n == some t && rf s d (.rinCfg n) 12 5 == k
      then some n else none
    | _ => none)

/-- A key slot erased: its key and counter; sealed windows that name it are disabled or closed (R333). -/
def eraseSlot (s : State) (d t k : Nat) : State :=
  let i := keyIdx d t k
  let s1 := s.onSecurity (fun x => { x with keySlots := SMap.erase x.keySlots i })
  let s2 := regField (s1.onRemote (fun r => { r with counters := SMap.erase r.counters i })) d (.keyStat t) k 1 0
  let s3 := (sealedOut s d t k).foldl (fun s n => disableRwin s d n) s2
  (sealedIn s d t k (· == 1)).foldl (fun s n => closeRin s d n) s3

/-- The transport key of a tenancy erased. -/
def eraseTransport (s : State) (d t : Nat) : State :=
  regField (s.onSecurity (fun x => { x with transport := SMap.erase x.transport (transportIdx d t) })) d (.tenStat t) 29 1 0

/-- The digest-key entries of a die that `p` picks erased. -/
def eraseDjobs (s : State) (d : Nat) (p : Nat → Bool) : State :=
  regResetIf s d (fun r => match r with | .djobCfg n => p n | .djobKey n _ => p n | _ => false)

/-- The key slots, transport key and digest-key entries of a tenancy erased (R329). -/
def eraseTenancy (s : State) (d t : Nat) : State :=
  let s1 := (List.range 32).foldl (fun s k => eraseSlot s d t k) s
  eraseDjobs (eraseTransport s1 d t) d (fun n => djobTen s d n == some t)

/-- Every key of a die erased (R333). -/
def eraseAll (s : State) (d : Nat) : State :=
  let loaded := (s.security.keySlots.map (·.1)).filter (fun i => i / 512 == d)
  let s1 := loaded.foldl (fun s i => eraseSlot s d (i / 32 % 16) (i % 32)) s
  eraseDjobs ((List.range 16).foldl (fun s t => eraseTransport s d t) s1) d (fun _ => true)

/-- Bytes of the argument words n to n + k - 1. -/
def argBytes (s : State) (src : CmdSrc) (n k : Nat) : List Byte := (List.range k).flatMap (fun i => leBytes 4 (cmdArg s src (n + i)).toNat)

/-- KEY_LOAD. -/
def execKeyLoad (src : CmdSrc) (s : State) : Host.Outcome State Fault Refusal :=
  cmdAct s src 0x32 (fun s =>
    let d := src.die
    let t := cmdTen s src
    let k := cmdArgF s src 0 0 5
    let kek := SMap.find s.security.transport (transportIdx d t)
    cmdChecked s src [(src.win.isNone, Code.denied),
        (kek.isNone || !(sealedOut s d t k).isEmpty || !(sealedIn s d t k (· != 0)).isEmpty, Code.state)]
      (fun s =>
        match kek.bind (fun kek => kwUnwrap kek (argBytes s src 1 12)) with
        | none => completeCmd s src (stWord Code.sealFail 1)
        | some p =>
          let loads := rf s d (.tenStat t) 0 16
          if (p.getD 32 0).toNat != k || leNat ((p.drop 36).take 4) != loads + 1 || (p.take 32).all (· == 0) then
            completeCmd s src (stWord Code.sealFail 2)
          else
            let s1 := s.onSecurity (fun x => { x with keySlots := SMap.set x.keySlots (keyIdx d t k) (BitVec.ofNat 256 (leNat (p.take 32))) })
            let s2 := s1.onRemote (fun r => { r with counters := SMap.erase r.counters (keyIdx d t k) })
            endCmd (regField (regField s2 d (.keyStat t) k 1 1) d (.tenStat t) 0 16 (loads + 1)) src Code.done))

/-- KEY_ERASE: the named slot, or all. -/
def execKeyErase (src : CmdSrc) (s : State) : Host.Outcome State Fault Refusal :=
  cmdAct s src 0x33 (fun s =>
    let t := cmdTen s src
    let slots := if cmdArgF s src 0 5 1 == 1 then List.range 32 else [cmdArgF s src 0 0 5]
    cmdChecked s src [(src.win.isNone, Code.denied)]
      (fun s => endCmd (slots.foldl (fun s k => eraseSlot s src.die t k) s) src Code.done))

/-! ### Attestation (R331, R334-R336) -/

/-- Bytes 48n to 48n + 47 of the measurements. -/
def measBytes (s : State) (d n : Nat) : List Byte := (List.range 12).flatMap (fun i => leBytes 4 (regGet s d (.meas n i)).toNat)

/-- Report bytes 0-455 (R336). -/
def reportBody (s : State) (d t : Nat) (nonce epub : List Byte) : List Byte :=
  leBytes 2 1 ++ [BitVec.ofNat 8 d, BitVec.ofNat 8 (lifeCycle s d)] ++ leBytes 2 (nodeOf s d)
    ++ [BitVec.ofNat 8 t, BitVec.ofNat 8 (rf s d .secPolicy 0 8)]
    ++ leBytes 4 (regGet s d (.dieSerial false)).toNat ++ leBytes 4 (regGet s d (.dieSerial true)).toNat
    ++ nonce ++ (List.range 6).flatMap (measBytes s d) ++ epub
    ++ [BitVec.ofNat 8 (rf s d .secAlarm 8 8)] ++ List.replicate 7 0

/-- ATTEST: the report on the REPLY page; a TPUB that is not all zeros establishes a transport key (R331). -/
def execAttest (src : CmdSrc) (s : State) : Host.Outcome State Fault Refusal :=
  cmdAct s src 0x34 (fun s =>
    let d := src.die
    let t := cmdTen s src
    let page := cmdInput s src 144
    let nonce := page.take 48
    let tpub := page.drop 48
    let exchange := !tpub.all (· == 0)
    cmdChecked s src [(exchange && !isPoint tpub, Code.badArg), (src.win.isNone, Code.denied),
        (tenState s d t != 1 || lifeCycle s d == 3, Code.state)]
      (fun s =>
        let epub := if exchange then fit 96 (ephemeralPub s.draws) else List.replicate 96 0
        let body := reportBody s d t nonce epub
        let report := body ++ fit 96 (deviceSign (BitVec.ofNat 3 d) (s.draws + 1) body)
        let s1 :=
          if exchange then
            let kek := hkdf (ecdhX s.draws tpub) nonce (body.take 16)
            let k1 := s.onSecurity (fun x => { x with transport := SMap.set x.transport (transportIdx d t) kek })
            regField (regField k1 d (.tenStat t) 29 1 1) d (.tenStat t) 0 16 0
          else s
        endCmd (pageWrite s1.draw.draw d t 1 0 report) src Code.done))

/-- The certificate chain of a die (R334). -/
def chainOf (s : State) (d : Nat) : List Byte := SMap.get s.security.certChain d []

/-- CERT_READ: 256 bytes of the chain, its length in DETAIL. -/
def execCertRead (src : CmdSrc) (s : State) : Host.Outcome State Fault Refusal :=
  cmdAct s src 0x35 (fun s =>
    let d := src.die
    let off := cmdArgF s src 0 0 16
    let chain := chainOf s d
    cmdChecked s src [(chain.length ≤ off, Code.badArg), (src.win.isNone, Code.denied), (s.security.certBad.contains d, Code.state)]
      (fun s => completeCmd (pageWrite s d (cmdTen s src) 1 0 (fit 256 ((chain.drop off).take 256))) src
        (stWord Code.done chain.length)))

/-- The chain checked against its fused digest at a die reset (R334); a die whose fuses list none passes. -/
def checkChain (s : State) (d : Nat) : State :=
  let ok := match SMap.find s.security.certDigest d with
    | none => true
    | some g => sha384 (chainOf s d) == g
  let rest := s.security.certBad.filter (· != d)
  if ok then s.onSecurity (fun x => { x with certBad := rest })
  else logEvent (s.onSecurity (fun x => { x with certBad := d :: rest })) d (ev 0x17 0 0)

/-! ### TEN_OPEN and TEN_CLOSE (R328, R329) -/

/-- TEN_OPEN. -/
def execTenOpen (src : CmdSrc) (s : State) : Host.Outcome State Fault Refusal :=
  cmdAct s src 0x30 (fun s =>
    let d := src.die
    let t := cmdArgF s src 0 0 4
    cmdChecked s src [(t == 0, Code.badArg), (notZero src, Code.denied), (lifeCycle s d != 2 || tenState s d t != 0, Code.state)]
      (fun s => endCmd (regField s d (.tenStat t) 30 2 1) src Code.done))

/-- Step 1: every task of the tenancy with a live context on the die is aborted with ACAUSE 1. -/
def closeTasks (s : State) (d t : Nat) : State :=
  ((allCtxs s).filter (fun e => ctxDie e.1 == d && ctxTen s e.1 == t)).foldl (fun s e =>
    let x := ctxOf s e.1
    if x.st == .armed || x.st == .running || x.st == .halted then ctxAbort s e.1 1 else s) s

/-- Step 2: outbound windows disabled, inbound windows closed. -/
def closeWindows (s : State) (d t : Nat) : State :=
  let outs := (enabledRegs s d (fun r => match r with | .rwinCfg n => routTen s d n == some t | _ => false))
  let ins := s.regs.filterMap (fun e => match keyReg s e.1 with
    | some (x, .rinCfg n) => if x == d && rinState s d n == 1 && rinTen s d n == some t then some n else none
    | _ => none)
  ins.foldl (fun s n => closeRin s d n) (outs.foldl (fun s r => match r with | .rwinCfg n => disableRwin s d n | _ => s) s)

/-- Step 3: structures, groups, ballots with HOME on the die, and barriers disabled. -/
def closeStructs (s : State) (d t : Nat) : State :=
  let s1 := ((enabledRegs s d isStruct).filter (fun r => structTen r (regGet s d r) == t)).foldl (fun s r => disableReg s d true r) s
  let ballots := enabledRegs s d (fun r => match r with
    | .ballotCfg b => ballotHome (ballotCfg s d b) == d && ballotTen (ballotCfg s d b) == t
    | _ => false)
  let s2 := ballots.foldl (fun s r => match r with
    | .ballotCfg b => structEvent (regField (s.onReplicas (fun x => { x with ballots := SMap.erase x.ballots (ballotKey d b) })) d (.ballotCfg b) 23 1 0) d 6 b t 1 0
    | _ => s) s1
  s.regs.foldl (fun z e => match keyReg s e.1 with
    | some (x, .barrierCfg b) =>
      if x == d && bit e.2 31 && field e.2 16 4 == t then
        (regField z d (.barrierCfg b) 31 1 0).onStreams (fun q => { q with
          barrierCount := SMap.erase q.barrierCount (barrierKey d b), barrierRoot := SMap.erase q.barrierRoot (barrierKey d b) })
      else z
    | _ => z) s2

/-- Steps 6 and 7: the tenancy's cores leave cache mode, and its tags become 0. -/
def closeTags (s : State) (d t : Nat) : State :=
  s.regs.foldl (fun z e => match keyReg s e.1 with
    | some (x, .coreTen c) => if x == d && field e.2 0 4 == t then hardChange (endCache z d c) d (.coreTen c) 0 else z
    | some (x, .stewTen c) => if x == d && field e.2 0 4 == t then hardChange z d (.stewTen c) 0 else z
    | _ => z) s

/-- The banks of a die whose TEN is a tenancy other than 0. -/
def banksOfTen (s : State) (d t : Nat) : List Nat :=
  s.regs.filterMap (fun e => match keyReg s e.1 with
    | some (x, .bankOwn b) => if x == d && ownTen e.2 == t then some (d * 8192 + b) else none
    | _ => none)

/-- Steps 2-7, and of step 8 the entries of other tenancies that cover the tenancy's banks. -/
def closeObjects (s : State) (d t : Nat) : State :=
  let s1 := closeStructs (closeWindows s d t) d t
  let s2 := ((catRangeOf s1 d t).filter (catValid s1 d)).foldl (fun s e => freeEntry s d e) s1
  let s3 := closeTags (eraseTenancy s2 d t) d t
  (banksOfTen s3 d t).foldl (fun s b => freeEntriesOf s b 3 (fun _ => true)) s3

/-- The last part of step 8: a bank is handed over to its reset ownership. -/
def closeBank (t : Nat) (s : State) (b : Nat) : State :=
  let d := pbDie b
  let s1 := hardChange (s.onBanks (fun k => { k with tags := SMap.set k.tags b (ownOf s b) })) d (.bankOwn (pbBank b)) resetOwn
  startWeed (disableBank s1 b) b resetOwn (.handover (some (.close (BitVec.ofNat 3 d) (BitVec.ofNat 4 t))))

/-- How far a TEN_CLOSE has come: 0 step 1 runs, 1 step 8 waits for earlier clears, 2 the hand-overs run. -/
def closeStep (s : State) (d t : Nat) : Nat := SMap.get s.security.closing (d * 16 + t) 0
def setCloseStep (s : State) (d t n : Nat) : State := s.onSecurity (fun x => { x with closing := SMap.set x.closing (d * 16 + t) n })

/-- Phase 1 of a bank that is being taken from a tenancy. -/
def closingBank (s : State) (d t : Nat) : Bool := (clearing s d).any (fun b => ownTen (ownOf s b) == t)

/-- A TEN_CLOSE goes on as far as it can (R329). -/
def closeGoOn (s : State) (src : CmdSrc) (t : Nat) : State :=
  let d := src.die
  let s1 :=
    if closeStep s d t == 0 && !s.streams.aborts.any (fun a => a.ten.toNat == t) then setCloseStep (closeObjects s d t) d t 1 else s
  let s2 :=
    if closeStep s1 d t == 1 && !(banksOfTen s1 d t).any (inPhase1 s1) then
      setCloseStep ((banksOfTen s1 d t).foldl (closeBank t) s1) d t 2
    else s1
  if closeStep s2 d t == 2 && !closingBank s2 d t then
    endCmd (regField (s2.onSecurity (fun x => { x with closing := SMap.erase x.closing (d * 16 + t) })) d (.tenStat t) 30 2 0) src Code.done
  else s2

/-- TEN_CLOSE: the tenancy is CLOSING and step 1 begins; the steps that need not wait follow at once. -/
def execTenClose (src : CmdSrc) (s : State) : Host.Outcome State Fault Refusal :=
  cmdAct s src 0x31 (fun s =>
    let d := src.die
    let t := cmdArgF s src 0 0 4
    cmdChecked s src [(t == 0, Code.badArg), (notZero src, Code.denied), (lifeCycle s d != 2 || tenState s d t != 1, Code.state)]
      (fun s =>
        let s1 := setCloseStep (regField (continueCmd s src) d (.tenStat t) 30 2 2) d t 0
        presentAll (closeGoOn (closeTasks s1 d t) src t)))

/-- TEN_CLOSE_DONE: what the close waited for has ended; with the last clear the tenancy is FREE. -/
def execTenCloseDone (src : CmdSrc) (s : State) : Host.Outcome State Fault Refusal :=
  act s [src.die]
    (if cmdOngoing s src && cmdOpcode s src == 0x31 then presentAll (closeGoOn s src (cmdArgF s src 0 0 4)) else s)

/-! ### Life cycle (R337-R340) -/

/-- Update state of a die (R435). -/
def fwState (s : State) (d : Nat) : Nat := rf s d .fwStat 28 4

/-- A firmware activation is scheduled on some die (R338, R440). -/
def fwScheduled (s : State) : Bool := (List.range s.dies).any (fun d => fwState s d == 5 || fwState s d == 6)

/-- A context of the die is ARMED, RUNNING or HALTED. -/
def liveCtx (s : State) (d : Nat) : Bool :=
  (allCtxs s).any (fun e => ctxDie e.1 == d && (e.2.st == .armed || e.2.st == .running || e.2.st == .halted))

/-- Every tenancy 1-15 is FREE on a die. -/
def tenanciesFree (s : State) (d : Nat) : Bool := (List.range 15).all (fun i => tenState s d (i + 1) == 0)

/-- A transition that `ok` allows begins: keys go, every bank is weeded, and the fuses are to be programmed (R338, R339). -/
def lcStart (s : State) (src : CmdSrc) (bad ok : Bool) (target : BitVec 2) : State :=
  let d := src.die
  cmdChecked s src [(bad, Code.badArg), (notZero src, Code.denied), (!ok || liveCtx s d || fwScheduled s, Code.state)]
    (fun s => presentAll (weedDie (eraseAll ((continueCmd s src).onSecurity (fun x => { x with
      lcBusy := SMap.set x.lcBusy d (target, src) })) d) d))

/-- LC_PROVISION. -/
def execLcProvision (src : CmdSrc) (s : State) : Host.Outcome State Fault Refusal :=
  cmdAct s src 0x38 (fun s =>
    lcStart s src ((List.range 4).any (fun i => rf s src.die .secPolicy (2 * i) 2 == 3)) (lifeCycle s src.die == 0) 1)

/-- LC_DEPLOY. -/
def execLcDeploy (src : CmdSrc) (s : State) : Host.Outcome State Fault Refusal :=
  cmdAct s src 0x39 (fun s => lcStart s src false (lifeCycle s src.die == 1) 2)

/-- LC_MAINTAIN. -/
def execLcMaintain (src : CmdSrc) (s : State) : Host.Outcome State Fault Refusal :=
  cmdAct s src 0x3A (fun s => lcStart s src false
    (lifeCycle s src.die == 2 && tenanciesFree s src.die && rf s src.die .lcStat 4 4 < 8) 1)

/-- LC_RETURN. -/
def execLcReturn (src : CmdSrc) (s : State) : Host.Outcome State Fault Refusal :=
  cmdAct s src 0x3B (fun s => lcStart s src false
    ((lifeCycle s src.die == 1 || lifeCycle s src.die == 2) && tenanciesFree s src.die) 3)

/-- LC_FUSE_PROGRAM_DONE: the clears have ended and the new state's fuses are programmed. -/
def execLcFuseProgramDone (d : Die) (s : State) : Host.Outcome State Fault Refusal :=
  let n := d.toNat
  act s [n]
    (match SMap.find s.security.lcBusy n with
     | none => s
     | some (target, src) =>
       if !(clearing s n).isEmpty then s
       else
         let maint := if lifeCycle s n == 2 && target == 1 then rf s n .lcStat 4 4 + 1 else rf s n .lcStat 4 4
         let s1 := regSet s n .lcStat (word (put 4 4 maint + target.toNat))
         endCmd (s1.onSecurity (fun x => { x with lcBusy := SMap.erase x.lcBusy n })) src Code.done)

/-! ### Tamper response (R341-R345) -/

/-- The action of a source under SEC_POLICY: 0 LOG, 1 ERASE, 2 ERASE_WEED (R342). -/
def policyAction (s : State) (d source : Nat) : Nat := rf s d .secPolicy (2 * source) 2

/-- An action applied on a die (R343). Before phase 4 of a start-up ends none follows (R431). -/
def alarmAction (s : State) (d action : Nat) : State :=
  if (bootOf s d).asserted || (bootOf s d).phase ≤ 4 then s
  else if action == 1 then eraseAll s d
  else if action == 2 then presentAll (weedDie (eraseAll s d) d)
  else s

/-- The alarm is raised on a die, by source `src` (a bit, or 4 for ALARM): SEC_ALARM, the event, the interrupt. -/
def noteAlarm (s : State) (d source action origin : Nat) (ring : Bool) : State :=
  let r := Reg.secAlarm
  let s1 := regField (regField s d r 8 8 (min 255 (rf s d r 8 8 + 1))) d r 26 2 action
  let s2 := regField (if ring then regField s1 d r 29 3 origin else s1) d r 28 1 (if ring then 1 else 0)
  setIrq (logEvent s2 d (ev 0x18 source (action + 4 * origin + (if ring then 32 else 0)))) d 0 4

/-- An ERASE or ERASE_WEED action sent to every other open die (R343). -/
def spreadAlarm (s : State) (d source action : Nat) : State :=
  if (action == 1 || action == 2) && dieOpen s d then
    s.onSecurity (fun x => { x with alarms := x.alarms ++ ((openDies s).filter (· != d)).map (fun e => ⟨e, d, action, source⟩) })
  else s

/-- TAMPER_RAISE: a source that is live already raises nothing. -/
def execTamperRaise (d : Die) (source : BitVec 2) (s : State) : Host.Outcome State Fault Refusal :=
  let n := d.toNat
  let k := source.toNat
  act s [n]
    (if rf s n .secAlarm (16 + k) 1 == 1 then s
     else
       let action := policyAction s n k
       let s1 := hardSetBit (regField s n .secAlarm (16 + k) 1 1) n .secAlarm k
       let s2 := alarmAction (noteAlarm s1 n k action n false) n action
       if rf s n .secPolicy 8 1 == 1 then spreadAlarm s2 n k action else s2)

/-- TAMPER_END. -/
def execTamperEnd (d : Die) (source : BitVec 2) (s : State) : Host.Outcome State Fault Refusal :=
  act s [d.toNat] (regField s d.toNat .secAlarm (16 + source.toNat) 1 0)

/-- ALARM, in a side slot: DONE when the keys are erased, and for ERASE_WEED when the clears have ended. -/
def execAlarm (src : CmdSrc) (s : State) : Host.Outcome State Fault Refusal :=
  cmdAct s src 0x40 (fun s =>
    let d := src.die
    let action := cmdArgF s src 0 0 2
    cmdChecked s src [(action == 3, Code.badArg), (notZero src, Code.denied)] (fun s =>
      let s1 := noteAlarm (hardSetBit s d .secAlarm 4) d 4 action d false
      let s2 := alarmAction (continueCmd s1 src) d action
      let s3 := if cmdArgF s src 0 2 1 == 1 then spreadAlarm s2 d 4 action else s2
      if action == 2 then endWeedCmds s3 d else endCmd s3 src Code.done))

/-- ALARM_RING_RECEIVE: an action that was sent arrives; it is applied whatever the die's own policy. -/
def execAlarmRingReceive (d origin : Die) (action : BitVec 2) (s : State) : Host.Outcome State Fault Refusal :=
  let n := d.toNat
  act s [n]
    (match s.security.alarms.find? (fun w => w.receiver == n && w.origin == origin.toNat && w.action == action.toNat) with
     | none => s
     | some w =>
       let s1 := s.onSecurity (fun x => { x with alarms := x.alarms.erase w })
       if dieOpen s n then alarmAction (noteAlarm s1 n w.source w.action w.origin true) n w.action else s1)

end Sys2Proof.Machine
end

