-- ==== Sys2Proof/Machine/Boot.lean ====
section
/-! DEFINITION. Die reset (R416-R418, R430), the start-up sequence (R419-R423, R385, R386), and the opening and closing of the bypass
(R424-R431, R442). -/

namespace Sys2Proof.Machine

open Sys2Proof

/-! ### What a die reset takes with it (R417, R418, R430) -/

/-- The contexts of a die that are ARMED, RUNNING or HALTED, as task, tenancy and context. -/
def lostTasks (s : State) (d : Nat) : List (Nat × Nat × Nat) :=
  ((allCtxs s).filter (fun e => ctxDie e.1 == d && (e.2.st == .armed || e.2.st == .running || e.2.st == .halted))).map
    (fun e => (e.2.task.toNat, ctxTen s e.1, e.1.toNat))

/-- The other dies' contexts of a lost task abort with ACAUSE 11 (R190, R417). -/
def abortLost (s : State) (d : Nat) (t : Nat × Nat × Nat) : State :=
  let mates := (allCtxs s).filter (fun e => ctxDie e.1 != d && e.2.task.toNat == t.1 && ctxTen s e.1 == t.2.1
    && (e.2.st == .armed || e.2.st == .running || e.2.st == .halted))
  match (sortBy (fun a b => a ≤ b) (mates.map (fun e => ctxDie e.1))).head? with
  | some e => taskAbort s e t.1 t.2.1 t.2.2 none 11 11
  | none => s

/-- The cycle in which a slot that a ring plan has granted is to be granted (R99). -/
def plannedCycle (s : State) (x : Slot) : Nat :=
  let ps := (s.fabric.booked.filter (fun b => b.slot == x.id)).map (·.pos)
    ++ ((s.fabric.plan.granted.getD []).filter (fun a => a.slot == x.id)).map (·.pos)
  match sortBy (fun a b => a ≤ b) ps with | p :: _ => max s.now (2 * p - 4) | [] => s.now

/-- A transfer of another die with an end on the die that closes: one already booked is delivered at its figure with FENCED, moving no
data (R430); one that waits for a descriptor or for memory goes to the collection, which refuses it. -/
def fenceTransfer (s : State) (x : Slot) : State :=
  let fenced := fun (due : Nat) => slotMod (dropAccs s x.id) x.id (fun y => { y with
    stage := .granted, status := stWord Code.fenced, data := [], presented := false, reserved := [], reads := [], due := due })
  match x.stage with
  | .granted | .storeWrite => fenced (max s.now x.due)
  | .planned => fenced (plannedCycle s x + x.figure s false)
  | .translate | .storeRead => slotMod s x.id (fun y => { y with stage := .waiting, presented := false, reserved := [] })
  | _ => s

/-- The transfers of a die's own masters are lost; those of other dies that end on it are fenced; its positions are free. -/
def resetTransfers (s : State) (d : Nat) : State :=
  let own := s.fabric.slots.filter (fun x => x.ident / 4096 == d)
  let s1 := own.foldl (fun s x => dropSlot (dropBooked s x.id) x.id) s
  let far := s1.fabric.slots.filter (fun x => (x.diesOf s).contains d)
  let s2 := far.foldl fenceTransfer s1
  s2.onFabric (fun f => { f with booked := f.booked.filter (fun b => segDie b.seg != d) })

/-- The die of a key of `decided`: the die itself, or one of its core ports. -/
def decidedDie (k : Nat) : Nat := if k < 64 then k else (k - 64) / 512

/-- The die's part of the arbiters: holds, array cycles, orders, tenures, budgets, guests, counters, squalls. -/
def resetFabric (s : State) (d : Nat) : State :=
  s.onFabric (fun f => { f with
    holds := f.holds.filter (fun h => pbDie h.bank != d),
    accs := f.accs.filter (fun a => pbDie (lnBank a.line) != d),
    planResv := f.planResv.filter (fun q => segDie q.seg != d),
    rotation := SMap.eraseIf f.rotation (fun k => k / 262144 == d),
    tenures := SMap.eraseIf f.tenures (fun k => k / 262144 == d),
    budgets := SMap.eraseIf f.budgets (fun k => k / 4096 == d),
    usedNext := SMap.eraseIf f.usedNext (fun k => k / 4096 == d),
    usedIn := SMap.eraseIf f.usedIn (fun k => k / 4096 == d),
    guests := SMap.eraseIf f.guests (fun k => k / 32 == d),
    guestPending := f.guestPending.filter (fun g => g.key / 32 != d),
    guestCount := SMap.eraseIf f.guestCount (fun k => k / 32 == d),
    guestNext := SMap.eraseIf f.guestNext (fun k => k / 32 == d),
    wdogFenced := f.wdogFenced.filter (fun i => i / 4096 != d),
    squalls := SMap.erase f.squalls d,
    squallSeen := SMap.eraseIf f.squallSeen (fun k => segDie (k / 2) == d),
    squallNow := SMap.erase f.squallNow d,
    counters := SMap.eraseIf f.counters (fun k => k / 2 ^ 40 == d),
    snaps := SMap.eraseIf f.snaps (fun k => k / 2 ^ 40 == d),
    decided := SMap.eraseIf f.decided (fun k => decidedDie k == d),
    snapWanted := f.snapWanted.filter (· != d),
    clearWanted := f.clearWanted.filter (· != d),
    locks := f.locks.filter (fun l => pbDie (lnBank l.line) != d) })

/-- The die's banks: what they held is gone. -/
def resetBanks (s : State) (d : Nat) : State :=
  let bank : Nat → Bool := fun b => pbDie b == d
  let line : Nat → Bool := fun l => bank (lnBank l)
  let folio : Nat → Bool := fun f => bank (foBank f)
  s.onBanks (fun k => { k with
    valid := SMap.eraseIf k.valid line,
    classMap := SMap.eraseIf k.classMap folio,
    sealMap := SMap.eraseIf k.sealMap folio,
    tags := SMap.eraseIf k.tags bank,
    pauses := SMap.eraseIf k.pauses bank,
    zeroing := SMap.eraseIf k.zeroing bank,
    folioClears := k.folioClears.filter (fun c => !folio c.folio),
    remapCopies := SMap.eraseIf k.remapCopies (fun i => bank (i / 4)),
    rawOps := SMap.erase k.rawOps d,
    lastActive := SMap.eraseIf k.lastActive bank,
    merge := k.merge.filter (fun e => !line e.line),
    collations := k.collations.filter (fun c => !folio c.folio),
    seals := k.seals.filter (fun c => !folio c.folio),
    lost := k.lost.filter (fun l => l.cluster / 16 != d),
    cacheWays := SMap.eraseIf k.cacheWays (fun b => b / 512 / 512 == d),
    cacheLru := SMap.eraseIf k.cacheLru (fun b => b * 8 / 512 / 512 == d) })

/-- The sender of a token stands on a die. -/
def tokenFrom (t : Token) (d : Nat) : Bool :=
  match t.kind with
  | .point _ _ sender => ctxDie sender == d
  | .answer sender _ => ctxDie sender == d
  | .arrive _ _ e _ => e.toNat == d
  | .release _ => false

/-- The die's contexts are IDLE; its tokens, tiles and barriers are gone. -/
def resetStreams (s : State) (d : Nat) : State :=
  s.onStreams (fun t => { t with
    ctxs := SMap.eraseIf t.ctxs (fun c => c / 32768 == d),
    tokens := t.tokens.filter (fun k => !tokenFrom k d),
    tiles := t.tiles.filter (fun x => ctxDie x.ctx != d),
    barrierCount := SMap.eraseIf t.barrierCount (fun k => k / 4096 == d),
    barrierRoot := SMap.eraseIf t.barrierRoot (fun k => k / 4096 == d),
    aborts := t.aborts.map (fun a => { a with dies := a.dies.filter (· != d) }) })

/-- The issuer of an operation stands on a die. -/
def issuerOn (o : OpIssuer) (d : Nat) : Bool :=
  match o with | .ctx c => ctxDie c == d | .core e _ => e.toNat == d | .host src => src.die == d | .engine e => e.toNat == d

/-- The die's structures are gone. Contexts of other dies that wait at a queue of the die go on and find it closed. -/
def resetQueues (s : State) (d : Nat) : State :=
  let takers := (s.queues.slipq.filter (fun e => e.1 / 1024 == d)).flatMap (fun e => e.2.takers)
  let s1 := s.onQueues (fun q => { q with
    slipq := (SMap.eraseIf q.slipq (fun k => k / 1024 == d)).map (fun e =>
      (e.1, { e.2 with takers := e.2.takers.filter (fun c => ctxDie c != d), givers := e.2.givers.filter (fun c => ctxDie c != d) })),
    comb := SMap.eraseIf q.comb (fun k => k / 256 == d),
    results := SMap.eraseIf q.results (fun k => k / 4096 == d),
    ops := q.ops.filter (fun o => !issuerOn o.issuer d),
    copies := q.copies.filter (fun c => c.die != d) })
  (takers.filter (fun c => ctxDie c != d)).foldl makeReady s1

/-- The remote engine and the window translator of the die are empty. -/
def resetRemote (s : State) (d : Nat) : State :=
  s.onRemote (fun r => { r with
    translator := r.translator.filter (fun t => t.die != d),
    syncs := r.syncs.filter (fun w => w.src.die != d),
    staged := r.staged.filter (fun m => m.die != d),
    ringCount := SMap.eraseIf r.ringCount (fun k => k / 1024 == d),
    outStage := r.outStage.filter (fun o => ctxDie o.ctx != d),
    outMsgs := r.outMsgs.filter (fun o => o.die != d),
    overdue := r.overdue.filter (fun i => s.fabric.slots.any (fun x => x.id == i)),
    counters := SMap.eraseIf r.counters (fun k => k / 512 == d) })

/-- Ballots that the die holds, posts of its contexts, its scan and its lost registers are gone. The barometer stays (R417), and the TAP,
which has a reset of its own. -/
def resetReplicas (s : State) (d : Nat) : State :=
  s.onReplicas (fun r => { r with
    ballots := SMap.eraseIf r.ballots (fun k => k / 256 == d),
    posts := r.posts.filter (fun p => ctxDie p.ctx != d),
    lfsr := SMap.erase r.lfsr d,
    scans := SMap.erase r.scans d,
    wrappers := SMap.eraseIf r.wrappers (fun k => k / 64 == d),
    strays := SMap.eraseIf r.strays (fun k => k / 2 ^ 40 == d),
    unsafeRegs := SMap.eraseIf r.unsafeRegs (fun k => k / 2 ^ 40 == d) })

/-- Every key of the die is lost (R333); a life-cycle transition stops, a TEN_CLOSE is forgotten. -/
def resetSecurity (s : State) (d : Nat) : State :=
  s.onSecurity (fun x => { x with
    keySlots := SMap.eraseIf x.keySlots (fun k => k / 512 == d),
    transport := SMap.eraseIf x.transport (fun k => k / 16 == d),
    lcBusy := SMap.erase x.lcBusy d,
    denialSeen := SMap.eraseIf x.denialSeen (fun k => k / 4096 == d),
    closing := SMap.eraseIf x.closing (fun k => k / 16 == d),
    alarms := x.alarms.filter (fun w => w.receiver != d) })

/-- Every domain of the die is DOWN, its marches and its level change end. Fuses and the repair record stay. -/
def resetPower (s : State) (d : Nat) : State :=
  (perfDrop s d).onPower (fun p => { p with
    doms := SMap.eraseIf p.doms (fun k => k / 64 == d),
    marches := SMap.eraseIf p.marches (fun k => k / 64 == d),
    marchDoms := p.marchDoms.filter (fun e => e.2 / 64 != d),
    stopped := SMap.erase p.stopped d })

/-- Where the order number of a window or core stands, and its die. -/
def seqKey : CmdSrc → Nat
  | .slot d w _ => d.toNat * 16 + w.toNat | .side d w => d.toNat * 16 + w.toNat | .core d c => 1024 + d.toNat * 512 + c.toNat
def seqDie (k : Nat) : Nat := if k < 1024 then k / 16 else (k - 1024) / 512

/-- Every command slot of the die is FREE, and every command in progress is discarded (R407). -/
def resetSupervisor (s : State) (d : Nat) : State :=
  s.onSup (fun u => { u with
    events := SMap.erase u.events d,
    nextEvent := SMap.erase u.nextEvent d,
    cmds := u.cmds.filter (fun c => c.1.die != d),
    nextSeq := SMap.eraseIf u.nextSeq (fun k => seqDie k == d),
    turn := SMap.erase u.turn d,
    sideOrder := u.sideOrder.filter (fun c => c.1.die != d),
    inputs := u.inputs.filter (fun c => c.1.die != d),
    almanacs := u.almanacs.filter (fun a => a.origin != d),
    almanacCount := SMap.erase u.almanacCount d,
    stalled := u.stalled.filter (· != d),
    queued := u.queued.filter (fun c => c.1.die != d),
    lastDispatch := SMap.erase u.lastDispatch d,
    catFreed := SMap.eraseIf u.catFreed (fun k => k / 4096 == d),
    eventNow := SMap.erase u.eventNow d,
    allocs := u.allocs.filter (fun a => a.src.die != d),
    catUpsets := SMap.eraseIf u.catUpsets (fun k => k / 16384 == d),
    catCorrected := SMap.erase u.catCorrected d,
    catReported := u.catReported.filter (fun e => e / 4096 != d) })

/-- The grade of DIE_GRADE, which is fused, with every core enabled. -/
def gradeReset (s : State) (d : Nat) : Word := word (put 30 2 (rf s d .dieGrade 30 2) + put 17 10 512)

/-- The registers of the die at their reset values (R8, R417). What fuses, flash and the record hold stays, SEC_POLICY where it is
provisioned (R342), and RST_CTL but at POWER_ON; `side` is the window whose side slot issued DIE_RESET. -/
def resetRegs (s : State) (d : Nat) (powerOn : Bool) (side : Option Nat) : State :=
  let kept : Reg → Bool := fun r => match r with
    | .lcStat | .dieSerial _ | .fwStat => true
    | .secPolicy => lifeCycle s d != 0
    | .rstCtl => !powerOn
    | .sideCtl w | .sideSts w => side == some w
    | _ => false
  let boot := rf s d .marchCtl 0 2
  let s1 := { (regResetIf s d (fun r => !kept r)) with
    pages := SMap.eraseIf s.pages (fun k => k / 2 ^ 20 == d),
    pairLo := SMap.eraseIf s.pairLo (fun k => k / 2 ^ 44 == d),
    pairHi := SMap.eraseIf s.pairHi (fun k => k / 2 ^ 44 == d) }
  regField (regSet s1 d .dieGrade (gradeReset s d)) d .marchCtl 0 2 boot

/-- Everything of a die but what R417 lets survive takes its reset value. -/
def eraseDie (s : State) (d : Nat) (powerOn : Bool) (side : Option Nat) : State :=
  let s1 := resetStreams (resetReplicas (resetTransfers s d) d) d
  let s2 := resetSupervisor (resetPower (resetSecurity (resetRemote (resetFabric (resetBanks s1 d) d) d) d) d) d
  resetQueues (resetRegs s2 d powerOn side) d

/-! ### Images (R434, R441) -/

/-- Digests of the active and of the staged manifest. -/
def activeDigest (s : State) (d : Nat) : List Byte := sha384 (flashOf s d).activeHeader
def stagedDigest (s : State) (d : Nat) : List Byte := sha384 (flashOf s d).stagedHeader

/-- STATE and REASON of FW_STAT set. -/
def fwSet (s : State) (d st reason : Nat) : State := regField (regField s d .fwStat 28 4 st) d .fwStat 24 4 reason

/-- The COMMIT record is written within 2,000 us of the poll (R441): a reset that comes sooner may find it unwritten (log 14). -/
def settleCommit (s : State) (d : Nat) : State :=
  let f := flashOf s d
  match f.armed with
  | some (t, _) =>
    if f.commit && s.pkgTime.toNat + 8000 < t.toNat then
      flashSet s.draw d { f with commit := Config.pick s.draws 2 == 1 }
    else s
  | none => s

/-! ### The reset itself (R416, R418) -/

/-- The cores of a die in cache mode, each with its DIRTY. -/
def cachesOf (s : State) (d : Nat) : List (Nat × Nat) :=
  ((List.range 512).filter (fun c => carrelState s d c != 0)).map (fun c => (c, rf s d (.carrelCtl c) 0 10))

/-- Cache mode that a reset ends enters DIRTY in the event log, which the reset has emptied before (R85, R412; DEDUCED, log 53). -/
def logCaches (s : State) (d : Nat) (l : List (Nat × Nat)) : State := l.foldl (fun s c => logEvent s d (ev 0x08 c.1 c.2)) s

/-- The event log of a die as it stands in another state. -/
def keepLog (s old : State) (d : Nat) : State :=
  s.onSup (fun u => { u with
    events := SMap.set u.events d (SMap.get old.sup.events d []), nextEvent := SMap.set u.nextEvent d (SMap.get old.sup.nextEvent d 0) })

/-- A die reset: the bypass closes, every domain is isolated, and everything but what R417 lists takes its reset value. -/
def resetDie (s : State) (d : Nat) (cause kind : Nat) (powered : Bool) (side : Option Nat) : State :=
  let tasks := lostTasks s d
  let n := if cause == 0 then 0 else min ((bootOf s d).resets.toNat + 1) 0xFFFF
  let s1 := bootSet (settleCommit s d) d (fun _ =>
    ⟨powered, true, 1, false, false, false, 0, BitVec.ofNat 3 cause, BitVec.ofNat 2 kind, BitVec.ofNat 16 n, false, none, 0, false, none, false, 0⟩)
  let s2 := logCaches (eraseDie s1 d (cause == 0) side) d (cachesOf s d)
  presentAll (endAborts (tasks.foldl (fun s t => abortLost s d t) s2))

/-- POWER_ON. -/
def execPowerOn (d : Die) (s : State) : Host.Outcome State Fault Refusal := act s [d.toNat] (resetDie s d.toNat 0 0 true none)

/-- CHIP_RESET. -/
def execChipReset (d : Die) (s : State) : Host.Outcome State Fault Refusal :=
  act s [d.toNat] (if (bootOf s d.toNat).powered then resetDie s d.toNat 1 0 true none else s)

/-- POWER_LOSS: as at reset assertion, and the die stays without power (R418). -/
def execPowerLoss (d : Die) (s : State) : Host.Outcome State Fault Refusal :=
  act s [d.toNat] (resetDie s d.toNat (bootOf s d.toNat).cause.toNat (bootOf s d.toNat).kind.toNat false none)

/-- DIE_RESET, in a side slot: SIDE_STS reads DONE across the reset (R407). -/
def execDieReset (src : CmdSrc) (s : State) : Host.Outcome State Fault Refusal :=
  cmdAct s src 0x62 (fun s =>
    let kind := cmdArgF s src 0 0 2
    cmdChecked s src [(kind == 3, Code.badArg), (notZero src, Code.denied)]
      (fun s => resetDie (endCmd s src Code.done) src.die 2 kind true src.win))

/-- RESET_RELEASE: phase 1 begins. What was written while reset was asserted is gone (R8), but for the event log, which the assertion
emptied. -/
def execResetRelease (d : Die) (s : State) : Host.Outcome State Fault Refusal :=
  let n := d.toNat
  act s [n]
    (if !(bootOf s n).asserted || !(bootOf s n).powered then s
     else bootSet (keepLog (eraseDie s n false (if (bootOf s n).cause == 2 then
         (List.range 16).find? (fun w => rf s n (.sideCtl w) 30 2 == 3) else none)) s n) n
       (fun b => { b with asserted := false, phase := 1 }))

/-! ### Phases 1 and 2 (R419, R441) -/

/-- The image in flash is settled: a COMMIT record activates the staged slot; an ARMED one alone leaves the die PENDING; a verify
that the reset cut short is RECEIVING again (DEDUCED, log 37). -/
def activate (s : State) (d : Nat) : State :=
  let f := flashOf s d
  if f.commit then
    regField (fwSet (flashSet s d ⟨f.stagedHeader, f.stagedVersion, f.blocks, [], 0, [], none, false⟩) d 0 0) d .fwStat 0 11 0
  else if f.armed.isSome then fwSet s d 7 0
  else if fwState s d == 2 then fwSet s d 1 0
  else s

/-- A measurement register takes a digest (R335). -/
def measure (s : State) (d n : Nat) (digest : List Byte) : State :=
  (List.range 12).foldl (fun s i => regSet s d (.meas n i) (word (leNat (((fit 48 digest).drop (4 * i)).take 4)))) s

/-- The digest of the part of a kind that serves a die (R433). -/
def partDigest (header : List Byte) (d kind : Nat) : List Byte :=
  match partFor header d kind with
  | some p => (p.drop 16).take 48
  | none => List.replicate 48 0

/-- MEAS_1 to MEAS_4 of a die under a manifest (R335, R437). -/
def partMeasures (header : List Byte) (d : Nat) : List (List Byte) :=
  [partDigest header d 1, partDigest header d 2, partDigest header d 3, sha384 header]

/-- Phase 1 ends: MEAS_0, the certificate chain, the image that is to run. -/
def romPhase (s : State) (d : Nat) : State := checkChain (activate (measure s d 0 Config.romDigest) d) d

/-- Phase 2 ends: the parts are measured, MEAS_5 is recorded. -/
def firmwarePhase (s : State) (d : Nat) : State :=
  let m := partMeasures (flashOf s d).activeHeader d
  let s1 := (List.range 4).foldl (fun s i => measure s d (i + 1) (m.getD i [])) s
  measure s1 d 5 (sha384 (leBytes 4 (regGet s d .lcStat).toNat ++ leBytes 4 (regGet s d .secPolicy).toNat))

/-! ### Phases 4 and 5 (R385) -/

/-- The repairs of a die, fuses first. -/
def repairsOf (s : State) (d : Nat) : List RepairEntry := SMap.get s.power.fuses d [] ++ SMap.get s.power.record d []

/-- A fence or a retirement of the repair stores applied; RCAUSE as R383 gives it. -/
def applyFence (s : State) (d : Nat) (core : Nat) : State := regField s d (.coreFenced (core / 32)) (core % 32) 1 1

def applyRetire (s : State) (d b rcause : Nat) : State :=
  let s1 := regField (regField s d (.bankTest b) 31 1 1) d (.bankTest b) 29 2 rcause
  setBankPower (s1.onBanks (fun k => { k with zeroing := SMap.erase k.zeroing (d * 8192 + b) })) (d * 8192 + b) 3

/-- A remap entry of the repair stores applied. One whose spare row is unusable moves to the lowest usable disabled entry, or its bank
is retired. -/
def applyRemap (s : State) (d b n line : Nat) : State :=
  let bank := d * 8192 + b
  let enable := fun (s : State) (n : Nat) => hardSet s d (.bankRemap b n) (word (2 ^ 31 + line))
  if !spareBad s bank n then enable s n
  else match freeSpare s bank with
    | some m => addRecord (enable s m) d (.remap b m line)
    | none => if retired s bank then s
      else addRecord (logEvent (applyRetire s d b 2) d { ev 0x1A 0 2 with ten := evTen s bank, addr := BitVec.ofNat 48 (bank * 2 ^ 17) }) d (.retire b)

/-- The last REMAP entry of each line, in record order. -/
def lastRemaps : List RepairEntry → List (Nat × Nat × Nat)
  | [] => []
  | .remap b n line :: r =>
    if r.any (fun e => match e with | .remap b2 _ l2 => b2 == b && l2 == line | _ => false) then lastRemaps r else (b, n, line) :: lastRemaps r
  | _ :: r => lastRemaps r

/-- The four steps of R385, a fenced cluster's cores and banks among them (R391); a row that a later entry names is not free for one that
moves (DEDUCED, log 31). What DIE_GRADE then reports (R387). -/
def applyRepairs (s : State) (d : Nat) : State :=
  let all := repairsOf s d
  let factory := SMap.get s.power.fuses d []
  let s1 := all.foldl (fun s e => match e with
    | .fence c => applyFence s d c
    | .cluster k => (List.range 32).foldl (fun s i => applyFence s d (32 * k + i)) s
    | _ => s) s
  let s2 := all.foldl (fun s e => match e with
    | .retire b => applyRetire s d b (if factory.contains (.retire b) || clusterFenced s d (b / 512) then 1 else 2)
    | .cluster k => (List.range 512).foldl (fun s i => applyRetire s d (512 * k + i) 1) s
    | _ => s) s1
  let s3 := all.foldl (fun s e => match e with | .spareBad b n => regField s d (.bankTest b) (8 + n) 1 1 | _ => s) s2
  let bad := fun (e : Nat × Nat × Nat) => spareBad s3 (d * 8192 + e.1) e.2.1
  let remaps := lastRemaps all
  let s4 := (remaps.filter (fun e => !bad e) ++ remaps.filter bad).foldl (fun s e => applyRemap s d e.1 e.2.1 e.2.2) s3
  let fenced := ((List.range 512).filter (coreFenced s4 d)).length
  let gone := ((s4.regs.filter (fun e => match keyReg s4 e.1 with | some (x, .bankTest _) => x == d && bit e.2 31 | _ => false))).length
  regField (setEnabled s4 d (512 - fenced)) d .dieGrade 0 14 gone

/-- Phase 5 ends: `ok` says that the record verified; one that did not is replaced by an empty one, and BOOT is that of a new
record (R384, R385). -/
def repairPhase (s : State) (d : Nat) (ok : Bool) : State :=
  if ok then applyRepairs s d
  else
    let s1 := s.onPower (fun p => { p with record := SMap.erase p.record d })
    let s2 := logEvent (regField s1 d .marchCtl 0 2 1) d (ev 0x1C 2 0)
    applyRepairs (bootSet s2 d (fun b => { b with recordNew := true })) d

/-! ### Phases 6 to 9 (R416, R419, R422, R423) -/

/-- The start-up march is called for. -/
def marchCalled (s : State) (d : Nat) : Bool :=
  let b := bootOf s d
  b.recordNew || b.kind == 1 || (b.kind == 0 && rf s d .marchCtl 0 2 == 1)

/-- The start-up cross-check is called for. -/
def xcheckCalled (s : State) (d : Nat) : Bool := (bootOf s d).kind == 0 && rf s d .rstCtl 1 1 == 1

/-- Start-up ends: HELD under HOLD or after a persistent mismatch, else READY, where the die reports ready and listens (R422, R423,
R426). -/
def finishBoot (s : State) (d : Nat) : State :=
  bootSet (s.onSup (fun u => { u with lastDispatch := SMap.set u.lastDispatch d s.now })) d (fun b => if rf s d .rstCtl 0 1 == 1 || rf s d .xchkStat 31 1 == 1 then { b with phase := 8 }
    else { b with phase := 9, ready := true, listening := true, openAt := none, listenAt := s.now })

/-- The operand sets of the start-up cross-check that have not been fed yet, 4,096 for every pair that lies in an UP domain: they are fed,
and no mismatch is found but those that CROSS_CHECK has reported (R422; log 34). -/
def xcheckRest (s : State) (d : Nat) : State :=
  let up := fun (k p : Nat) => match xchkDomain k p with | some m => domUp s d m | none => true
  let pairs := (List.range 4).foldl (fun n k => n + ((List.range (xchkPairs k)).filter (up k)).length) 0
  (List.range (4096 * pairs - SMap.get s.fabric.counters (key d (.dieCounter 0 false)) 0)).foldl (fun s _ => xchkRun s d) s

/-- What follows phase 6. -/
def afterMarch (s : State) (d : Nat) : State :=
  if xcheckCalled s d then bootSet s d (fun b => { b with phase := 7 }) else finishBoot s d

/-- What follows phase 5. -/
def afterRepair (s : State) (d : Nat) : State :=
  if marchCalled s d then
    (List.range 40).foldl (fun s n => if domUp s d n then startMarch s d n false none else s) (bootSet s d (fun b => { b with phase := 6 }))
  else afterMarch s d

/-- A phase that has reached READY or HELD waits for the phase 1 of a weeding (R431). -/
def unlessClearing (s : State) (d : Nat) (t : State) : State :=
  if 8 ≤ (bootOf t d).phase && !(clearing s d).isEmpty then s else t

/-- A phase completed (R419). -/
def phaseDone (s : State) (d : Nat) (record : Bool) : State :=
  let b := bootOf s d
  match b.phase with
  | 1 => bootSet (romPhase s d) d (fun b => { b with phase := 2 })
  | 2 => setClk (bootSet (firmwarePhase s d) d (fun b => { b with phase := 3, listening := true, heardLevel := none })) d 1
  | 3 => match b.heardLevel with
    | none => s
    | some l => bootWave (bootSet (setClk (regField (regField s d .perfStat 0 2 l.toNat) d .perfStat 4 2 l.toNat) d 0) d (fun b => { b with phase := 4 })) d
  | 4 => if (List.range 48).all (domUp s d) then bootSet s d (fun b => { b with phase := 5 }) else s
  | 5 => let t := afterRepair (repairPhase s d record) d
         unlessClearing s d t
  | 6 => if s.power.marches.any (fun m => m.1 / 64 == d) then s else unlessClearing s d (afterMarch s d)
  | 7 => unlessClearing s d (finishBoot (xcheckRest s d) d)
  | _ => s

/-- The phases in which a start-up can fail, with the reasons (R420). -/
def mayFail (phase reason : Nat) : Bool :=
  (phase == 1 && (reason == 1 || reason == 2)) || (phase == 2 && (reason == 1 || reason == 3)) || (phase == 3 && reason == 4)
    || (phase == 4 && reason == 5)

/-- BOOT_PHASE_COMPLETE: the phase in progress ends, or the sequence stops in BOOTFAIL. -/
def execBootPhaseComplete (d : Die) (outcome : BootOutcome) (s : State) : Host.Outcome State Fault Refusal :=
  let n := d.toNat
  let b := bootOf s n
  act s [n]
    (if b.asserted then s
     else match outcome with
       | .ok record => presentAll (phaseDone s n record)
       | .fail r => if mayFail b.phase r.toNat then bootSet s n (fun b => { b with phase := 10, fail := r, listening := false }) else s)

/-! ### Beacons (R421, R425, R426) -/

/-- The frame master. -/
def masterDie (s : State) : Option Nat := (openDies s).find? (fun d => (bootOf s d).master)

/-- The beacon is the one that its sender sends now. -/
def beaconTrue (s : State) (b : Beacon) : Bool :=
  let m := b.sender.toNat
  dieOpen s m && (bootOf s m).master && b.frame == frameCount s && b.level.toNat == rf s m .perfStat 0 2 && b.changing == levelChanging s m
    && (List.range 8).all (fun e => b.openDies.toNat.testBit e == dieOpen s e)

/-- A level change of a die on itself, to the level of the package (R427). -/
def ownChange (s : State) (d : Nat) (level : BitVec 2) : State :=
  s.onPower (fun p => { p with perf := SMap.set p.perf d ⟨.pending s.frame, level, none, true⟩ })

/-- BEACON_LISTEN_TIMEOUT: no beacon is heard where no die is open; the root is to lock at P0. -/
def execBeaconListenTimeout (d : Die) (s : State) : Host.Outcome State Fault Refusal :=
  let b := bootOf s d.toNat
  act s [d.toNat]
    (if !b.asserted && b.phase == 3 && b.listening && (openDies s).isEmpty then
       bootSet s d.toNat (fun b => { b with listening := false, heardLevel := some 0 })
     else s)

/-- What a beacon does to a listening or an open die. -/
def hearBeacon (s : State) (d : Nat) (b : Beacon) : State :=
  let v := bootOf s d
  if v.asserted || b.sender.toNat == d then s
  else if v.phase == 3 && v.listening then
    if b.changing then s else bootSet s d (fun v => { v with listening := false, heardLevel := some b.level })
  else if v.opened then
    if v.master && b.sender.toNat < d && s.frame < v.openedFrame + 8 then
      bootSet s d (fun v => { v with opened := false, master := false, openAt := some (s.frame + 2) })
    else s
  else if v.ready && v.listening then
    if b.changing || changing s d then s
    else if b.level.toNat != rf s d .perfStat 0 2 then ownChange s d b.level
    else bootSet s d (fun v => { v with listening := false, master := false, openAt := some (s.frame + 2) })
  else s

/-- BEACON_RECEIVE: a beacon that the package's master has sent. -/
def execBeaconReceive (d : Die) (b : Beacon) (s : State) : Host.Outcome State Fault Refusal :=
  act s [d.toNat] (if beaconTrue s b then hearBeacon s d.toNat b else s)

/-- READY_LISTEN_TIMEOUT: a ready die d hears no beacon where no die is open, for 1,024 x (d + 1) cc; it opens as master in the next
frame (R426). -/
def execReadyListenTimeout (d : Die) (s : State) : Host.Outcome State Fault Refusal :=
  let b := bootOf s d.toNat
  act s [d.toNat]
    (if b.ready && b.listening && !b.opened && (openDies s).isEmpty then
       atCycle s (max s.now (b.listenAt + 1024 * (d.toNat + 1))) (fun s =>
         bootSet s d.toNat (fun b => { b with listening := false, master := true, openAt := some (s.frame + 1) }))
     else s)

/-- BEACON_MISSING: the open die with the lowest number sends beacons where no open die does. -/
def execBeaconMissing (s : State) : Host.Outcome State Fault Refusal :=
  act s [] (match masterDie s, openDies s with
    | none, d :: _ => bootSet s d (fun b => { b with master := true })
    | _, _ => s)

/-! ### Opening (R426, R428, R442) -/

/-- A level change of the package runs: its start frame has passed (R371). -/
def packageChanging (s : State) : Bool :=
  s.power.perf.any (fun e => !e.2.own && (match e.2.step with | .pending f => decide (f < s.frame) | _ => true))

/-- The die may open among the dies that are open: its level is the package's, and no change runs there or on itself (R30, R427). -/
def mayOpen (s : State) (d : Nat) : Bool :=
  (openDies s).isEmpty || (levelOf s d == rf s d .perfStat 0 2 && !packageChanging s && !changing s d)

/-- The bypass is open from this frame on. A die that opens before a package change starts takes part in it (R427). -/
def openBypass (s : State) (d : Nat) : State :=
  let s1 := bootSet s d (fun b => { b with opened := true, openAt := none, openedFrame := s.frame })
  match s1.power.perf.find? (fun e => !e.2.own && (match e.2.step with | .pending _ => true | _ => false)) with
  | some (_, p) => s1.onPower (fun q => { q with perf := SMap.set q.perf d p })
  | none => s1

/-- The first die to open gives the package its frame count, 0 in this frame (R426); absolute frames whose number is a multiple of 16
are the model's candidates, so that the windows of R119 keep their edges (DESIGN CHOICE, log 38). -/
def openMaster (s : State) (d : Nat) : State :=
  if !(openDies s).isEmpty then openBypass s d
  else if s.frame % 16 != 0 then s
  else { openBypass s d with frameBase := s.frame }

/-- An ARMED record that is still to be settled: the die is PENDING, or it was away from the poll without a reset (R441). -/
def unsettled (s : State) (d : Nat) : Bool :=
  fwState s d == 7 || (fwState s d == 5 && (match (flashOf s d).armed with | some (t, _) => decide (t.toNat ≤ s.pkgTime.toNat + 10000) | none => false))

/-- A PENDING die's ARMED record is cleared: VERIFIED, REASON 5 (R442). -/
def settlePending (s : State) (d : Nat) : State :=
  if unsettled s d then fwSet (flashSet s d { flashOf s d with armed := none, commit := false }) d 3 5 else s

/-- A COMMIT record is written, and the die is reset as at T (R441, R442). -/
def commitAndReset (s : State) (d : Nat) : State := resetDie (flashSet s d { flashOf s d with commit := true, armed := none }) d 2 0 true none

/-- A follower opens under the rows of R442. -/
def openFollower (s : State) (d m : Nat) : State :=
  if activeDigest s d == activeDigest s m then openBypass (settlePending (settlePending s d) m) d
  else if unsettled s d && stagedDigest s d == activeDigest s m then commitAndReset s d
  else if unsettled s m && stagedDigest s m == activeDigest s d then commitAndReset (openBypass s d) m
  else fwSet (bootSet s d (fun b => { b with phase := 8, ready := false, listening := false, openAt := none })) d 8 0

/-- BYPASS_OPEN: frame cc 0 of the opening frame. A die that may not open by now listens again, and follows the next beacon (R427). -/
def execBypassOpen (d : Die) (s : State) : Host.Outcome State Fault Refusal :=
  let n := d.toNat
  let b := bootOf s n
  act s [n]
    (match b.openAt with
     | some f =>
       if b.opened || b.asserted || s.frame < f || !frameCc0 s then s
       else if !mayOpen s n then bootSet s n (fun b => { b with listening := true, master := false, openAt := none, listenAt := s.now })
       else if b.master then openMaster s n
       else match masterDie s with
         | some m => openFollower s n m
         | none => bootSet s n (fun b => { b with listening := true, openAt := none, listenAt := s.now })
     | none => s)

/-- The package's copies of a register, from the master to a die that has opened; its LAST stays its own (R428). -/
def takeCopies (s : State) (d m : Nat) : State :=
  let shared : Reg → Bool := fun r => match r with
    | .pmcgCfg _ | .pmcgMem _ _ _ => domUp s d 47 && domUp s m 47
    | .ballotCfg _ => true
    | _ => false
  let last : Reg → Bool := fun r => match r with | .pmcgMem _ _ _ => false | _ => true
  let mine := s.regs.filterMap (fun e => match keyReg s e.1 with | some (x, r) => if x == d && shared r then some r else none | none => none)
  let theirs := s.regs.filterMap (fun e => match keyReg s e.1 with | some (x, r) => if x == m && shared r then some r else none | none => none)
  (mine ++ theirs).foldl (fun s r =>
    let v := regGet s m r
    hardSet s d r (if last r then setField v 24 8 (rf s d r 24 8) else v)) s

/-- DIE_ANNOUNCE_RECEIVE: the copies come into force on the new die at frame J + 4. -/
def execDieAnnounceReceive (d : Die) (s : State) : Host.Outcome State Fault Refusal :=
  let n := d.toNat
  act s [n]
    (match masterDie s with
     | some m => if dieOpen s n && n != m && (bootOf s n).openedFrame + 4 ≤ s.frame then takeCopies s n m else s
     | none => s)

/-! ### RST_CTL and RST_STAT (R424, R425, R427, R429) -/

/-- A JOIN is refused (R427, R442). -/
def joinRefused (s : State) (d : Nat) : Bool :=
  (bootOf s d).phase != 8 || rf s d .perfStat 29 2 != 0 || fwState s d == 8
    || (match masterDie s with | some m => levelChanging s m || rf s m .perfStat 0 2 != rf s d .perfStat 0 2 | none => false)

/-- A LEAVE is refused (R429). -/
def leaveRefused (s : State) (d : Nat) : Bool :=
  (bootOf s d).phase != 9 || liveCtx s d || !(dieSegs s d).all (drained s)

/-- A write of RST_CTL. A refused JOIN or LEAVE leaves HOLD and XBOOT too (DEDUCED, log 39). -/
def rstCtlWrite (s : State) (d w : Nat) (v : Word) : State :=
  let r := Reg.rstCtl
  if w != 0 then regField s d r 24 8 Code.denied
  else if (bit v 2 && joinRefused s d) || (bit v 3 && leaveRefused s d) then regField s d r 24 8 Code.state
  else
    let s1 := regField (regField s d r 0 2 (field v 0 2)) d r 24 8 Code.done
    let s2 := if bit v 2 then bootSet s1 d (fun b => { b with phase := 9, ready := true, listening := true, openAt := none, listenAt := s.now }) else s1
    if bit v 3 then withdrawReady s2 d else s2

/-- RST_JOIN: a write of RST_CTL with JOIN = 1. -/
def execRstJoin (d : Die) (win : Win) (val : Word) (s : State) : Host.Outcome State Fault Refusal :=
  act s [d.toNat] (if bit val 2 then rstCtlWrite s d.toNat win.toNat val else s)

/-- RST_LEAVE: a write of RST_CTL with LEAVE = 1. -/
def execRstLeave (d : Die) (win : Win) (val : Word) (s : State) : Host.Outcome State Fault Refusal :=
  act s [d.toNat] (if bit val 3 then rstCtlWrite s d.toNat win.toNat val else s)

/-- BYPASS_CLOSE: frame cc 0 of the frame after LEAVE or DOZE. -/
def execBypassClose (d : Die) (s : State) : Host.Outcome State Fault Refusal :=
  let n := d.toNat
  let b := bootOf s n
  act s [n]
    (match b.openAt with
     | some f => if b.closing && f ≤ s.frame && frameCc0 s then
         bootSet s n (fun b => { b with opened := false, master := false, closing := false, openAt := none })
       else s
     | none => s)

/-- RST_STAT (R425). -/
def rstStatRead (s : State) (d : Nat) : Word :=
  let b := bootOf s d
  word (put 29 3 b.cause.toNat + put 27 2 b.kind.toNat + put 23 4 b.phase + putB 22 b.ready + putB 21 b.opened
    + putB 20 (b.opened && b.master) + put 16 4 b.fail.toNat + b.resets.toNat)

end Sys2Proof.Machine
end

