-- ==== Sys2Proof/Machine/Firmware.lean ====
section
/-! DEFINITION. Firmware update (R432-R442): the manifest, the commands, the poll and the activation. -/

namespace Sys2Proof.Machine

open Sys2Proof

/-! ### The manifest (R432-R434) -/

/-- The part rules of R433 for a package of n dies: one part of each kind for every die, every part within the body. -/
def partsOk (h : List Byte) (dies : Nat) : Bool :=
  let ps := partsOf h
  ps.all (fun p => 1 ≤ hdr p 0 1 && hdr p 0 1 ≤ 4 && hdr p 4 4 + hdr p 8 4 ≤ 4096 * bodyBlocks h)
    && (List.range dies).all (fun d => (List.range 4).all (fun k =>
      (ps.filter (fun p => hdr p 0 1 == k + 1 && (hdr p 1 1).testBit d)).length == 1))

/-- Check 5 of FW_BEGIN. The body length is taken as part of the format (DEDUCED, log 40). -/
def formatOk (h : List Byte) (dies : Nat) : Bool :=
  hdr h 0 4 == 0x0B17F3A1 && hdr h 4 2 == 1 && 1 ≤ partCount h && partCount h ≤ 32
    && 1 ≤ bodyBlocks h && bodyBlocks h ≤ 1024 && partsOk h dies

/-- The silicon revision of the model's dies: IDCODE[31:28] (R393). -/
def siliconRevision : Nat := field idcode 28 4

/-- The package type's bit of header byte 16. -/
def packageBit (p : Package) : Nat := match p with | .zarun2 => 0 | .zarun4 => 1 | .zarun8 => 2

/-- Every part's digest is the manifest's. -/
def digestsOk (h body : List Byte) : Bool :=
  (partsOf h).all (partOk body)

/-! ### The commands (R437-R440) -/

/-- A die is SCHEDULED: the commands that change images return STATE (R440). -/
def someScheduled (s : State) : Bool := (List.range s.dies).any (fun d => fwState s d == 5)

/-- The first failing check decides, each with its DETAIL (R438). -/
def fwChecked (s : State) (src : CmdSrc) (checks : List (Bool × Nat × Nat)) (go : State → State) : State :=
  match checks.find? (·.1) with
  | some c => completeCmd s src (stWord c.2.1 c.2.2)
  | none => go s

/-- FW_BEGIN. -/
def execFwBegin (src : CmdSrc) (s : State) : Host.Outcome State Fault Refusal :=
  cmdAct s src 0x70 (fun s =>
    let d := src.die
    let h := cmdInput s src 4096
    let st := fwState s d
    fwChecked s src [(notZero src, Code.denied, 0),
        (st == 2 || (5 ≤ st && st ≤ 8) || lifeCycle s d == 3 || someScheduled s, Code.state, 0),
        (!firmwareSigned (h.take 4000) (h.drop 4000), Code.sealFail, 1),
        (!formatOk h s.dies, Code.badArg, 2),
        (!(hdr h 16 1).testBit (packageBit s.package) || siliconRevision < hdr h 17 1, Code.badArg, 3),
        (hdr h 8 8 ≤ (flashOf s d).activeVersion, Code.state, 4)]
      (fun s =>
        let s1 := flashSet s d { flashOf s d with stagedHeader := h, stagedVersion := hdr h 8 8, blocks := [], armed := none, commit := false }
        endCmd (regField (fwSet s1 d 1 0) d .fwStat 0 11 0) src Code.done))

/-- FW_BLOCK. -/
def execFwBlock (src : CmdSrc) (s : State) : Host.Outcome State Fault Refusal :=
  cmdAct s src 0x71 (fun s =>
    let d := src.die
    let f := flashOf s d
    let i := cmdArgF s src 0 0 10
    let tag := argBytes s src 1 4
    let cipher := cmdInput s src 4096
    fwChecked s src [(notZero src, Code.denied, 0), (bodyBlocks f.stagedHeader ≤ i, Code.badArg, 0),
        (fwState s d != 1 || someScheduled s, Code.state, 0), ((openBlock f.stagedHeader i cipher tag).isNone, Code.sealFail, 2)]
      (fun s =>
        let g := { f with blocks := SMap.set f.blocks i (cipher, tag) }
        endCmd (regField (flashSet s d g) d .fwStat 0 11 g.blocks.length) src Code.done))

/-- FW_VERIFY. -/
def execFwVerify (src : CmdSrc) (s : State) : Host.Outcome State Fault Refusal :=
  cmdAct s src 0x72 (fun s =>
    let d := src.die
    fwChecked s src [(notZero src, Code.denied, 0),
        (fwState s d != 1 || rf s d .fwStat 0 11 < bodyBlocks (flashOf s d).stagedHeader || someScheduled s, Code.state, 0)]
      (fun s => fwSet (continueCmd s src) d 2 0))

/-- FW_VERIFY_DONE: every tag and every digest has been checked (R439). -/
def execFwVerifyDone (d : Die) (s : State) : Host.Outcome State Fault Refusal :=
  let n := d.toNat
  act s [n]
    (if fwState s n != 2 then s
     else
       let f := flashOf s n
       let detail := match openBody f.stagedHeader f.blocks with
         | none => 2
         | some body => if digestsOk f.stagedHeader body then 0 else 3
       let s1 := if detail == 0 then fwSet s n 3 0 else fwSet s n 4 1
       completeWhere s1 0x72 (fun src => src.die == n) (if detail == 0 then stWord Code.done else stWord Code.sealFail detail))

/-- FW_QUERY: FW_STAT, the staged header and the preview of MEAS_1-MEAS_4 (R437). -/
def execFwQuery (src : CmdSrc) (s : State) : Host.Outcome State Fault Refusal :=
  cmdAct s src 0x73 (fun s =>
    let d := src.die
    let st := fwState s d
    let h := (flashOf s d).stagedHeader
    let page := if st == 3 || st == 5 || st == 6 then fit 32 (h.take 32) ++ (partMeasures h d).flatMap (fit 48) else List.replicate 224 0
    fwChecked s src [(notZero src, Code.denied, 0)]
      (fun s => completeCmd (pageWrite s d (src.win.getD 0) 1 0 page) src (stWord Code.done) [(regGet s d .fwStat).toNat]))

/-- T of FW_SCHEDULE. -/
def scheduleTime (s : State) (src : CmdSrc) : Nat := (cmdArg s src 0).toNat + 2 ^ 32 * (cmdArg s src 1).toNat

/-- Order 3 of FW_SCHEDULE (R440). -/
def scheduleState (s : State) : Bool :=
  let ds := List.range s.dies
  ds.any (fun d => !dieOpen s d || fwState s d != 3 || stagedDigest s d != stagedDigest s 0 || (SMap.find s.security.lcBusy d).isSome
    || changing s d || lifeCycle s d == 3)

/-- FW_SCHEDULE: every die writes its ARMED record. -/
def execFwSchedule (src : CmdSrc) (s : State) : Host.Outcome State Fault Refusal :=
  cmdAct s src 0x74 (fun s =>
    let t := scheduleTime s src
    let now := s.pkgTime.toNat
    fwChecked s src [(notZero src, Code.denied, 0), (scheduleState s, Code.state, 0),
        (t < now + 1000000 || now + 2592000000000 < t, Code.badArg, 5)]
      (fun s => endCmd ((List.range s.dies).foldl (fun s d =>
        fwSet (flashSet s d { flashOf s d with armed := some (BitVec.ofNat 64 t, stagedDigest s d) }) d 5 0) s) src Code.done))

/-- T of a die's ARMED record. -/
def armedTime (s : State) (d : Nat) : Nat := match (flashOf s d).armed with | some (t, _) => t.toNat | none => 0

/-- An activation is called off on a die: VERIFIED with a REASON (R441). -/
def callOff (s : State) (d reason : Nat) : State := fwSet (flashSet s d { flashOf s d with armed := none, commit := false }) d 3 reason

/-- FW_CANCEL: the SCHEDULED dies that the service ring reaches. With none, or from T - 10,000 on, it returns STATE (DEDUCED, log
40). -/
def execFwCancel (src : CmdSrc) (s : State) : Host.Outcome State Fault Refusal :=
  cmdAct s src 0x75 (fun s =>
    let d := src.die
    let mine := (List.range s.dies).filter (fun e => fwState s e == 5 && (e == d || (dieOpen s d && dieOpen s e)))
    fwChecked s src [(notZero src, Code.denied, 0),
        (mine.isEmpty || mine.any (fun e => armedTime s e ≤ s.pkgTime.toNat + 10000), Code.state, 0)]
      (fun s => endCmd (mine.foldl (fun s e => callOff s e 4) s) src Code.done))

/-- FW_DISCARD. -/
def execFwDiscard (src : CmdSrc) (s : State) : Host.Outcome State Fault Refusal :=
  cmdAct s src 0x76 (fun s =>
    let d := src.die
    let st := fwState s d
    fwChecked s src [(notZero src, Code.denied, 0), (!(st == 1 || st == 3 || st == 4) || someScheduled s, Code.state, 0)]
      (fun s =>
        let s1 := flashSet s d { flashOf s d with stagedHeader := [], stagedVersion := 0, blocks := [], armed := none, commit := false }
        endCmd (regField (fwSet s1 d 0 0) d .fwStat 0 11 0) src Code.done))

/-! ### The poll and the activation (R441) -/

/-- The open dies that are SCHEDULED and whose poll has come. -/
def polledDies (s : State) : List Nat :=
  (openDies s).filter (fun d => fwState s d == 5 && decide (armedTime s d ≤ s.pkgTime.toNat + 10000))

/-- The poll's decision: 0 GO, else the REASON of NO-GO. -/
def pollDecision (s : State) : Nat :=
  let ds := List.range s.dies
  if ds.any (fun d => !dieOpen s d) then 2
  else if ds.any (fun d => fwState s d != 5 || stagedDigest s d != stagedDigest s 0) then 3
  else 0

/-- FW_POLL: with GO every die writes its COMMIT record. -/
def execFwPoll (s : State) : Host.Outcome State Fault Refusal :=
  act s []
    (let reason := pollDecision s
     (polledDies s).foldl (fun z d =>
       if reason == 0 then fwSet (flashSet z d { flashOf z d with commit := true }) d 6 0 else callOff z d reason) s)

/-- FW_ACTIVATE: every COMMITTING die is reset. -/
def execFwActivate (s : State) : Host.Outcome State Fault Refusal :=
  act s []
    (((List.range s.dies).filter (fun d => fwState s d == 6 && decide (armedTime s d ≤ s.pkgTime.toNat))).foldl
      (fun z d => resetDie z d 2 0 true none) s)

end Sys2Proof.Machine
end

