-- ==== Sys2Proof/Machine/RegRead.lean ====
section
/-! DEFINITION. What a register read returns (R445-R451, and the field maps they name): readers, computed fields, captured HI halves. -/

namespace Sys2Proof.Machine

open Sys2Proof

/-- Codes of a package group's registers. -/
def groupCode (dies p c : Nat) : Bool :=
  match Reg.ofCode dies c with | some (.pmcgCfg q) => q == p | some (.pmcgMem q _ _) => q == p | _ => false

/-- Words 0-7 of an event record (R413). -/
def eventWord (e : Event) (i : Nat) : Word :=
  match i with
  | 0 => word e.seq
  | 1 => word e.frame
  | 2 => word (put 16 16 e.master.toNat + (match e.ten with | some t => 2 ^ 12 + put 8 4 t.toNat | none => 0) + e.code.toNat)
  | 3 => word (put 16 16 e.detail.toNat + e.task.toNat)
  | 4 => word e.addr.toNat
  | 5 => word (e.addr.toNat / 2 ^ 32)
  | 6 => e.obj
  | _ => e.aux

/-- EVLOG_CTL: LOST and DEPTH (R412). -/
def evlogCtlRead (s : State) (d : Nat) : Word := word (put 24 8 (rf s d .evlogCtl 24 8) + (eventsOf s d).length)

/-- HOST_IRQ_t: EVENT and SQUALL mirror the logs, for tenancy 0 (R400). -/
def hostIrqRead (s : State) (d w : Nat) : Word :=
  let r := Reg.hostIrq w
  let zero := w == 0
  word (put 8 6 (rf s d r 8 6) + (if zero then put 4 2 (rf s d r 4 2) + putB 3 (bit (squallCtlRead s d) 7)
    + putB 2 (!(eventsOf s d).isEmpty) else 0) + put 0 2 (rf s d r 0 2))

/-- The BTM asserts the interrupt of a host window (R400). -/
def irqAsserted (s : State) (d w : Nat) : Bool :=
  field (hostIrqRead s d w) 0 6 &&& field (hostIrqRead s d w) 8 6 != 0

/-- SQ_STAT and SQ_HEAD (R243). -/
def sqStatRead (s : State) (q : Nat) : Word :=
  let v := sqOf s q
  word (put 22 1 (rf s (qDie q) (.sqStat (qCl q) (qNo q)) 22 1) + put 16 6 v.givers.length + put 8 6 v.takers.length + put 0 6 v.count)
def sqHeadRead (s : State) (q : Nat) : Word := if (sqOf s q).count == 0 then 0 else (sqOf s q).headSlip

/-- CQ_STAT (R254). -/
def cqStatRead (s : State) (d k n : Nat) : Word :=
  let v := cqOf s (cqKey d k n)
  let st := match v.st with | .idle => 0 | .zeroing => 1 | .running => 2 | .complete => 3
  word (put 30 2 st + putB 29 v.fault + put 23 6 v.window.length + put 10 13 (if cqOrdered s d k n then v.next else 0) + min v.ovf 0x3FF)

/-- RS_STAT (R257). -/
def rsStatRead (s : State) (d i : Nat) : Word :=
  let v := rsOf s d i
  word (put 16 16 v.seq.toNat + putB 15 v.ready + putB 14 v.read + put 0 7 v.len)

/-- A word of a catalogue entry as CAT_VIEW shows it: an uncorrectable one as it stands in the array, with its flipped bits (R48, log 55). -/
def catSeen (s : State) (d e i : Nat) : Word :=
  if 2 ≤ catFlips s d e i then catW s d e i ^^^ word (SMap.get s.sup.catUpsets (4 * (4096 * d + e) + i) 0 % 2 ^ 32) else catW s d e i

/-- The value that a register shows to a window that may read it. WO fields and reserved fields read 0 (R6, R7). -/
def regValue (s : State) (d w : Nat) (r : Reg) : Word :=
  let half := fun (hi : Bool) (n : Nat) => word (if hi then n / 2 ^ 32 else n % 2 ^ 32)
  match r with
  | .rstStat => rstStatRead s d
  | .pkgTimeR hi => half hi s.pkgTime.toNat
  | .weedStat => weedStatRead s d
  | .hardenStat => hardenStatRead s d
  | .squallCtl => squallCtlRead s d
  | .squallHead hi => half hi (match squallsOf s d with | w :: _ => w.toNat | [] => 0)
  | .evlogCtl => evlogCtlRead s d
  | .evlogHead i => match eventsOf s d with | e :: _ => eventWord e i | [] => 0
  | .pwrDom n => pwrDomRead s d n
  | .baro n => baroRead s d n
  | .guestLim n => word (putB 16 ((guestEntries s).any (fun e => e.1 == d * 32 + n && guestOver s e)) + rf s d r 0 16)
  | .regBudget x => word (put 24 8 (rf s d r 24 8) + putB 23 (demoted s (identOf d x) false) + rf s d r 0 16)
  | .mergeStat k => word (put 0 7 (mergeOfCluster s d k).length)
  | .sqStat k q => sqStatRead s (d * 1024 + k * 64 + q)
  | .sqHead k q => sqHeadRead s (d * 1024 + k * 64 + q)
  | .cqStat k n => cqStatRead s d k n
  | .rsStat i => rsStatRead s d i
  | .pmcgCfg p => word (((copyView s d r).toNat ||| putB 22 (copyPending s d (groupCode s.dies p))))
  | .pmcgMem _ _ _ | .ballotCfg _ => copyView s d r
  | .ballotStat b => ballotStatRead s d w b
  | .ballotOdd b => ballotOddRead s d w b
  | .djobKey _ _ | .qopCmd _ => 0
  | .segCtl sg => segCtlRead s d sg
  | .dieCounter _ _ | .clusterCounter _ _ _ | .carrelCounter _ _ _ | .masterCounter _ _ _ | .segCounter _ _ _ => counterRead s d r
  | .catWord e i => (if i == 0 then setField (catSeen s d e i) 24 4 w else catSeen s d e i)
  | .hostIrq w => hostIrqRead s d w
  | _ => regGet s d r

/-- The window reads the register (R451, and where the field map names its readers). Its own command window it always reads. -/
def mayRead (s : State) (d w : Nat) (r : Reg) : Bool :=
  let owner := fun (b : Nat) => ownTen (regSeen s d (.bankOwn b))
  match r with
  | .dieSerial _ | .lcStat | .dieGrade | .rstStat | .fwStat | .pkgTimeR _ | .perfStat | .coreFenced _ => true
  | .cmdCtl v _ | .cmdArg v _ _ | .cmdSts v _ | .cmdRes v _ _ | .sideCtl v | .sideArg v | .sideSts v | .sideRes v _ | .cmdCnt v
  | .hostIrq v => v == w
  | .catWord e _ => (catRangeOf s d w).contains e
  | .tenStat t | .keyStat t | .stepHold t => w == 0 || w == t
  | .bankOwn b => w == 0 || w == owner b
  | .bankPwr b => w == owner b
  | .carrelCtl c => w == 0 || w == owner (512 * (c / 32) + 384 + 4 * (c % 32) + 3)
  | .sqStat k q | .sqHead k q => w == 0 || w == rf s d (.sqCfg k q) 16 4
  | .cqCtl k n | .cqNote k n | .cqStat k n => w == 0 || w == rf s d (.cqCfg k n) 19 4
  | .rsStat i => w == 0 || w == rf s d (.rsCfg (i / 16)) 16 4
  | .rwinCfg n | .rwinPeer n | .rwinExt n => w == 0 || routTen s d n == some w
  | .rinCfg n | .rinSrc n | .rinBuf n | .rinNote n | .rinHead n | .rinTail n => w == 0 || rinTen s d n == some w
  | .djobCfg n => w == 0 || djobTen s d n == some w
  | .ballotStat _ | .ballotOdd _ => true
  | _ => w == 0

/-- What a read of a register returns: 0 where its domain is not UP (R446), where it is unsafe (R319), and to a window that may not
read it. -/
def regRead (s : State) (d w : Nat) (r : Reg) : Word :=
  if regUp s d r && !isUnsafe s d r && mayRead s d w r then regValue s d w r else 0

/-- A word of the command-window pages, by its offset from 0x0001_4000: DATA, REPLY, ALMANAC (R455). -/
def pageWord (s : State) (d w o : Nat) : Word := word (leNat (pageRead s d w (o / 4096) (o % 4096) 4))

/-- An offset in a page of the command window. -/
def isPage (o : Nat) : Bool := o % 4 == 0 && 0x14000 ≤ o && o < 0x17000

/-- A read at an offset of supervisor space; an unmapped offset reads 0 (R446). -/
def offsetRead (s : State) (d w o : Nat) : Word :=
  if isPage o then pageWord s d w (o - 0x14000)
  else match Reg.decode s.dies w o with
    | some r => regRead s d w r
    | none => 0

/-! ### Register pairs (R448) -/

/-- Where a window's held LO, or captured HI, of a pair stands. -/
def pairKey (d w code : Nat) : Nat := (d * 16 + w) * 2 ^ 40 + code

/-- REGISTER_PAIR_READ: LO returns LO and captures HI; the next HI read of the window returns the captured half, where no other
access of the window to the pair came between. At an offset of no pair it is a plain read (DESIGN CHOICE, log 41). -/
def execRegisterPairRead (d : Die) (win : Win) (off : Word) (s : State) : Host.Outcome State Fault Refusal :=
  let n := d.toNat
  let w := win.toNat
  let o := off.toNat
  act s [n]
    (match (Reg.decode s.dies w o).bind (fun r => (Reg.pairOf r).map (fun p => (r, p))) with
     | none => s.emitOut (.regRead d win off (offsetRead s n w o))
     | some (r, p) =>
       let k := pairKey n w p.1
       if p.2 then
         let v := match SMap.find s.pairHi k with | some h => h | none => regRead s n w r
         { (s.emitOut (.regRead d win off v)) with pairHi := SMap.erase s.pairHi k }
       else
         let hi := offsetRead s n w (o + 4)
         { (s.emitOut (.regRead d win off (regRead s n w r))) with pairHi := SMap.set s.pairHi k hi })

end Sys2Proof.Machine
end

