-- ==== Sys2Proof/Machine/Supervisor.lean ====
section
/-! DEFINITION. The Cornak supervisor: command slots (R394-R400), the side slot (R404-R408), the almanac (R409-R411), the event log
(R412) and the stall watchdog (R415). -/

namespace Sys2Proof.Machine

open Sys2Proof

/-! ### The checks of every command (R399, R401, R405, R464) -/

/-- The bits that each argument word of an opcode uses; none for a reserved opcode. -/
def argMasks (op : Nat) : Option (List Nat) :=
  let all := 2 ^ 32 - 1
  match op with
  | 0x10 | 0x11 => some [0x3FFFF, 0x7FFFFFF]
  | 0x12 | 0x14 | 0x15 => some [0x3FFFF]
  | 0x13 => some [0x3FFFF, 0xF, 0xFFFFF, 0xFFFFF, 0xFFFFF, 0xFFFFF]
  | 0x16 => some [0xFFFF]
  | 0x20 => some [all, all, all, all]
  | 0x21 | 0x23 => some [0xFFFFF]
  | 0x22 => some [0xFFFFF, 0xFFFFFF83]
  | 0x28 => some [0x1FFF, all]
  | 0x29 => some [0x1FFF]
  | 0x2A => some [0x7FFF, 0x7F]
  | 0x2B => some [0x7FFF]
  | 0x2C => some [0x7FFF, 0xFFFF]
  | 0x30 | 0x31 => some [0xF]
  | 0x32 => some (0x1F :: List.replicate 12 all)
  | 0x33 => some [0x3F]
  | 0x35 => some [0xFFFF]
  | 0x34 | 0x38 | 0x39 | 0x3A | 0x3B | 0x41 | 0x4B | 0x61 => some []
  | 0x40 | 0x4A | 0x4C | 0x60 => some [7]
  | 0x42 | 0x52 => some [0x7FFFFFF]
  | 0x48 => some [0x13F]
  | 0x49 => some [0x3F]
  | 0x50 | 0x53 => some [0x3FF]
  | 0x51 => some [0xFF]
  | 0x54 => some [0xFFF]
  | 0x62 => some [3]
  | 0x70 | 0x72 | 0x73 | 0x75 | 0x76 => some []
  | 0x71 => some [0x3FF, all, all, all, all]
  | 0x74 => some [all, all]
  | _ => none

/-- A bit that the command does not use is set in an argument word. RESUME uses a handle word where its MASK bit is 1 (R401). -/
def strayArgs (s : State) (src : CmdSrc) (op : Nat) (masks : List Nat) : Bool :=
  (List.range src.args).any (fun n =>
    let used := if op == 0x13 && 2 ≤ n && n < 6 && cmdArgF s src 1 (n - 2) 1 == 0 then 0 else masks.getD n 0
    (cmdArg s src n).toNat &&& (2 ^ 32 - 1 - used) != 0)

/-- Class S: the always-complete set, PWR_DOWN with FORCE = 1 among it (R401, R404). -/
def classS (s : State) (src : CmdSrc) (op : Nat) : Bool :=
  op == 0x40 || op == 0x41 || op == 0x60 || op == 0x61 || op == 0x62 || (op == 0x48 && cmdArgF s src 0 8 1 == 1)

/-- Class B (R401). -/
def classB (op : Nat) : Bool :=
  [0x10, 0x11, 0x12, 0x14, 0x16, 0x23, 0x31, 0x38, 0x39, 0x3A, 0x3B, 0x42, 0x48, 0x49, 0x4A, 0x4C, 0x50, 0x51, 0x52, 0x53, 0x72, 0x74].contains op

/-- The opcodes that a core's slot takes (R464). -/
def coreOpcode (op : Nat) : Bool := (0x10 ≤ op && op ≤ 0x16) || op == 0x21 || op == 0x22

/-- The die of the context or handle that a command names, where it must be the slot's (R399). -/
def namedDie (s : State) (src : CmdSrc) (op : Nat) : Nat :=
  if op == 0x10 || op == 0x11 || op == 0x12 || op == 0x13 || op == 0x15 then cmdArgF s src 0 15 3
  else if op == 0x21 || op == 0x22 || op == 0x23 then cmdArgF s src 0 12 3
  else src.die

/-- The slot's opcode or argument words return BAD_ARG whatever the command does. -/
def malformed (s : State) (src : CmdSrc) : Bool :=
  let op := cmdOpcode s src
  match argMasks op with
  | none => true
  | some masks =>
    classS s src op != src.isSide || (src.win.isNone && !coreOpcode op) || strayArgs s src op masks || namedDie s src op != src.die

/-! ### Writes of a slot's registers (R395, R396) -/

/-- A write ignored under R396: it counts in MISUSE. -/
def misuse (s : State) (src : CmdSrc) : State :=
  cmdCount s src.die (cntWin s src) 1 7

/-- RELEASE: every register of the slot takes its reset value. -/
def releaseSlot (s : State) (src : CmdSrc) : State :=
  let d := src.die
  let s1 := (List.range src.args).foldl (fun s n => regReset s d (src.arg n)) (regReset (regReset s d src.ctl) d src.sts)
  (List.range src.results).foldl (fun s n => regReset s d (src.res n)) s1

/-- A side command enters the order of GO: of one cycle, in ascending tenancy, behind those that have begun (R406). -/
def sideInsert (s : State) (l : List (CmdSrc × Nat)) (src : CmdSrc) : List (CmdSrc × Nat) :=
  let later := fun (e : CmdSrc × Nat) => e.1.die == src.die && e.2 == s.now && src.win.getD 0 < e.1.win.getD 0 && !cmdOngoing s e.1
  l.takeWhile (fun e => !later e) ++ [(src, s.now)] ++ l.dropWhile (fun e => !later e)

/-- GO: the slot is QUEUED under the next SEQ, the first being 1 (DEDUCED, log 42); a side slot is RUNNING at once, and completes at once
where it returns BAD_ARG (R396, R405). -/
def goSlot (s : State) (src : CmdSrc) : State :=
  let d := src.die
  if src.isSide then
    let s1 := (regField s d src.ctl 30 2 2).onSup (fun u => { u with
      sideOrder := sideInsert s u.sideOrder src, cmds := u.cmds ++ [(src, .dispatched)] })
    if malformed s1 src then endCmd s1 src Code.badArg else s1
  else
    let n := (SMap.get s.sup.nextSeq (seqKey src) 0 + 1) % 65536
    (regField (regField s d src.ctl 8 16 n) d src.ctl 30 2 1).onSup (fun u => { u with
      nextSeq := SMap.set u.nextSeq (seqKey src) n, queued := u.queued ++ [(src, s.now)] })

/-- A write of CMD_CTL, SIDE_CTL or STREAM_CMD_CTL. -/
def ctlWrite (s : State) (src : CmdSrc) (v : Word) : State :=
  let go := bit v 29
  let rel := bit v 28
  let st := cmdState s src
  if rel && !go && st == 3 then releaseSlot s src
  else if !rel && st == 0 then
    let s1 := regField (regField s src.die src.ctl 27 1 (field v 27 1)) src.die src.ctl 0 8 (field v 0 8)
    if go then goSlot s1 src else s1
  else misuse s src

/-- A write of an argument word. -/
def argWrite (s : State) (src : CmdSrc) (n : Nat) (v : Word) : State :=
  if cmdState s src == 0 then regSet s src.die (src.arg n) v else misuse s src

/-- The registers of the slot can be reached: a core's lie in its hall (R464). -/
def slotUp (s : State) (src : CmdSrc) : Bool := regUp s src.die src.ctl

/-- CMD_GO: a write of CMD_CTL or STREAM_CMD_CTL with GO = 1. -/
def execCmdGo (src : CmdSrc) (val : Word) (s : State) : Host.Outcome State Fault Refusal :=
  act s [src.die] (if bit val 29 && !src.isSide && slotUp s src then ctlWrite s src val else s)

/-- SIDE_GO: a write of SIDE_CTL with GO = 1. -/
def execSideGo (d : Die) (win : Win) (val : Word) (s : State) : Host.Outcome State Fault Refusal :=
  act s [d.toNat] (if bit val 29 then ctlWrite s (.side d win) val else s)

/-- CMD_RELEASE: a write with RELEASE = 1. -/
def execCmdRelease (src : CmdSrc) (val : Word) (s : State) : Host.Outcome State Fault Refusal :=
  act s [src.die] (if bit val 28 && slotUp s src then ctlWrite s src val else s)

/-- A write of CMD_CNT: CLR (R399). -/
def cmdCntWrite (s : State) (d w : Nat) (v : Word) : State := if bit v 0 then regReset s d (.cmdCnt w) else s

/-- CMD_CNT_CLR. -/
def execCmdCntClr (d : Die) (win : Win) (s : State) : Host.Outcome State Fault Refusal := act s [d.toNat] (cmdCntWrite s d.toNat win.toNat 1)

/-! ### Dispatch (R397, R398, R423) -/

/-- The commands of a window that are RUNNING, with their opcodes. -/
def runningOf (s : State) (d w : Nat) : List (CmdProgress × Nat) :=
  (s.sup.cmds.filter (fun c => c.1.die == d && c.1.win == some w && !c.1.isSide)).map (fun c => (c.2, cmdOpcode s c.1))

/-- The oldest QUEUED slot of a window. -/
def oldestQueued (s : State) (d w : Nat) : Option CmdSrc :=
  (s.sup.queued.find? (fun c => c.1.die == d && c.1.win == some w)).map (·.1)

/-- The command writes the REPLY page (R398, R401, R437). -/
def writesReply (op : Nat) : Bool := op == 0x2B || op == 0x34 || op == 0x35 || op == 0x73

/-- The command takes input from the DATA page (R401, R437). -/
def takesData (op : Nat) : Bool := op == 0x2A || op == 0x34 || op == 0x70 || op == 0x71

/-- A COMPLETE slot of the window whose command wrote the REPLY page, so ended with DONE, holds the page (R398). -/
def replyHeld (s : State) (d w : Nat) : Bool :=
  (List.range 64).any (fun i => rf s d (.cmdCtl w i) 30 2 == 3 && writesReply (rf s d (.cmdCtl w i) 0 8)
    && stCode (regGet s d (.cmdSts w i)) == Code.done)

/-- The window's oldest QUEUED command may be dispatched: no class Q command of the window runs, fewer than 8 class B commands
do where it is one, and nobody holds the REPLY page where it writes it. -/
def mayDispatch (s : State) (d w : Nat) : Bool :=
  match oldestQueued s d w with
  | none => false
  | some src =>
    let op := cmdOpcode s src
    let run := runningOf s d w
    !run.any (fun r => r.1 == .dispatched || !classB r.2) && !(classB op && 8 ≤ run.length) && !(writesReply op && replyHeld s d w)

/-- The window whose turn it is: the next in ascending order after the last one that may be served. -/
def windowInTurn (s : State) (d : Nat) : Option Nat :=
  let last := SMap.get s.sup.turn d 15
  ((List.range 16).map (fun i => (last + 1 + i) % 16)).find? (mayDispatch s d)

/-- The supervisor of the die dispatches: start-up has reached phase 8 or 9, and no life-cycle transition runs (R339, R423). -/
def supervisorUp (s : State) (d : Nat) : Bool :=
  let b := bootOf s d
  !b.asserted && (b.phase == 8 || b.phase == 9) && (SMap.find s.security.lcBusy d).isNone

/-- A slot's command is the next to be dispatched. A core's command needs its hall alone. -/
def inTurn (s : State) (src : CmdSrc) : Bool :=
  match src with
  | .slot d w _ => supervisorUp s d.toNat && windowInTurn s d.toNat == some w.toNat && oldestQueued s d.toNat w.toNat == some src
  | .core _ _ => s.sup.queued.any (fun c => c.1 == src) && slotUp s src
  | .side _ _ => false

/-- CMD_DISPATCH: one command of one window, in turn, which reads its DATA page (R398); a malformed one ends at once. A dispatch ends the stall watchdog's hold (R415). -/
def execCmdDispatch (src : CmdSrc) (s : State) : Host.Outcome State Fault Refusal :=
  let d := src.die
  act s [d]
    (if !inTurn s src then s
     else
       let s1 := (regField s d src.ctl 30 2 2).onSup (fun u => { u with
         queued := u.queued.filter (fun c => c.1 != src),
         cmds := u.cmds ++ [(src, .dispatched)],
         inputs := match src.win with
           | some w => if takesData (cmdOpcode s src) then u.inputs ++ [(src, pageRead s d w 0 0 4096)] else u.inputs
           | none => u.inputs,
         turn := match src.win with | some w => SMap.set u.turn d w | none => u.turn,
         lastDispatch := if src.win.isSome then SMap.set u.lastDispatch d s.now else u.lastDispatch,
         stalled := if src.win.isSome then u.stalled.filter (· != d) else u.stalled })
       if malformed s1 src then endCmd s1 src Code.badArg else s1)

/-- SUP_STALL: 2^20 control-clock cycles, of 2 cc each, with a QUEUED slot and without a dispatch (R415). -/
def execSupStall (d : Die) (s : State) : Host.Outcome State Fault Refusal :=
  let n := d.toNat
  let b := bootOf s n
  act s [n]
    (match s.sup.queued.find? (fun c => c.1.die == n && c.1.win.isSome) with
     | none => s
     | some (src, t) =>
       if s.sup.stalled.contains n || b.asserted || b.phase < 8 || 9 < b.phase then s
       else atCycle s (max s.now (max t (SMap.get s.sup.lastDispatch n 0) + 2 ^ 21)) (fun s =>
         let s1 := logEvent s n (ev 0x1D (src.win.getD 0) (rf s n src.ctl 8 16))
         setIrq (s1.onSup (fun u => { u with stalled := n :: u.stalled })) n 0 5))

/-! ### The side slot (R404-R408) -/

/-- Every segment of a list is frozen and DRAINED. -/
def allDrained (s : State) (l : List Nat) : Bool := l.all (drained s)

/-- DRAIN_STAT. -/
def execDrainStat (src : CmdSrc) (s : State) : Host.Outcome State Fault Refusal :=
  cmdAct s src 0x61 (fun s =>
    let d := src.die
    let segs := dieSegs s d
    let fz := segs.filter (frozen s)
    let stuck := segs.any (fun sg => bit (regGet s d (.segCtl (sg % 65536))) 1)
    let spokes := segs.filter (fun sg => segKind sg == 4 || segKind sg == 5)
    let lanes := segs.filter (fun sg => segKind sg == 6)
    let clusters := ((List.range 16).map (fun k =>
      putB k (allDrained s ((clusterSegs s d k).filter (fun sg => segKind sg < 4))))).foldl (· + ·) 0
    if notZero src then endCmd s src Code.denied
    else completeCmd s src (stWord Code.done)
      [put 16 16 fz.length + put 0 16 (fz.filter (fun sg => !drained s sg)).length,
       putB 18 stuck + putB 17 (allDrained s lanes) + putB 16 (allDrained s spokes) + clusters])

/-! ### The almanac (R409-R411) -/

/-- Little-endian words of registers, as a window of tenancy 0 reads them: 0 where their domain is not UP. -/
def regBytes (s : State) (d : Nat) (l : List Reg) : List Byte := l.flatMap (fun r => leBytes 4 (regRead s d 0 r).toNat)

/-- A field marked 0: it reads 0 for an issuer other than tenancy 0. -/
def zeroView (t n : Nat) (l : List Byte) : List Byte := if t == 0 then l else List.replicate n 0

/-- An object of tenancy `owner` shown to the issuer t (Own). -/
def ownView (t : Nat) (owner : Option Nat) (v : Nat) : Nat := if t == 0 || owner == some t then v else 0

/-- Bits packed into bytes, the first in bit 0. -/
def packBits (n w : Nat) (f : Nat → Nat) : List Byte :=
  (List.range n).map (fun i => BitVec.ofNat 8 (((List.range (8 / w)).map (fun j => (f (8 / w * i + j)) % 2 ^ w * 2 ^ (w * j))).foldl (· + ·) 0))

/-- The firmware identity (R410, R435). -/
def firmwareIdentity (s : State) (d : Nat) : List Byte :=
  let f := flashOf s d
  leBytes 8 f.activeVersion ++ leBytes 8 (if fwState s d == 0 then 0 else f.stagedVersion) ++ leBytes 8 (armedTime s d)
    ++ leBytes 4 (fwState s d + 16 * rf s d .fwStat 24 4) ++ List.replicate 36 0

/-- Word 0x028: bypasses, the ready report, the stall watchdog. -/
def almanacFlags (s : State) (d : Nat) : Nat :=
  ((List.range 8).map (fun e => putB e (dieOpen s e))).foldl (· + ·) 0 + putB 8 (bootOf s d).ready + putB 9 (s.sup.stalled.contains d)

/-- A context's record where it is stopped (R411). -/
def stoppedRecord (e : CtxId × Ctx) : List Byte :=
  let halted := e.2.st == .halted
  leBytes 4 (e.1.toNat + 2 ^ 18 * (if halted then 3 else 5) + 2 ^ 21 * (if halted then e.2.hcause.toNat else e.2.acause.toNat))
    ++ leBytes 2 e.2.task.toNat ++ leBytes 2 e.2.stopFrame

/-- The stopped contexts that the issuer sees, newest first. -/
def stoppedRecords (s : State) (d t : Nat) : List Byte :=
  let mine := (allCtxs s).filter (fun e => ctxDie e.1 == d && (e.2.st == .halted || e.2.st == .aborted) && (t == 0 || ctxTen s e.1 == t))
  fit 256 ((sortBy (fun (a b : CtxId × Ctx) => b.2.stopAt ≤ a.2.stopAt) mine).take 32 |>.flatMap stoppedRecord)

/-- Contexts of cluster k in state i, or with a shadow, that the issuer sees. -/
def ctxCount (s : State) (d t k i : Nat) : Nat :=
  let have_ := hallCtxs s d k
  let seen := fun (n : Nat) => t == 0 || ctxTenOf s d k n == some t
  let listed := (have_.filter (fun e => seen (ctxSlot e.1) && (if i == 6 then e.2.shadow.isSome else e.2.st.code == i))).length
  if i == 0 then ((List.range 2048).filter (fun n => seen n && !have_.any (fun e => ctxSlot e.1 == n))).length + listed
  else if i == 7 then 0 else listed

/-- Slip queues, combining queues and result slots as the almanac shows them. -/
def almanacSlipq (s : State) (d t i : Nat) : Nat :=
  let cfg := sqReg s (d * 1024 + i)
  let v := sqOf s (d * 1024 + i)
  ownView t (some (field cfg 16 4)) (put 0 6 v.count + putB 6 (bit cfg 23) + putB 7 (!v.takers.isEmpty || !v.givers.isEmpty))
def almanacComb (s : State) (d t i : Nat) : Nat :=
  let cfg := cqReg s d (i / 16) (i % 16)
  let st := cqStatRead s d (i / 16) (i % 16)
  ownView t (some (field cfg 19 4)) (put 14 2 (field st 30 2) + put 13 1 (field st 29 1) + putB 12 (bit cfg 23)
    + putB 11 (cqOrdered s d (i / 16) (i % 16)) + put 5 6 (field st 23 6))
def almanacReady (s : State) (d t i : Nat) : Nat := ownView t (some (rf s d (.rsCfg (i / 16)) 16 4)) (if (rsOf s d i).ready then 1 else 0)

/-- The sum of live counters of a die, by their indices (R410). -/
def liveSum (s : State) (d : Nat) (p : Reg → Bool) : Nat :=
  (s.fabric.counters.filter (fun e => match keyReg s e.1 with | some (x, r) => x == d && p r | none => false)).foldl (fun n e => n + e.2) 0

/-- UNCORR of every bank of a die, added up. -/
def uncorrSum (s : State) (d : Nat) : Nat :=
  s.regs.foldl (fun n e => match keyReg s e.1 with | some (x, .bankEcnt _) => if x == d then n + field e.2 8 8 else n | _ => n) 0

/-- Banks of a die with TEN t; a bank that no write has reached is of tenancy 0. -/
def banksWith (s : State) (d t : Nat) : Nat := ((List.range 8192).filter (fun b => ownTen (regGet s d (.bankOwn b)) == t)).length

/-- The issuer's command window: CMD_CNT, slots by STATE, class B commands in progress. -/
def windowBytes (s : State) (d w : Nat) : List Byte :=
  let states := (List.range 64).map (fun i => rf s d (.cmdCtl w i) 30 2)
  leBytes 4 (regGet s d (.cmdCnt w)).toNat ++ (List.range 4).map (fun x => BitVec.ofNat 8 (states.filter (· == x)).length)
    ++ [BitVec.ofNat 8 ((runningOf s d w).filter (fun r => r.1 == .inProgress && classB r.2)).length] ++ List.replicate 15 0

/-- The almanac of die d for the issuer t (R410). Its window is taken as the captured die's window t (DEDUCED, log 42). -/
def almanacBytes (s : State) (d t : Nat) : List Byte :=
  leBytes 2 1 ++ [BitVec.ofNat 8 d, BitVec.ofNat 8 t] ++ leBytes 4 (SMap.get s.sup.almanacCount d 0 + 1) ++ leBytes 8 (frameCount s)
  ++ regBytes s d [.dieSerial false, .dieSerial true, .lcStat, .dieGrade, .perfStat, .remNode] ++ leBytes 4 (almanacFlags s d)
  ++ zeroView t 20 (regBytes s d [.secAlarm, .hardenStat, .weedStat, .scanStat, .squallCtl])
  ++ firmwareIdentity s d
  ++ (List.range 6).flatMap (measBytes s d)
  ++ zeroView t 192 (regBytes s d ((List.range 48).map .pwrDom))
  ++ zeroView t 160 (regBytes s d ((List.range 40).map .baro))
  ++ zeroView t 160 (regBytes s d ((List.range 40).map .marchStat))
  ++ (List.range 16).flatMap (fun i => leBytes 4 (ownView t (some i) (regGet s d (.tenStat i)).toNat))
  ++ (List.range 16).flatMap (fun i => leBytes 4 (ownView t (some i) (regGet s d (.keyStat i)).toNat))
  ++ (List.range 16).flatMap (fun i => leBytes 2 (ownView t (some i) (banksWith s d i)))
  ++ zeroView t 8 (leBytes 4 (match (eventsOf s d).getLast? with | some e => e.seq | none => 0)
      ++ leBytes 2 (eventsOf s d).length ++ leBytes 2 (rf s d .evlogCtl 24 8))
  ++ windowBytes s d t
  ++ (List.range 16).flatMap (fun k => (List.range 8).flatMap (fun i => leBytes 2 (ctxCount s d t k i)))
  ++ stoppedRecords s d t
  ++ packBits 128 1 (fun n => if domUp s d 46 then ownView t (routTen s d n) (rf s d (.rwinCfg n) 23 1) else 0)
  ++ packBits 256 2 (fun n => if domUp s d 46 then ownView t (rinTen s d n) (rinState s d n) else 0)
  ++ (List.range 1024).map (fun i => BitVec.ofNat 8 (almanacSlipq s d t i))
  ++ (List.range 256).flatMap (fun i => leBytes 2 (almanacComb s d t i))
  ++ packBits 512 1 (almanacReady s d t)
  ++ zeroView t 32 (
    leBytes 8 (liveSum s d (fun r => match r with | .masterCounter _ 7 _ => true | _ => false))
    ++ leBytes 8 (liveSum s d (fun r => match r with | .masterCounter _ 8 _ => true | _ => false))
    ++ leBytes 8 (liveSum s d (fun r => match r with | .segCounter _ i _ => 8 ≤ i && i ≤ 12 | _ => false))
    ++ leBytes 8 (uncorrSum s d))

/-- A die has produced one more almanac. -/
def countAlmanac (s : State) (d : Nat) : State := s.onSup (fun u => { u with almanacCount := SMap.upd u.almanacCount d 0 (· + 1) })

/-- ALMANAC: of the own die at once, of another die by a request on the service ring. -/
def execAlmanac (src : CmdSrc) (s : State) : Host.Outcome State Fault Refusal :=
  cmdAct s src 0x60 (fun s =>
    let d := src.die
    let w := src.win.getD 0
    let e := cmdArgF s src 0 0 3
    cmdChecked s src [(!s.present e, Code.badArg), (e != d && !(dieOpen s e && dieOpen s d), Code.fenced)] (fun s =>
      if e == d then endCmd (countAlmanac (pageWrite s d w 2 0 (almanacBytes s d w)) d) src Code.done
      else (continueCmd s src).onSup (fun u => { u with almanacs := u.almanacs ++ [⟨e, d, w, none⟩] })))

/-- ALMANAC_REMOTE_CAPTURE: the named die's side controller captures. -/
def execAlmanacRemoteCapture (d origin : Die) (win : Win) (s : State) : Host.Outcome State Fault Refusal :=
  let mine : AlmanacWord → Bool := fun a => a.target == d.toNat && a.origin == origin.toNat && a.win == win.toNat && a.data.isNone
  act s [d.toNat, origin.toNat]
    (if s.sup.almanacs.any mine && dieOpen s d.toNat then
       let bytes := almanacBytes s d.toNat win.toNat
       (countAlmanac s d.toNat).onSup (fun u => { u with
         almanacs := u.almanacs.map (fun a => if mine a then { a with data := some bytes } else a) })
     else s)

/-- ALMANAC_REPLY_RECEIVE: the page is written, and the side command completes; where a bypass has closed meanwhile it returns FENCED
(R409). -/
def execAlmanacReplyReceive (d : Die) (win : Win) (s : State) : Host.Outcome State Fault Refusal :=
  let src := CmdSrc.side d win
  let mine : AlmanacWord → Bool := fun a => a.origin == d.toNat && a.win == win.toNat
  act s [d.toNat]
    (match s.sup.almanacs.find? mine with
     | some a =>
       if a.data.isNone && dieOpen s a.target && dieOpen s d.toNat then s
       else
         let s1 := s.onSup (fun u => { u with almanacs := u.almanacs.filter (fun a => !mine a) })
         if cmdOngoing s src && cmdOpcode s src == 0x60 then
           (match a.data with
            | some bytes => endCmd (pageWrite s1 d.toNat win.toNat 2 0 bytes) src Code.done
            | none => endCmd s1 src Code.fenced)
         else s1
     | none => s)

/-! ### The event log (R412) -/

/-- The oldest record of the event log removed. A record that the full log has discarded in this cycle is stored after all (R412);
`cleared` says that the same write sets LOST to 0. -/
def popEvent (s : State) (d : Nat) (cleared : Bool) : State :=
  let m := SMap.get s.sup.eventNow d ⟨0, 0, []⟩
  match m.dropped with
  | e :: rest =>
    if m.cycle = s.now && (eventsOf s d).length = 512 then
      let s1 := s.onSup (fun u => { u with
        events := SMap.set u.events d ((eventsOf s d).drop 1 ++ [e]), eventNow := SMap.set u.eventNow d { m with dropped := rest } })
      if cleared || rf s d .evlogCtl 24 8 == 0 then s1 else regField s1 d .evlogCtl 24 8 (min 255 (m.lost + rest.length))
    else s.onSup (fun u => { u with events := SMap.set u.events d ((eventsOf s d).drop 1) })
  | [] => s.onSup (fun u => { u with events := SMap.set u.events d ((eventsOf s d).drop 1) })

/-- A write of EVLOG_CTL. -/
def evlogCtlWrite (s : State) (d w : Nat) (v : Word) : State :=
  if w != 0 then s
  else
    let s1 := if bit v 11 then regField s d .evlogCtl 24 8 0 else s
    if bit v 10 then popEvent s1 d (bit v 11) else s1

/-- EVLOG_POP. -/
def execEvlogPop (d : Die) (win : Win) (s : State) : Host.Outcome State Fault Refusal := act s [d.toNat] (evlogCtlWrite s d.toNat win.toNat 0x400)

/-- EVLOG_CLR_LOST. -/
def execEvlogClrLost (d : Die) (win : Win) (s : State) : Host.Outcome State Fault Refusal := act s [d.toNat] (evlogCtlWrite s d.toNat win.toNat 0x800)

end Sys2Proof.Machine
end

