-- ==== Sys2Proof/Machine/RegWrite.lean ====
section
/-! DEFINITION. What a register write does (R445-R464): the writers and checks that each register's owning chapter gives, and the
register pairs. -/

namespace Sys2Proof.Machine

open Sys2Proof

/-! ### Registers of tenancy 0 -/

/-- A write of a register with LAST in bits [31:24] and the statuses DONE and DENIED: tenancy 0 writes the bits below `n`
(R313, R321, R360, R384). -/
def plainLast (s : State) (d w : Nat) (r : Reg) (n : Nat) (v : Word) : State :=
  if w != 0 then regField s d r 24 8 Code.denied else regSet s d r (word (field v 0 n))

/-- A write of a register that tenancy 0 writes and that has no LAST. -/
def plainZero (s : State) (d w : Nat) (r : Reg) (v : Nat) : State := if w != 0 then s else regSet s d r (word v)

/-- SEC_POLICY (R342, R6): written in MANUFACTURE alone; a later write is a LOCKED_WRITE. -/
def secPolicyWrite (s : State) (d w : Nat) (v : Word) : State :=
  if lifeCycle s d != 0 then logEvent s d (ev 0x01 Reg.secPolicy.code v.toNat)
  else plainZero s d w .secPolicy (field v 0 9)

/-- SEC_ALARM (R344): SW, and every SRC bit whose source is not live. -/
def secAlarmWrite (s : State) (d w : Nat) (v : Word) : State :=
  if w != 0 then s
  else
    clearByOnes s d .secAlarm 0 5 (field v 0 5 &&& (31 - rf s d .secAlarm 16 4))

/-- REM_NODE (R261). -/
def remNodeWrite (s : State) (d w : Nat) (v : Word) : State :=
  let node := field v 0 15
  if 24575 < node && node != 0x7FFF then refuseLast s d .remNode Code.badArg none
  else if w != 0 then refuseLast s d .remNode Code.denied none
  else hardSet s d .remNode (word node)

/-- HOST_IRQ of the window itself (R400). -/
def hostIrqWrite (s : State) (d w : Nat) (v : Word) : State :=
  let r := Reg.hostIrq w
  let s1 := regField s d r 8 6 (field v 8 6)
  let s2 := clearByOnes s1 d r 0 2 (field v 0 2)
  if w == 0 then clearByOnes s2 d r 4 2 (field v 4 2) else s2

/-- XCHK_STAT: PERS and TRANS are cleared by 1 (R313). -/
def xchkStatWrite (s : State) (d w : Nat) (v : Word) : State :=
  if w != 0 then s else clearByOnes s d .xchkStat 30 2 (field v 30 2)

/-- RAW_CMD (R170). OP 0b00 is no action; a write from another window is DENIED. -/
def rawCmdRegWrite (s : State) (d w : Nat) (v : Word) : State :=
  match field v 0 2 with
  | 1 => rawCmdWrite s d w .read
  | 2 => rawCmdWrite s d w .write
  | 3 => rawCmdWrite s d w .sealMark
  | _ => if w != 0 then rawLast s d Code.denied else s

/-- BANK_ECNT.CLR (R171). -/
def ecntWrite (s : State) (d w b : Nat) (v : Word) : State := if w == 0 && bit v 0 then regSet s d (.bankEcnt b) 0 else s

/-! ### Ranges of tenancies (R47, R174, R262, R297, R62) -/

/-- The numbers a range register's fields take in: COUNT is `c` bits from bit 16, BASE `b` bits from bit 0. -/
def rangeHolds (c b : Nat) (w : Word) (n : Nat) : Bool := inRange (field w 0 b) (field w 16 c) n

/-- A write of a range register. `limit` objects stand in the partition; `live` are the objects in use; `other` is the same
register of another tenancy. The refusals have no LAST to stand in and are logged (R47). -/
def rangeWrite (s : State) (d w t : Nat) (reg : Nat → Reg) (c b limit : Nat) (live : List Nat) (v : Word) : State :=
  let r := reg t
  let base := field v 0 b
  let count := field v 16 c
  let old := regSeen s d r
  let overlaps := (List.range 16).any (fun u =>
    let o := regGet s d (reg u)
    u != t && count != 0 && field o 16 c != 0 && base < field o 0 b + field o 16 c && field o 0 b < base + count)
  let leavesOut := live.any (fun n => rangeHolds c b old n && !inRange base count n)
  if limit < base + count then logRefused s d r Code.badArg (some t)
  else if w != 0 then logRefused s d r Code.denied (some t)
  else if overlaps || leavesOut then logRefused s d r Code.state (some t)
  else hardSet s d r (word (put 16 c count + base))

/-- Context slots of a cluster that are not IDLE (R174). -/
def liveSlots (s : State) (d k : Nat) : List Nat :=
  ((hallCtxs s d k).filter (fun e => e.2.st != .idle)).map (fun e => ctxSlot e.1)

/-- Enabled digest-key entries; enabled outbound windows; inbound windows that are not CLOSED (R262, R297). -/
def liveJobs (s : State) (d : Nat) : List Nat :=
  (enabledRegs s d (fun _ => true)).filterMap (fun r => match r with | .djobCfg n => some n | _ => none)
def liveRout (s : State) (d : Nat) : List Nat :=
  (enabledRegs s d (fun _ => true)).filterMap (fun r => match r with | .rwinCfg n => some n | _ => none)
def liveRin (s : State) (d : Nat) : List Nat := (List.range 1024).filter (fun n => rinState s d n != 0)

/-- STORE_RANGE (R62). -/
def storeRangeWrite (s : State) (d w p t : Nat) (v : Word) : State :=
  let r := Reg.storeRange p t
  if w != 0 then logRefused s d r Code.denied (some t) else hardSet s d r v

/-! ### Tags and groups (R325, R175) -/

/-- CORE_TEN or STEW_TEN; `core` names the core of CORE_TEN. -/
def tagWrite (s : State) (d w : Nat) (r : Reg) (core : Option Nat) (v : Word) : State :=
  let t := field v 0 4
  let busy := match core with
    | some c => carrelState s d c != 0 || coreOpFlight s d c
    | none => false
  let fenced := match core with | some c => coreFenced s d c | none => false
  let old := some (field (regSeen s d r) 0 4)
  if w != 0 then refuseLast s d r Code.denied old
  else if t != 0 && tenState s d t == 0 then refuseLast s d r Code.state old
  else if busy then refuseLast s d r Code.state old
  else if fenced then refuseLast s d r Code.fenced old
  else hardSet s d r (word t)

/-- GROUP_CFG (R175): a change of EN or TEN waits until no live context is bound to the group. -/
def groupWrite (s : State) (d w k g : Nat) (v : Word) : State :=
  let r := Reg.groupCfg k g
  let old := regSeen s d r
  let bound := (hallCtxs s d k).any (fun e => e.2.group.toNat == g && e.2.st != .idle && e.2.st != .done && e.2.st != .aborted)
  if w != 0 then refuseLast s d r Code.denied (some (field old 0 4))
  else if (field v 16 1 != field old 16 1 || field v 0 4 != field old 0 4) && bound then
    refuseLast s d r Code.state (some (field old 0 4))
  else hardSet s d r (word (put 16 1 (field v 16 1) + field v 0 4))

/-! ### Masters, guests and reservations (R104, R109, R120, R127) -/

/-- BURST_LIMIT (R109, R461). -/
def burstWrite (s : State) (d w x : Nat) (v : Word) : State :=
  let r := Reg.burstLimit x
  let st := masterStatus s d x
  if st == Code.badArg then logRefused s d r Code.badArg none
  else if w != 0 then logRefused s d r Code.denied none
  else if st != Code.done then logRefused s d r st none
  else hardSet s d r (word (field v 0 6))

/-- REG_BUDGET (R120): in force at the next window edge. -/
def budgetWrite (s : State) (d w x : Nat) (v : Word) : State :=
  let r := Reg.regBudget x
  let st := masterStatus s d x
  if st == Code.badArg then refuseLast s d r Code.badArg none
  else if w != 0 then refuseLast s d r Code.denied none
  else if st != Code.done then refuseLast s d r st none
  else hardSet s d r (word (field v 0 16))

/-- The words of guest entry n of a die go to every ring stop: in force at the second window edge (R128). -/
def guestSend (s : State) (d n : Nat) : State :=
  s.onFabric (fun f => { f with guestPending := f.guestPending ++
    [⟨d * 32 + n, regGet s d (.guestId n), regGet s d (.guestLim n), 2⟩] })

/-- A refused write of a guest register: LAST stands in REG_GUEST_ID (R127). -/
def guestRefuse (s : State) (d n : Nat) (r : Reg) (code : Nat) : State :=
  logRefused (regField s d (.guestId n) 16 8 code) d r code none

/-- REG_GUEST_ID_n (R127). -/
def guestIdWrite (s : State) (d w n : Nat) (v : Word) : State :=
  let r := Reg.guestId n
  let en := bit v 31
  let home := field v 12 3
  let m := field v 0 12
  let twice := (List.range 32).any (fun i => i != n && rf s d (.guestId i) 31 1 == 1 && rf s d (.guestId i) 0 15 == field v 0 15)
  if en && (!s.present home || home == d || twice || !assigned m) then guestRefuse s d n r Code.badArg
  else if w != 0 then guestRefuse s d n r Code.denied
  else if en && masterStatus s home m == Code.fenced then guestRefuse s d n r Code.fenced
  else guestSend (hardSet s d r (word (put 31 1 (field v 31 1) + field v 0 15))) d n

/-- REG_GUEST_LIM_n (R127). -/
def guestLimWrite (s : State) (d w n : Nat) (v : Word) : State :=
  let r := Reg.guestLim n
  if w != 0 then guestRefuse s d n r Code.denied
  else guestSend (regField (hardSet s d r (word (field v 0 16))) d (.guestId n) 16 8 Code.done) d n

/-- SLOT_RESV of position k (R104). -/
def resvWrite (s : State) (d w sg k : Nat) (v : Word) : State :=
  let r := Reg.slotResv sg k
  let en := bit v 31
  let home := field v 12 3
  let m := field v 0 12
  let remote := m == 0x800 || m == 0x801
  let misplaced :=
    if segSplit sg then remote != (posClass k == 2)
    else segKind sg == 1 && k % 4 != 0
  let refuse := fun (c : Nat) => logRefused (regField s d r 16 8 c) d r c none
  if en && (!s.present home || misplaced || !assigned m) then refuse Code.badArg
  else if w != 0 then refuse Code.denied
  else if en && masterStatus s home m == Code.fenced then refuse Code.fenced
  else hardSet s d r (word (put 31 1 (field v 31 1) + field v 0 15))

/-! ### A write by a host window (R445, R446, R449) -/

/-- A write of one register by host window `w`. A register whose field map has only RO fields takes no write (R6). -/
def windowWrite (s : State) (d w : Nat) (v : Word) (r : Reg) : State :=
  let die := BitVec.ofNat 3 d
  let win := BitVec.ofNat 4 w
  match r with
  | .secPolicy => secPolicyWrite s d w v
  | .secAlarm => secAlarmWrite s d w v
  | .rstCtl => rstCtlWrite s d w v
  | .pwrTimer => plainLast s d w r 24 v
  | .wdogCtl => plainZero s d w r (put 31 1 (field v 31 1) + field v 0 16)
  | .perfCtl => perfCtlWrite s d w v
  | .remNode => remNodeWrite s d w v
  | .marchCtl => plainLast s d w r 2 v
  | .xchkCtl => plainLast s d w r 4 v
  | .xchkStat => xchkStatWrite s d w v
  | .baroCfg => plainLast s d w r 24 v
  | .squallCtl => squallCtlWrite s d w v
  | .evlogCtl => evlogCtlWrite s d w v
  | .rawTa => plainZero s d w r (field v 0 27)
  | .rawCheck _ | .rawData _ => plainZero s d w r v.toNat
  | .rawCmd => rawCmdRegWrite s d w v
  | .pwrDom n => pwrDomWrite s d w n v
  | .guestId n => guestIdWrite s d w n v
  | .guestLim n => guestLimWrite s d w n v
  | .catRange t => rangeWrite s d w t .catRange 13 12 4096 (liveEntries s d ++ takenEntries s d) v
  | .djobRange t => rangeWrite s d w t .djobRange 9 8 256 (liveJobs s d) v
  | .routRange t => rangeWrite s d w t .routRange 11 10 1024 (liveRout s d) v
  | .rinRange t => rangeWrite s d w t .rinRange 11 10 1024 (liveRin s d) v
  | .ctxRange k t => rangeWrite s d w t (.ctxRange k) 12 11 2048 (liveSlots s d k) v
  | .stepHold t => stepHoldWrite s d w t v
  | .storeRange p t => storeRangeWrite s d w p t v
  | .stewTen _ => tagWrite s d w r none v
  | .coreTen c => tagWrite s d w r (some c) v
  | .barrierCfg _ => plainZero s d w r (put 16 16 (field v 16 16) + field v 0 13)
  | .cmdCtl _ i => ctlWrite s (.slot die win (BitVec.ofNat 6 i)) v
  | .cmdArg _ i n => argWrite s (.slot die win (BitVec.ofNat 6 i)) n v
  | .sideCtl _ => ctlWrite s (.side die win) v
  | .sideArg _ => argWrite s (.side die win) 0 v
  | .cmdCnt _ => cmdCntWrite s d w v
  | .hostIrq _ => hostIrqWrite s d w v
  | .mergeCtl k => mergeCtlWrite s d w k v
  | .groupCfg k g => groupWrite s d w k g v
  | .carrelCtl c => carrelCtlWrite s d c (.window win) v
  | .sqCfg _ _ | .cqCfg _ _ | .rsCfg _ | .mcgCfg _ | .pmcgCfg _ => structWrite s d w r v
  | .sqStat k q => if bit v 22 && (w == 0 || w == rf s d (.sqCfg k q) 16 4) then clearByOnes s d r 22 1 1 else s
  | .cqCtl k n => cqCtlWrite s d k n w v
  | .cqNote k n => cqNoteWrite s d k n w v
  | .rwinCfg n => rwinWrite s d w n .cfg v
  | .rwinPeer n => rwinWrite s d w n .peer v
  | .rwinExt n => rwinWrite s d w n .ext v
  | .rinCfg n => rinCfgWrite s d w n v
  | .rinSrc n | .rinBuf n | .rinNote n => rinFieldWrite s d w n r v
  | .rinHead n => rinHeadWrite s d n w v
  | .ballotCfg b => ballotCfgWrite s d w b v
  | .ballotOdd b => if bit v 31 then ballotOddWrite s d w b else s
  | .djobCfg n => djobCfgWrite s d w n v
  | .djobKey n i => djobKeyWrite s d w n i v
  | .bankOwn b => bankOwnWrite s (d * 8192 + b) w v
  | .bankPwr b => bankPwrWrite s (d * 8192 + b) w v
  | .bankEcnt b => ecntWrite s d w b v
  | .bankRemap b n => bankRemapWrite s (d * 8192 + b) w n v
  | .burstLimit x => burstWrite s d w x v
  | .regBudget x => budgetWrite s d w x v
  | .slotResv sg k => resvWrite s d w sg k v
  | .segCtl sg => segCtlWrite s d w sg v
  | .dieSerial _ | .lcStat | .dieGrade | .rstStat | .fwStat | .pkgTimeR _ | .perfStat | .perfSnapFrame | .weedStat
  | .hardenStat | .scanStat | .xchkSeed _ | .squallHead _ | .evlogHead _ | .meas _ _ | .baro _ | .marchStat _
  | .dieCounter _ _ | .tenStat _ | .keyStat _ | .cmdSts _ _ | .cmdRes _ _ _ | .sideSts _ | .sideRes _ _ | .mergeStat _
  | .coreFenced _ | .sqHead _ _ | .cqStat _ _ | .clusterCounter _ _ _ | .carrelCounter _ _ _ | .catWord _ _ | .rinTail _
  | .rsStat _ | .ballotStat _ | .pmcgMem _ _ _ | .mcgMem _ _ _ | .bankElast _ | .bankTest _ | .regUsed _
  | .masterCounter _ _ _ | .segCounter _ _ _ | .streamCtl _ | .streamArg _ _ | .streamSts _ | .streamRes _ _ | .qopCmd _
  | .qopArg _ | .qopSts _ | .qopData _ _ => s

/-! ### Register pairs (R448) -/

/-- Both halves of a pair that takes writes: XCHK_SEED restarts the LFSR from the seed (R312, R313); a member register is
checked as one value (R236, R237). Every other pair is RO. -/
def pairCommit (s : State) (d w : Nat) (r : Reg) (lo hi : Word) : State :=
  match r with
  | .xchkSeed _ =>
    if w != 0 then s
    else (regSet (regSet s d (.xchkSeed false) lo) d (.xchkSeed true) hi).onReplicas (fun x => { x with lfsr := SMap.erase x.lfsr d })
  | .mcgMem g m _ => memberWrite s d w g m lo hi
  | .pmcgMem p m _ => memberWrite s d w (256 + p) m lo hi
  | _ => s

/-- The LO register of the pair that a register belongs to. -/
def pairLow (dies : Nat) (r : Reg) (code : Nat) : Reg := (Reg.ofCode dies code).getD r

/-- A write of one half of a pair: LO is held; HI writes both halves. The write ends what the window has captured. A HI write with no
LO held writes HI alone (DEDUCED, log 41). -/
def halfWrite (s : State) (d w : Nat) (r : Reg) (code : Nat) (hi : Bool) (v : Word) : State :=
  let k := pairKey d w code
  let s1 := { s with pairHi := SMap.erase s.pairHi k }
  if hi then
    let lo := match SMap.find s.pairLo k with
      | some x => x
      | none => copyView s d (pairLow s.dies r code)
    pairCommit { s1 with pairLo := SMap.erase s1.pairLo k } d w r lo v
  else { s1 with pairLo := SMap.set s1.pairLo k v }

/-- A register write at an offset of supervisor space by a host window (R445-R448). -/
def offsetWrite (s : State) (d w o : Nat) (v : Word) : State :=
  if isPage o then (if o < 0x15000 then pageWrite s d w 0 (o - 0x14000) (leBytes 4 v.toNat) else s)
  else match Reg.decode s.dies w o with
    | none => s
    | some r =>
      if !regUp s d r then s
      else match Reg.pairOf r with
        | some (code, hi) => halfWrite s d w r code hi v
        | none => windowWrite s d w v r

/-- A write of a register of a core's own hall page (R464). -/
def hallWrite (s : State) (d core o : Nat) (v : Word) : State :=
  let src := CmdSrc.core (BitVec.ofNat 3 d) (BitVec.ofNat 9 core)
  match Reg.decodeHall core o with
  | none => s
  | some r =>
    if !regUp s d r then s
    else match r with
      | .streamCtl _ => ctlWrite s src v
      | .streamArg _ n => argWrite s src n v
      | .carrelCtl _ => carrelCtlWrite s d core (.core (BitVec.ofNat 9 core)) v
      | .qopCmd _ => qopCmdWrite s d core v
      | .qopArg _ | .qopData _ _ => regSet s d r v
      | _ => s

/-- REGISTER_WRITE: a write takes effect in the cycle in which it reaches its register (R449). -/
def execRegisterWrite (d : Die) (writer : RegWriter) (off : Word) (val : Word) (s : State) : Host.Outcome State Fault Refusal :=
  act s [d.toNat]
    (presentAll (match writer with
      | .window w => offsetWrite s d.toNat w.toNat off.toNat val
      | .core c => hallWrite s d.toNat c.toNat off.toNat val))

/-- REGISTER_PAIR_WRITE: one half of a pair written by a host window. At an offset of no pair it is a plain write (DESIGN CHOICE, log
41). -/
def execRegisterPairWrite (d : Die) (win : Win) (off : Word) (val : Word) (s : State) : Host.Outcome State Fault Refusal :=
  act s [d.toNat] (presentAll (offsetWrite s d.toNat win.toNat off.toNat val))

end Sys2Proof.Machine
end

