-- ==== Sys2Proof/Machine/Dispatch.lean ====
section
/-! DEFINITION. The dispatch of the commands: one arm per constructor. -/

namespace Sys2Proof.Machine

open Sys2Proof

def exec (i : Instr) (s : State) : Host.Outcome State Fault Refusal :=
  match i with
  | .frameStart => Sys2Proof.Machine.execFrameStart s
  | .regWindowEdge => Sys2Proof.Machine.execRegWindowEdge s
  | .positionDecision d k => Sys2Proof.Machine.execPositionDecision d k s
  | .visitorDecision d core k => Sys2Proof.Machine.execVisitorDecision d core k s
  | .carrelSwitchGrant d core port => Sys2Proof.Machine.execCarrelSwitchGrant d core port s
  | .ringPlanCollect d => Sys2Proof.Machine.execRingPlanCollect d s
  | .ringPlanInForce => Sys2Proof.Machine.execRingPlanInForce s
  | .slotDelivered id => Sys2Proof.Machine.execSlotDelivered id s
  | .plainAccessRequest d core port write target len data => Sys2Proof.Machine.execPlainAccessRequest d core port write target len data s
  | .hostWindowAccess d via win write ta len data => Sys2Proof.Machine.execHostWindowAccess d via win write ta len data s
  | .registerWrite d writer off val => Sys2Proof.Machine.execRegisterWrite d writer off val s
  | .registerPairWrite d win off val => Sys2Proof.Machine.execRegisterPairWrite d win off val s
  | .bankOwnWrite d win bank val => Sys2Proof.Machine.execBankOwnWrite d win bank val s
  | .handoverTagsInForce bank => Sys2Proof.Machine.execHandoverTagsInForce bank s
  | .weedPhase1End bank => Sys2Proof.Machine.execWeedPhase1End bank s
  | .weedZeroRow bank => Sys2Proof.Machine.execWeedZeroRow bank s
  | .catAlloc src => Sys2Proof.Machine.execCatAlloc src s
  | .folioClassClear folio => Sys2Proof.Machine.execFolioClassClear folio s
  | .catEntryInForce src => Sys2Proof.Machine.execCatEntryInForce src s
  | .catFree src => Sys2Proof.Machine.execCatFree src s
  | .catUpdate src => Sys2Proof.Machine.execCatUpdate src s
  | .winSync src => Sys2Proof.Machine.execWinSync src s
  | .winSyncDone src => Sys2Proof.Machine.execWinSyncDone src s
  | .translatorFill id => Sys2Proof.Machine.execTranslatorFill id s
  | .carrelCacheEnter d core writer val => Sys2Proof.Machine.execCarrelCacheEnter d core writer val s
  | .carrelCacheExit d core writer val => Sys2Proof.Machine.execCarrelCacheExit d core writer val s
  | .carrelClearEnd d core => Sys2Proof.Machine.execCarrelClearEnd d core s
  | .bankWakeEnd bank => Sys2Proof.Machine.execBankWakeEnd bank s
  | .mergeEntryDue entry => Sys2Proof.Machine.execMergeEntryDue entry s
  | .mergeFlush entry => Sys2Proof.Machine.execMergeFlush entry s
  | .mergeFlushAll d win cluster val => Sys2Proof.Machine.execMergeFlushAll d win cluster val s
  | .collationRead folio => Sys2Proof.Machine.execCollationRead folio s
  | .collationDone folio => Sys2Proof.Machine.execCollationDone folio s
  | .collationEntryDrop folio => Sys2Proof.Machine.execCollationEntryDrop folio s
  | .sealParityWrite folio => Sys2Proof.Machine.execSealParityWrite folio s
  | .bankRemapWrite d win bank n val => Sys2Proof.Machine.execBankRemapWrite d win bank n val s
  | .remapCopy bank n => Sys2Proof.Machine.execRemapCopy bank n s
  | .rawRead d win => Sys2Proof.Machine.execRawRead d win s
  | .rawWrite d win => Sys2Proof.Machine.execRawWrite d win s
  | .rawSealmark d win => Sys2Proof.Machine.execRawSealmark d win s
  | .rawOpExecute d => Sys2Proof.Machine.execRawOpExecute d s
  | .bankEcntClr d win bank => Sys2Proof.Machine.execBankEcntClr d win bank s
  | .segmentFreeze d win seg val => Sys2Proof.Machine.execSegmentFreeze d win seg val s
  | .watchdogFire d seg cls => Sys2Proof.Machine.execWatchdogFire d seg cls s
  | .squallPop d win val => Sys2Proof.Machine.execSquallPop d win val s
  | .squallClrLost d win val => Sys2Proof.Machine.execSquallClrLost d win val s
  | .perfSnap d win val => Sys2Proof.Machine.execPerfSnap d win val s
  | .perfClear d win val => Sys2Proof.Machine.execPerfClear d win val s
  | .counterSnapshot d => Sys2Proof.Machine.execCounterSnapshot d s
  | .pointTokenReceive token => Sys2Proof.Machine.execPointTokenReceive token s
  | .barrierArriveReceive token => Sys2Proof.Machine.execBarrierArriveReceive token s
  | .barrierReleaseReceive token => Sys2Proof.Machine.execBarrierReleaseReceive token s
  | .arm src => Sys2Proof.Machine.execArm src s
  | .armLoadDone ctx => Sys2Proof.Machine.execArmLoadDone ctx s
  | .rearm src => Sys2Proof.Machine.execRearm src s
  | .rearmLoadDone ctx => Sys2Proof.Machine.execRearmLoadDone ctx s
  | .halt src => Sys2Proof.Machine.execHalt src s
  | .resume src => Sys2Proof.Machine.execResume src s
  | .abort src => Sys2Proof.Machine.execAbort src s
  | .query src => Sys2Proof.Machine.execQuery src s
  | .replay src => Sys2Proof.Machine.execReplay src s
  | .taskAbortReceive d task ten => Sys2Proof.Machine.execTaskAbortReceive d task ten s
  | .contextStartFrame ctx => Sys2Proof.Machine.execContextStartFrame ctx s
  | .sequencerTake d cluster => Sys2Proof.Machine.execSequencerTake d cluster s
  | .sequencerTimeslice ctx => Sys2Proof.Machine.execSequencerTimeslice ctx s
  | .endI ctx => Sys2Proof.Machine.execEndI ctx s
  | .fence ctx => Sys2Proof.Machine.execFence ctx s
  | .epoch ctx => Sys2Proof.Machine.execEpoch ctx s
  | .loop ctx => Sys2Proof.Machine.execLoop ctx s
  | .endl ctx => Sys2Proof.Machine.execEndl ctx s
  | .br ctx => Sys2Proof.Machine.execBr ctx s
  | .setI ctx => Sys2Proof.Machine.execSetI ctx s
  | .stepI ctx => Sys2Proof.Machine.execStepI ctx s
  | .seth ctx => Sys2Proof.Machine.execSeth ctx s
  | .emit ctx => Sys2Proof.Machine.execEmit ctx s
  | .gather ctx => Sys2Proof.Machine.execGather ctx s
  | .scatter ctx => Sys2Proof.Machine.execScatter ctx s
  | .xpose ctx => Sys2Proof.Machine.execXpose ctx s
  | .combine ctx => Sys2Proof.Machine.execCombine ctx s
  | .seal ctx => Sys2Proof.Machine.execSeal ctx s
  | .take ctx => Sys2Proof.Machine.execTake ctx s
  | .give ctx => Sys2Proof.Machine.execGive ctx s
  | .waitslip ctx => Sys2Proof.Machine.execWaitslip ctx s
  | .digest ctx => Sys2Proof.Machine.execDigest ctx s
  | .signal ctx => Sys2Proof.Machine.execSignal ctx s
  | .streamIllegal ctx => Sys2Proof.Machine.execStreamIllegal ctx s
  | .waitslipResultRetry ctx => Sys2Proof.Machine.execWaitslipResultRetry ctx s
  | .structureConfigWrite d win off val => Sys2Proof.Machine.execStructureConfigWrite d win off val s
  | .queueEngineOp op => Sys2Proof.Machine.execQueueEngineOp op s
  | .queueOpStatusReturn op => Sys2Proof.Machine.execQueueOpStatusReturn op s
  | .slipqWaitRetry ctx => Sys2Proof.Machine.execSlipqWaitRetry ctx s
  | .queueStall ctx => Sys2Proof.Machine.execQueueStall ctx s
  | .sqGive src => Sys2Proof.Machine.execSqGive src s
  | .sqTake src => Sys2Proof.Machine.execSqTake src s
  | .rsPost src => Sys2Proof.Machine.execRsPost src s
  | .rsRead src => Sys2Proof.Machine.execRsRead src s
  | .rsConsume src => Sys2Proof.Machine.execRsConsume src s
  | .qopGive d core cmd => Sys2Proof.Machine.execQopGive d core cmd s
  | .qopTake d core cmd => Sys2Proof.Machine.execQopTake d core cmd s
  | .qopRsPost d core cmd => Sys2Proof.Machine.execQopRsPost d core cmd s
  | .qopRsRead d core cmd => Sys2Proof.Machine.execQopRsRead d core cmd s
  | .qopRsConsume d core cmd => Sys2Proof.Machine.execQopRsConsume d core cmd s
  | .cqStart d win cluster n val => Sys2Proof.Machine.execCqStart d win cluster n val s
  | .cqZeroingDone d cluster n => Sys2Proof.Machine.execCqZeroingDone d cluster n s
  | .combineSlotArrive id => Sys2Proof.Machine.execCombineSlotArrive id s
  | .cqPostRetry d cluster n => Sys2Proof.Machine.execCqPostRetry d cluster n s
  | .rwinCfgWrite d win n reg val => Sys2Proof.Machine.execRwinCfgWrite d win n reg val s
  | .putHandoff id => Sys2Proof.Machine.execPutHandoff id s
  | .getRequestAtEngine id => Sys2Proof.Machine.execGetRequestAtEngine id s
  | .getdataReceive d msg => Sys2Proof.Machine.execGetdataReceive d msg s
  | .remoteStatusReceive d msg => Sys2Proof.Machine.execRemoteStatusReceive d msg s
  | .remoteOverdue id => Sys2Proof.Machine.execRemoteOverdue id s
  | .remoteMessageArrive d msg => Sys2Proof.Machine.execRemoteMessageArrive d msg s
  | .remoteMessageStaged msg => Sys2Proof.Machine.execRemoteMessageStaged msg s
  | .inboundWindowOpen d win n val => Sys2Proof.Machine.execInboundWindowOpen d win n val s
  | .inboundWindowClose d win n val => Sys2Proof.Machine.execInboundWindowClose d win n val s
  | .inboundCloseComplete d n => Sys2Proof.Machine.execInboundCloseComplete d n s
  | .rinHeadWrite d writer n val => Sys2Proof.Machine.execRinHeadWrite d writer n val s
  | .djobCfgWrite d win n val => Sys2Proof.Machine.execDjobCfgWrite d win n val s
  | .ballotCfgWrite d win b val => Sys2Proof.Machine.execBallotCfgWrite d win b val s
  | .ballotPostArrive post => Sys2Proof.Machine.execBallotPostArrive post s
  | .ballotDecide d b => Sys2Proof.Machine.execBallotDecide d b s
  | .ballotVerdictRetry d b => Sys2Proof.Machine.execBallotVerdictRetry d b s
  | .ballotReopen d win b => Sys2Proof.Machine.execBallotReopen d win b s
  | .ballotStall d b => Sys2Proof.Machine.execBallotStall d b s
  | .crossCheck d kind pair outcome => Sys2Proof.Machine.execCrossCheck d kind pair outcome s
  | .scan src => Sys2Proof.Machine.execScan src s
  | .scanComplete d outcome => Sys2Proof.Machine.execScanComplete d outcome s
  | .hardenFix d off copy => Sys2Proof.Machine.execHardenFix d off copy s
  | .hardenLost d off => Sys2Proof.Machine.execHardenLost d off s
  | .barometerSample d margins => Sys2Proof.Machine.execBarometerSample d margins s
  | .tenOpen src => Sys2Proof.Machine.execTenOpen src s
  | .tenClose src => Sys2Proof.Machine.execTenClose src s
  | .tenCloseDone src => Sys2Proof.Machine.execTenCloseDone src s
  | .keyLoad src => Sys2Proof.Machine.execKeyLoad src s
  | .keyErase src => Sys2Proof.Machine.execKeyErase src s
  | .attest src => Sys2Proof.Machine.execAttest src s
  | .certRead src => Sys2Proof.Machine.execCertRead src s
  | .lcProvision src => Sys2Proof.Machine.execLcProvision src s
  | .lcDeploy src => Sys2Proof.Machine.execLcDeploy src s
  | .lcMaintain src => Sys2Proof.Machine.execLcMaintain src s
  | .lcReturn src => Sys2Proof.Machine.execLcReturn src s
  | .tamperRaise d source => Sys2Proof.Machine.execTamperRaise d source s
  | .tamperEnd d source => Sys2Proof.Machine.execTamperEnd d source s
  | .alarm src => Sys2Proof.Machine.execAlarm src s
  | .alarmRingReceive d origin action => Sys2Proof.Machine.execAlarmRingReceive d origin action s
  | .weedAll src => Sys2Proof.Machine.execWeedAll src s
  | .weedBank src => Sys2Proof.Machine.execWeedBank src s
  | .pwrDown src => Sys2Proof.Machine.execPwrDown src s
  | .pwrDownComplete d dom => Sys2Proof.Machine.execPwrDownComplete d dom s
  | .pwrDownForce src => Sys2Proof.Machine.execPwrDownForce src s
  | .pwrUp src => Sys2Proof.Machine.execPwrUp src s
  | .pwrUpComplete d dom => Sys2Proof.Machine.execPwrUpComplete d dom s
  | .bankPwrWrite d win bank val => Sys2Proof.Machine.execBankPwrWrite d win bank val s
  | .bankClockGate bank => Sys2Proof.Machine.execBankClockGate bank s
  | .bankSleep bank => Sys2Proof.Machine.execBankSleep bank s
  | .regulatorLowEntry d dom => Sys2Proof.Machine.execRegulatorLowEntry d dom s
  | .brownout d dom => Sys2Proof.Machine.execBrownout d dom s
  | .perfSet src => Sys2Proof.Machine.execPerfSet src s
  | .perfChangeStart d => Sys2Proof.Machine.execPerfChangeStart d s
  | .perfRampDone d => Sys2Proof.Machine.execPerfRampDone d s
  | .perfRelockDone d => Sys2Proof.Machine.execPerfRelockDone d s
  | .doze src => Sys2Proof.Machine.execDoze src s
  | .clkSwitch src => Sys2Proof.Machine.execClkSwitch src s
  | .march src => Sys2Proof.Machine.execMarch src s
  | .marchOperation bank reads => Sys2Proof.Machine.execMarchOperation bank reads s
  | .bankRetire src => Sys2Proof.Machine.execBankRetire src s
  | .coreFence src => Sys2Proof.Machine.execCoreFence src s
  | .unfence src => Sys2Proof.Machine.execUnfence src s
  | .cmdGo src val => Sys2Proof.Machine.execCmdGo src val s
  | .cmdRelease src val => Sys2Proof.Machine.execCmdRelease src val s
  | .cmdDispatch src => Sys2Proof.Machine.execCmdDispatch src s
  | .cmdCntClr d win => Sys2Proof.Machine.execCmdCntClr d win s
  | .sideGo d win val => Sys2Proof.Machine.execSideGo d win val s
  | .almanac src => Sys2Proof.Machine.execAlmanac src s
  | .almanacRemoteCapture d origin win => Sys2Proof.Machine.execAlmanacRemoteCapture d origin win s
  | .drainStat src => Sys2Proof.Machine.execDrainStat src s
  | .dieReset src => Sys2Proof.Machine.execDieReset src s
  | .evlogPop d win => Sys2Proof.Machine.execEvlogPop d win s
  | .evlogClrLost d win => Sys2Proof.Machine.execEvlogClrLost d win s
  | .supStall d => Sys2Proof.Machine.execSupStall d s
  | .powerOn d => Sys2Proof.Machine.execPowerOn d s
  | .chipReset d => Sys2Proof.Machine.execChipReset d s
  | .resetRelease d => Sys2Proof.Machine.execResetRelease d s
  | .bootPhaseComplete d outcome => Sys2Proof.Machine.execBootPhaseComplete d outcome s
  | .beaconListenTimeout d => Sys2Proof.Machine.execBeaconListenTimeout d s
  | .beaconReceive d b => Sys2Proof.Machine.execBeaconReceive d b s
  | .readyListenTimeout d => Sys2Proof.Machine.execReadyListenTimeout d s
  | .beaconMissing => Sys2Proof.Machine.execBeaconMissing s
  | .bypassOpen d => Sys2Proof.Machine.execBypassOpen d s
  | .dieAnnounceReceive d => Sys2Proof.Machine.execDieAnnounceReceive d s
  | .rstJoin d win val => Sys2Proof.Machine.execRstJoin d win val s
  | .rstLeave d win val => Sys2Proof.Machine.execRstLeave d win val s
  | .bypassClose d => Sys2Proof.Machine.execBypassClose d s
  | .fwBegin src => Sys2Proof.Machine.execFwBegin src s
  | .fwBlock src => Sys2Proof.Machine.execFwBlock src s
  | .fwVerify src => Sys2Proof.Machine.execFwVerify src s
  | .fwVerifyDone d => Sys2Proof.Machine.execFwVerifyDone d s
  | .fwQuery src => Sys2Proof.Machine.execFwQuery src s
  | .fwSchedule src => Sys2Proof.Machine.execFwSchedule src s
  | .fwCancel src => Sys2Proof.Machine.execFwCancel src s
  | .fwDiscard src => Sys2Proof.Machine.execFwDiscard src s
  | .fwPoll => Sys2Proof.Machine.execFwPoll s
  | .fwActivate => Sys2Proof.Machine.execFwActivate s
  | .powerLoss d => Sys2Proof.Machine.execPowerLoss d s
  | .storePortResponse id data => Sys2Proof.Machine.execStorePortResponse id data s
  | .retBankEnterOff bank => Sys2Proof.Machine.execRetBankEnterOff bank s
  | .lcFuseProgramDone d => Sys2Proof.Machine.execLcFuseProgramDone d s
  | .pointAnswerReceive token => Sys2Proof.Machine.execPointAnswerReceive token s
  | .ballotPostStatusReceive post => Sys2Proof.Machine.execBallotPostStatusReceive post s
  | .almanacReplyReceive d win => Sys2Proof.Machine.execAlmanacReplyReceive d win s
  | .registerPairRead d win off => Sys2Proof.Machine.execRegisterPairRead d win off s

end Sys2Proof.Machine
end

