-- ==== Sys2Proof/Safety.lean ====
section
/-! DEFINITION. What a safe run is, in the terms claims use, and the parts of a state by name, by which claims say what a command
leaves alone. -/

namespace Sys2Proof.Machine

open Sys2Proof

/-- A step is safe if it answers a next state. -/
def Safe (s : State) : Prop := ∃ t, step s = .next t

/-- The parts of State. -/
inductive StatePart where
  | package | now | frame | frameBase | pkgTime | draws | regs | pages
  | pairLo | pairHi | banksMem | banksValid | banksClassMap | banksSealMap | banksTags | banksPauses
  | banksZeroing | banksFolioClears | banksRemapCopies | banksRawOps | banksLastActive | banksMerge | banksCollations | banksSeals
  | banksCacheWays | banksCacheLru | banksLost | fabricSlots | fabricNextSlot | fabricBooked | fabricHolds | fabricAccs
  | fabricJoint | fabricPlanResv | fabricRotation | fabricTenures | fabricPlan | fabricBudgets | fabricUsedNext | fabricUsedCc
  | fabricUsedIn | fabricGuests | fabricGuestPending | fabricGuestCount | fabricGuestNext | fabricWdogFenced | fabricSqualls | fabricSquallSeen
  | fabricSquallNow | fabricCounters | fabricSnaps | fabricDecided | fabricSnapWanted | fabricClearWanted | fabricLocks | fabricWindow
  | streamsCtxs | streamsTokens | streamsNextToken | streamsBarrierCount | streamsBarrierRoot | streamsTiles | streamsNextTile | streamsAborts
  | queuesSlipq | queuesComb | queuesResults | queuesOps | queuesNextOp | queuesCopies | queuesServed | queuesPortB
  | remoteTranslator | remoteSyncs | remoteStaged | remoteNextMsg | remoteRingCount | remoteOutStage | remoteOutMsgs | remoteOverdue
  | remoteCounters | replicasBallots | replicasPosts | replicasNextPost | replicasLfsr | replicasScans | replicasWrappers | replicasTaps
  | replicasUnsafeRegs | replicasStrays | replicasBaro | replicasBaroCorr | replicasLeftP0 | replicasSampled | securityKeySlots | securityTransport
  | securityCertChain | securityCertDigest | securityCertBad | securityLcBusy | securityDenialSeen | securityClosing | securityAlarms | powerDoms
  | powerPerf | powerMarches | powerFuses | powerRecord | powerMarchDoms | powerStopped | flash | boots
  | supEvents | supNextEvent | supCmds | supNextSeq | supTurn | supSideOrder | supAlmanacs | supAlmanacCount
  | supStalled | supQueued | supLastDispatch | supInputs | supCatFreed | supEventNow | supAllocs | supCatUpsets
  | supCatCorrected | supCatReported | supW1cSet | out | pending
deriving DecidableEq, Repr

/-- What a part holds. -/
@[reducible] def StatePart.Carrier : StatePart → Type
  | .package => Package
  | .now => Nat
  | .frame => Nat
  | .frameBase => Nat
  | .pkgTime => BitVec 64
  | .draws => Nat
  | .regs => SMap Word
  | .pages => SMap Byte
  | .pairLo => SMap Word
  | .pairHi => SMap Word
  | .banksMem => List Host.Cell
  | .banksValid => SMap Bool
  | .banksClassMap => SMap Protection
  | .banksSealMap => SMap SealState
  | .banksTags => SMap Word
  | .banksPauses => SMap PauseRec
  | .banksZeroing => SMap Nat
  | .banksFolioClears => List FolioChange
  | .banksRemapCopies => SMap Nat
  | .banksRawOps => SMap (List RawReq)
  | .banksLastActive => SMap Nat
  | .banksMerge => List MergeEntry
  | .banksCollations => List Collation
  | .banksSeals => List SealCtx
  | .banksCacheWays => SMap CacheWay
  | .banksCacheLru => SMap Nat
  | .banksLost => List LostMerge
  | .fabricSlots => List Slot
  | .fabricNextSlot => Nat
  | .fabricBooked => List Booking
  | .fabricHolds => List Hold
  | .fabricAccs => List Acc
  | .fabricJoint => Option Joint
  | .fabricPlanResv => List PlanResv
  | .fabricRotation => SMap (List Nat)
  | .fabricTenures => SMap Tenure
  | .fabricPlan => PlanSt
  | .fabricBudgets => SMap Nat
  | .fabricUsedNext => SMap Nat
  | .fabricUsedCc => Nat
  | .fabricUsedIn => SMap Nat
  | .fabricGuests => SMap (Word × Word)
  | .fabricGuestPending => List GuestPending
  | .fabricGuestCount => SMap Nat
  | .fabricGuestNext => SMap Nat
  | .fabricWdogFenced => List Nat
  | .fabricSqualls => SMap (List (BitVec 64))
  | .fabricSquallSeen => SMap Nat
  | .fabricSquallNow => SMap SquallNow
  | .fabricCounters => SMap Nat
  | .fabricSnaps => SMap Nat
  | .fabricDecided => SMap Nat
  | .fabricSnapWanted => List Nat
  | .fabricClearWanted => List Nat
  | .fabricLocks => List LineLock
  | .fabricWindow => Nat
  | .streamsCtxs => SMap Ctx
  | .streamsTokens => List Token
  | .streamsNextToken => Nat
  | .streamsBarrierCount => SMap Nat
  | .streamsBarrierRoot => SMap (BitVec 8)
  | .streamsTiles => List Tile
  | .streamsNextTile => Nat
  | .streamsAborts => List TaskAbort
  | .queuesSlipq => SMap SlipQ
  | .queuesComb => SMap CombQ
  | .queuesResults => SMap ResSlot
  | .queuesOps => List QOp
  | .queuesNextOp => Nat
  | .queuesCopies => List CopyPending
  | .queuesServed => List (Nat × Nat × Nat)
  | .queuesPortB => List (Nat × Nat)
  | .remoteTranslator => List Descriptor
  | .remoteSyncs => List SyncRec
  | .remoteStaged => List Staged
  | .remoteNextMsg => Nat
  | .remoteRingCount => SMap Nat
  | .remoteOutStage => List OutStage
  | .remoteOutMsgs => List OutMsg
  | .remoteOverdue => List Nat
  | .remoteCounters => SMap Nat
  | .replicasBallots => SMap Ballot
  | .replicasPosts => List BallotPost
  | .replicasNextPost => Nat
  | .replicasLfsr => SMap (BitVec 64)
  | .replicasScans => SMap Scan
  | .replicasWrappers => SMap Wrapper
  | .replicasTaps => SMap TapInstr
  | .replicasUnsafeRegs => SMap Bool
  | .replicasStrays => SMap (BitVec 2 × Nat)
  | .replicasBaro => SMap Baro
  | .replicasBaroCorr => SMap Nat
  | .replicasLeftP0 => List Nat
  | .replicasSampled => SMap Nat
  | .securityKeySlots => SMap (BitVec 256)
  | .securityTransport => SMap (BitVec 256)
  | .securityCertChain => SMap (List Byte)
  | .securityCertDigest => SMap (List Byte)
  | .securityCertBad => List Nat
  | .securityLcBusy => SMap (BitVec 2 × CmdSrc)
  | .securityDenialSeen => SMap Nat
  | .securityClosing => SMap Nat
  | .securityAlarms => List AlarmWord
  | .powerDoms => SMap Dom
  | .powerPerf => SMap PerfChange
  | .powerMarches => SMap MarchRun
  | .powerFuses => SMap (List RepairEntry)
  | .powerRecord => SMap (List RepairEntry)
  | .powerMarchDoms => List (CmdSrc × Nat)
  | .powerStopped => SMap Nat
  | .flash => SMap Flash
  | .boots => SMap BootSt
  | .supEvents => SMap (List Event)
  | .supNextEvent => SMap Nat
  | .supCmds => List (CmdSrc × CmdProgress)
  | .supNextSeq => SMap Nat
  | .supTurn => SMap Nat
  | .supSideOrder => List (CmdSrc × Nat)
  | .supAlmanacs => List AlmanacWord
  | .supAlmanacCount => SMap Nat
  | .supStalled => List Nat
  | .supQueued => List (CmdSrc × Nat)
  | .supLastDispatch => SMap Nat
  | .supInputs => List (CmdSrc × List (BitVec 8))
  | .supCatFreed => SMap Nat
  | .supEventNow => SMap EventNow
  | .supAllocs => List AllocHold
  | .supCatUpsets => SMap Nat
  | .supCatCorrected => SMap Nat
  | .supCatReported => List Nat
  | .supW1cSet => SMap Nat
  | .out => List Output
  | .pending => List Instr

/-- A part of a state. -/
def part (s : State) : (p : StatePart) → p.Carrier
  | .package => s.package
  | .now => s.now
  | .frame => s.frame
  | .frameBase => s.frameBase
  | .pkgTime => s.pkgTime
  | .draws => s.draws
  | .regs => s.regs
  | .pages => s.pages
  | .pairLo => s.pairLo
  | .pairHi => s.pairHi
  | .banksMem => s.banks.mem
  | .banksValid => s.banks.valid
  | .banksClassMap => s.banks.classMap
  | .banksSealMap => s.banks.sealMap
  | .banksTags => s.banks.tags
  | .banksPauses => s.banks.pauses
  | .banksZeroing => s.banks.zeroing
  | .banksFolioClears => s.banks.folioClears
  | .banksRemapCopies => s.banks.remapCopies
  | .banksRawOps => s.banks.rawOps
  | .banksLastActive => s.banks.lastActive
  | .banksMerge => s.banks.merge
  | .banksCollations => s.banks.collations
  | .banksSeals => s.banks.seals
  | .banksCacheWays => s.banks.cacheWays
  | .banksCacheLru => s.banks.cacheLru
  | .banksLost => s.banks.lost
  | .fabricSlots => s.fabric.slots
  | .fabricNextSlot => s.fabric.nextSlot
  | .fabricBooked => s.fabric.booked
  | .fabricHolds => s.fabric.holds
  | .fabricAccs => s.fabric.accs
  | .fabricJoint => s.fabric.joint
  | .fabricPlanResv => s.fabric.planResv
  | .fabricRotation => s.fabric.rotation
  | .fabricTenures => s.fabric.tenures
  | .fabricPlan => s.fabric.plan
  | .fabricBudgets => s.fabric.budgets
  | .fabricUsedNext => s.fabric.usedNext
  | .fabricUsedCc => s.fabric.usedCc
  | .fabricUsedIn => s.fabric.usedIn
  | .fabricGuests => s.fabric.guests
  | .fabricGuestPending => s.fabric.guestPending
  | .fabricGuestCount => s.fabric.guestCount
  | .fabricGuestNext => s.fabric.guestNext
  | .fabricWdogFenced => s.fabric.wdogFenced
  | .fabricSqualls => s.fabric.squalls
  | .fabricSquallSeen => s.fabric.squallSeen
  | .fabricSquallNow => s.fabric.squallNow
  | .fabricCounters => s.fabric.counters
  | .fabricSnaps => s.fabric.snaps
  | .fabricDecided => s.fabric.decided
  | .fabricSnapWanted => s.fabric.snapWanted
  | .fabricClearWanted => s.fabric.clearWanted
  | .fabricLocks => s.fabric.locks
  | .fabricWindow => s.fabric.window
  | .streamsCtxs => s.streams.ctxs
  | .streamsTokens => s.streams.tokens
  | .streamsNextToken => s.streams.nextToken
  | .streamsBarrierCount => s.streams.barrierCount
  | .streamsBarrierRoot => s.streams.barrierRoot
  | .streamsTiles => s.streams.tiles
  | .streamsNextTile => s.streams.nextTile
  | .streamsAborts => s.streams.aborts
  | .queuesSlipq => s.queues.slipq
  | .queuesComb => s.queues.comb
  | .queuesResults => s.queues.results
  | .queuesOps => s.queues.ops
  | .queuesNextOp => s.queues.nextOp
  | .queuesCopies => s.queues.copies
  | .queuesServed => s.queues.served
  | .queuesPortB => s.queues.portB
  | .remoteTranslator => s.remote.translator
  | .remoteSyncs => s.remote.syncs
  | .remoteStaged => s.remote.staged
  | .remoteNextMsg => s.remote.nextMsg
  | .remoteRingCount => s.remote.ringCount
  | .remoteOutStage => s.remote.outStage
  | .remoteOutMsgs => s.remote.outMsgs
  | .remoteOverdue => s.remote.overdue
  | .remoteCounters => s.remote.counters
  | .replicasBallots => s.replicas.ballots
  | .replicasPosts => s.replicas.posts
  | .replicasNextPost => s.replicas.nextPost
  | .replicasLfsr => s.replicas.lfsr
  | .replicasScans => s.replicas.scans
  | .replicasWrappers => s.replicas.wrappers
  | .replicasTaps => s.replicas.taps
  | .replicasUnsafeRegs => s.replicas.unsafeRegs
  | .replicasStrays => s.replicas.strays
  | .replicasBaro => s.replicas.baro
  | .replicasBaroCorr => s.replicas.baroCorr
  | .replicasLeftP0 => s.replicas.leftP0
  | .replicasSampled => s.replicas.sampled
  | .securityKeySlots => s.security.keySlots
  | .securityTransport => s.security.transport
  | .securityCertChain => s.security.certChain
  | .securityCertDigest => s.security.certDigest
  | .securityCertBad => s.security.certBad
  | .securityLcBusy => s.security.lcBusy
  | .securityDenialSeen => s.security.denialSeen
  | .securityClosing => s.security.closing
  | .securityAlarms => s.security.alarms
  | .powerDoms => s.power.doms
  | .powerPerf => s.power.perf
  | .powerMarches => s.power.marches
  | .powerFuses => s.power.fuses
  | .powerRecord => s.power.record
  | .powerMarchDoms => s.power.marchDoms
  | .powerStopped => s.power.stopped
  | .flash => s.flash
  | .boots => s.boots
  | .supEvents => s.sup.events
  | .supNextEvent => s.sup.nextEvent
  | .supCmds => s.sup.cmds
  | .supNextSeq => s.sup.nextSeq
  | .supTurn => s.sup.turn
  | .supSideOrder => s.sup.sideOrder
  | .supAlmanacs => s.sup.almanacs
  | .supAlmanacCount => s.sup.almanacCount
  | .supStalled => s.sup.stalled
  | .supQueued => s.sup.queued
  | .supLastDispatch => s.sup.lastDispatch
  | .supInputs => s.sup.inputs
  | .supCatFreed => s.sup.catFreed
  | .supEventNow => s.sup.eventNow
  | .supAllocs => s.sup.allocs
  | .supCatUpsets => s.sup.catUpsets
  | .supCatCorrected => s.sup.catCorrected
  | .supCatReported => s.sup.catReported
  | .supW1cSet => s.sup.w1cSet
  | .out => s.out
  | .pending => s.pending

end Sys2Proof.Machine
end

