-- ==== Sys2Proof/Certificates/Slice0/Obligations.lean ====
section
/-! DEFINITION. What this row states for the provers. One statement per family of commands says what each command of the family does
and where it completes (a statement's clauses are one per form), and the statements after them say what holds of every command and
of every step. -/

open Sys2Proof Sys2Proof.Machine

namespace Sys2Proof.Claims

/-- The command answers a next state, of which `P` holds. -/
def Runs (c : Instr) (s : State) (P : State → Prop) : Prop := ∃ t, exec c s = .next t ∧ P t

/-- A command slot's own step with opcode `op` is to come, in its turn, its issuer is no fenced core and its window's tenancy ACTIVE (R11), and its slot is RUNNING (R395, R397, R406). -/
def given (s : State) (src : CmdSrc) (op : Nat) : Bool :=
  s.present src.die && cmdReady s src op && cmdState s src == 2
    && issuerStatus s src == Code.done && (!src.isSide || sideTurn s src)

/-- The command of a slot with opcode `op` is in progress, its slot RUNNING (R397). -/
def ongoing (s : State) (src : CmdSrc) (op : Nat) : Bool :=
  s.present src.die && cmdOngoing s src && cmdOpcode s src == op && cmdState s src == 2

/-- The command of a slot is COMPLETE with a status (R396). -/
def answered (t : State) (src : CmdSrc) (code : Nat) : Bool :=
  cmdState t src == 3 && stCode (regGet t src.die src.sts) == code

/-- Result word n of a slot. -/
def result (t : State) (src : CmdSrc) (n : Nat) : Word := regGet t src.die (src.res n)

/-- No check of a list fails. -/
def passes (l : List (Bool × Nat)) : Bool := l.all (fun c => !c.1)

/-- Cycle c lies in the current frame, and no relock stops the clocks. -/
def within (s : State) (c : Nat) : Bool := !rootStopped s && decide (c < frameEnd s)

/-- The keys of a map rise strictly. -/
def rises {α : Type} (m : SMap α) : Bool := (m.map (·.1)).Pairwise (· < ·)

/-- The legal instruction that a context starts or goes on with on its sequencer in the current frame (R184, R200). -/
def onTurn (s : State) (c : CtxId) : Option SInstr :=
  let x := ctxOf s c
  if s.present (ctxDie c) && x.onSeq && x.st == .running && x.stop == .no && domUp s (ctxDie c) (xbarDomain (ctxCluster c))
      && within s (turnCycle s x) then currentInstr x else none

/-- The context is ABORTED, or stops for an abort (R193). -/
def abortsOrAborted (x : Ctx) : Bool := x.st == .aborted || (match x.stop with | .aborting _ _ => true | _ => false)

/-- The context is HALTED, or stops for a halt (R191). -/
def haltsOrHalted (x : Ctx) : Bool := x.st == .halted || (match x.stop with | .halting _ => true | _ => false)

/-- A slot of a context entered the fabric: it is the newest, with the context's newest sequence number (R185, R189). -/
def slotEntered (s t : State) (c : CtxId) (kind : SlotKind) (len : Nat) : Bool :=
  (ctxOf t c).seq == (ctxOf s c).seq + 1 && t.fabric.nextSlot == s.fabric.nextSlot + 1
    && t.fabric.slots.any (fun x => x.id == s.fabric.nextSlot + 1 && x.ctx == some c && x.kind == kind && x.len == len
        && x.seq == (ctxOf s c).seq + 1 && x.ident == ctxIdent s c && x.arrive == t.now)

/-- A core writes QOP_CMD with code `op`: its hall is up, it has none in flight, and no reserved bit is set (R258). -/
def coreCalls (s : State) (d : Die) (core : CoreNo) (cmd : Word) (op : Nat) : Bool :=
  s.present d.toNat && field cmd 28 4 == op && field cmd 16 5 == 0 && domUp s d.toNat (xbarDomain (core.toNat / 32))
    && !coreOpFlight s d.toNat core.toNat

/-- A core may start an operation with code `op`: it is no fenced core (R389). -/
def coreMay (s : State) (d : Die) (core : CoreNo) (cmd : Word) (op : Nat) : Bool :=
  coreCalls s d core cmd op && !coreFenced s d.toNat core.toNat

/-- The operation that a core sends to a queue engine (R233, R258). -/
def coreQOp (s : State) (d : Die) (core : CoreNo) (kind : OpKind) : QOp :=
  ⟨s.queues.nextOp + 1, .core d core, kind, identOf d.toNat core.toNat, BitVec.ofNat 4 (coreTag s d.toNat core.toNat), false, 0, 0, 0, []⟩


/-- An unwrapped key is one that KEY_LOAD takes: its slot, its load number, not all zeros (R332). -/
def keyAccepted (p : List Byte) (k load : Nat) : Bool :=
  (p.getD 32 0).toNat == k && leNat ((p.drop 36).take 4) == load && !(p.take 32).all (· == 0)

/-- The cycle in which a queue operation on a die within reach is carried out, and the state that it finds: it takes its turn at the engine
behind those of higher rank, and the port-B cycles that it needs (R69, R233). -/
def opTurn (s : State) (o : QOp) : Option (Nat × State) :=
  if rootStopped s then none
  else match o.kind.portB s o.ten.toNat o.issuer.notice with
    | none => if arrivalOf s o < frameEnd s then some (arrivalOf s o, advanceTo s (arrivalOf s o)) else none
    | some (pl, rmw) =>
      if portBShut s (lnBank pl) then none
      else (portBCycle s pl rmw (arrivalOf s o)).map (fun c => (c, usePortB (advanceTo s c) (lnBank pl) rmw))

/-- The clock lies in the frame that is counted, and the package's frame count began by then. -/
def clockInv (s : State) : Prop := s.now / 256 = s.frame ∧ s.frameBase ≤ s.frame

/-- The bypass of a die whose reset is asserted is closed. -/
def resetInv (s : State) : Prop := ∀ d, (bootOf s d).asserted = true → (bootOf s d).opened = false

/-- No lane holds more than 128 tokens; the tokens' numbers are distinct and have been given out. -/
def laneInv (s : State) : Prop :=
  (∀ l, (s.streams.tokens.filter (fun t => t.lane == some l)).length ≤ 128) ∧ (s.streams.tokens.map (·.id)).Nodup ∧
    ∀ t ∈ s.streams.tokens, t.id ≤ s.streams.nextToken

/-- The lines that an array access writes: a flush its entry's line, a SEAL slot its four lines, any other write its own line. -/
def accLines (s : State) (a : Acc) : List Nat :=
  if a.slot = 0 then ((s.banks.merge.find? (fun e => e.id == a.ref)).map (·.line)).toList
  else if !a.write then []
  else match (s.fabric.slots.find? (fun x => x.id == a.slot)).map (·.kind) with
    | some SlotKind.seal => (List.range 4).map (fun i => taLine a.ref + i)
    | _ => [a.line]

/-- An address outside n bytes from a. -/
def outside (x a n : Nat) : Prop := x < a ∨ a + n ≤ x

/-- The commands of R401 whose issuer is the host window of tenancy 0 alone, with their opcodes; PWR_DOWN under each FORCE. -/
def zeroCommand (s : State) : Instr → Option (CmdSrc × Nat)
  | .tenOpen src => some (src, 0x30) | .tenClose src => some (src, 0x31) | .lcProvision src => some (src, 0x38)
  | .lcDeploy src => some (src, 0x39) | .lcMaintain src => some (src, 0x3A) | .lcReturn src => some (src, 0x3B)
  | .alarm src => some (src, 0x40) | .weedAll src => some (src, 0x41)
  | .pwrDown src => if cmdArgF s src 0 8 1 = 0 then some (src, 0x48) else none
  | .pwrDownForce src => if cmdArgF s src 0 8 1 = 1 then some (src, 0x48) else none
  | .pwrUp src => some (src, 0x49) | .perfSet src => some (src, 0x4A) | .doze src => some (src, 0x4B)
  | .clkSwitch src => some (src, 0x4C) | .march src => some (src, 0x50) | .scan src => some (src, 0x51)
  | .bankRetire src => some (src, 0x52) | .coreFence src => some (src, 0x53) | .unfence src => some (src, 0x54)
  | .drainStat src => some (src, 0x61) | .dieReset src => some (src, 0x62) | .fwBegin src => some (src, 0x70)
  | .fwBlock src => some (src, 0x71) | .fwVerify src => some (src, 0x72) | .fwQuery src => some (src, 0x73)
  | .fwSchedule src => some (src, 0x74) | .fwCancel src => some (src, 0x75) | .fwDiscard src => some (src, 0x76)
  | _ => none

/-- What an entry in the event log changes (R412). -/
def logParts : List StatePart := [.regs, .supEventNow, .supEvents, .supNextEvent]

/-- What a grant changes. -/
def grantParts : List StatePart := [.banksCacheLru, .banksCacheWays, .banksCollations, .banksLastActive, .banksMem, .banksMerge, .banksPauses, .banksSealMap, .banksSeals, .banksValid, .draws, .fabricAccs, .fabricCounters, .fabricHolds, .fabricSlots, .fabricUsedCc, .fabricUsedIn, .fabricUsedNext, .powerDoms, .regs, .remoteOutMsgs, .replicasBaroCorr, .securityDenialSeen, .streamsCtxs, .supCatCorrected, .supCatReported, .supEventNow, .supEvents, .supNextEvent]

/-- What the passing of cycles changes: array accesses take effect, requests of the next cycle are presented, tokens move, copies are repaired. -/
def timeParts : List StatePart := [.banksCollations, .banksLastActive, .banksMem, .banksMerge, .banksPauses, .banksSeals, .banksValid, .draws, .fabricAccs, .fabricBooked, .fabricCounters, .fabricHolds, .fabricSlots, .now, .powerDoms, .regs, .remoteOutMsgs, .replicasBaroCorr, .replicasStrays, .streamsCtxs, .streamsTokens, .supEventNow, .supEvents, .supNextEvent]

/-- What the end of a command changes: its slot, the counts, the event log (R396, R399). -/
def endParts : List StatePart := [.regs, .supAllocs, .supCmds, .supEventNow, .supEvents, .supInputs, .supNextEvent, .supSideOrder, .supW1cSet]

/-- What the presentation of waiting transfers changes. -/
def presentParts : List StatePart := [.banksCollations, .banksLastActive, .banksMerge, .banksPauses, .banksValid, .fabricSlots, .powerDoms, .regs]

/-- What a new request changes. -/
def requestParts : List StatePart := [.banksCollations, .banksLastActive, .banksMerge, .banksPauses, .banksValid, .fabricNextSlot, .fabricSlots, .powerDoms, .regs, .remoteTranslator]

/-- What the start of a weeding changes. -/
def weedParts : List StatePart := [.banksLastActive, .banksPauses, .banksValid, .banksZeroing, .powerDoms, .powerMarchDoms, .powerMarches, .regs, .supAllocs, .supCmds, .supEventNow, .supEvents, .supInputs, .supNextEvent, .supSideOrder, .supW1cSet]

/-- What the abort of a task changes (R193). -/
def abortParts : List StatePart := [.banksLastActive, .banksMerge, .banksSealMap, .banksSeals, .fabricPlan, .fabricSlots, .queuesSlipq, .regs, .remoteOutMsgs, .remoteOutStage, .streamsAborts, .streamsCtxs, .streamsTiles, .supAllocs, .supCmds, .supEventNow, .supEvents, .supInputs, .supNextEvent, .supSideOrder, .supW1cSet]

/-- What the end of a transfer changes. -/
def slotEndParts : List StatePart := [.banksCacheLru, .banksCacheWays, .banksCollations, .banksLastActive, .banksMem, .banksMerge, .banksPauses, .banksSealMap, .banksSeals, .banksValid, .fabricCounters, .fabricNextSlot, .fabricPlan, .fabricSlots, .out, .powerDoms, .queuesNextOp, .queuesOps, .queuesSlipq, .regs, .remoteCounters, .remoteOutMsgs, .remoteOutStage, .remoteOverdue, .remoteStaged, .remoteTranslator, .streamsAborts, .streamsCtxs, .streamsTiles, .supAllocs, .supCmds, .supEventNow, .supEvents, .supInputs, .supNextEvent, .supSideOrder, .supW1cSet]

/-- What the loss of a domain changes (R367). -/
def lossParts : List StatePart := [.banksCacheLru, .banksCacheWays, .banksCollations, .banksLastActive, .banksLost, .banksMem, .banksMerge, .banksPauses, .banksRemapCopies, .banksSealMap, .banksSeals, .banksTags, .banksValid, .banksZeroing, .fabricAccs, .fabricBooked, .fabricCounters, .fabricHolds, .fabricNextSlot, .fabricPlan, .fabricSlots, .out, .powerDoms, .powerMarchDoms, .powerMarches, .queuesComb, .queuesNextOp, .queuesOps, .queuesResults, .queuesSlipq, .regs, .remoteCounters, .remoteOutMsgs, .remoteOutStage, .remoteOverdue, .remoteStaged, .remoteTranslator, .replicasPosts, .replicasUnsafeRegs, .streamsAborts, .streamsCtxs, .streamsTiles, .streamsTokens, .supAllocs, .supCatCorrected, .supCatReported, .supCatUpsets, .supCmds, .supEventNow, .supEvents, .supInputs, .supNextEvent, .supSideOrder, .supW1cSet]

/-- What a die reset changes (R416-R418). -/
def resetParts : List StatePart := [.banksCacheLru, .banksCacheWays, .banksClassMap, .banksCollations, .banksFolioClears, .banksLastActive, .banksLost, .banksMerge, .banksPauses, .banksRawOps, .banksRemapCopies, .banksSealMap, .banksSeals, .banksTags, .banksValid, .banksZeroing, .boots, .draws, .fabricAccs, .fabricBooked, .fabricBudgets, .fabricClearWanted, .fabricCounters, .fabricDecided, .fabricGuestCount, .fabricGuestNext, .fabricGuestPending, .fabricGuests, .fabricHolds, .fabricLocks, .fabricPlan, .fabricPlanResv, .fabricRotation, .fabricSlots, .fabricSnapWanted, .fabricSnaps, .fabricSquallNow, .fabricSquallSeen, .fabricSqualls, .fabricTenures, .fabricUsedIn, .fabricUsedNext, .fabricWdogFenced, .flash, .pages, .pairHi, .pairLo, .powerDoms, .powerMarchDoms, .powerMarches, .powerPerf, .powerStopped, .queuesComb, .queuesCopies, .queuesOps, .queuesResults, .queuesSlipq, .regs, .remoteCounters, .remoteOutMsgs, .remoteOutStage, .remoteOverdue, .remoteRingCount, .remoteStaged, .remoteSyncs, .remoteTranslator, .replicasBallots, .replicasLfsr, .replicasPosts, .replicasScans, .replicasStrays, .replicasUnsafeRegs, .replicasWrappers, .securityAlarms, .securityClosing, .securityDenialSeen, .securityKeySlots, .securityLcBusy, .securityTransport, .streamsAborts, .streamsBarrierCount, .streamsBarrierRoot, .streamsCtxs, .streamsTiles, .streamsTokens, .supAllocs, .supAlmanacCount, .supAlmanacs, .supCatCorrected, .supCatFreed, .supCatReported, .supCatUpsets, .supCmds, .supEventNow, .supEvents, .supInputs, .supLastDispatch, .supNextEvent, .supNextSeq, .supQueued, .supSideOrder, .supStalled, .supTurn, .supW1cSet]

/-- The parts of State that a command may change. -/
def touches : Instr → List StatePart
  | .frameStart .. | .counterSnapshot .. =>
      presentParts ++ [.fabricClearWanted, .fabricCounters, .fabricSnapWanted, .fabricSnaps, .frame]
  | .regWindowEdge .. =>
      presentParts ++ [.fabricBudgets, .fabricCounters, .fabricGuestCount, .fabricGuestNext, .fabricGuestPending, .fabricGuests, .fabricTenures,
        .fabricUsedNext, .fabricWindow, .queuesCopies, .replicasBallots, .replicasStrays, .replicasUnsafeRegs]
  | .positionDecision .. | .visitorDecision .. =>
      grantParts ++ [.fabricBooked, .fabricDecided, .fabricJoint, .fabricPlanResv, .fabricRotation, .fabricSquallNow, .fabricSquallSeen, .fabricSqualls,
        .fabricTenures]
  | .carrelSwitchGrant .. =>
      grantParts ++ [.fabricNextSlot, .remoteTranslator]
  | .ringPlanCollect .. =>
      logParts ++ [.banksLastActive, .draws, .fabricCounters, .fabricGuestCount, .fabricGuestNext, .fabricPlan, .fabricSlots, .streamsCtxs,
        .supCatCorrected, .supCatReported]
  | .ringPlanInForce .. =>
      [.draws, .fabricBooked, .fabricCounters, .fabricGuestCount, .fabricGuestNext, .fabricHolds, .fabricPlan, .fabricPlanResv, .fabricSlots]
  | .slotDelivered .. | .storePortResponse .. =>
      slotEndParts
  | .plainAccessRequest .. =>
      requestParts ++ [.banksCacheWays, .fabricCounters, .out]
  | .hostWindowAccess .. =>
      requestParts ++ [.out]
  | .registerWrite .. | .registerPairWrite .. =>
      abortParts ++ weedParts ++ requestParts ++ [.banksRawOps, .banksRemapCopies, .banksTags, .boots, .fabricClearWanted, .fabricCounters,
        .fabricGuestPending, .fabricSnapWanted, .fabricSquallNow, .fabricSqualls, .out, .pages, .pairHi, .pairLo, .queuesComb, .queuesCopies, .queuesNextOp,
        .queuesOps, .queuesResults, .remoteCounters, .remoteRingCount, .remoteStaged, .replicasBallots, .replicasLfsr, .replicasStrays, .replicasUnsafeRegs,
        .supCatCorrected, .supCatReported, .supNextSeq, .supQueued]
  | .bankOwnWrite .. =>
      abortParts ++ weedParts ++ [.banksTags, .queuesComb, .queuesResults, .replicasStrays, .replicasUnsafeRegs]
  | .handoverTagsInForce .. =>
      presentParts ++ [.banksTags]
  | .weedPhase1End .. | .pwrUpComplete .. =>
      abortParts ++ presentParts ++ [.banksCacheLru, .banksCacheWays, .banksClassMap, .banksLost, .banksTags, .banksZeroing, .draws, .powerRecord,
        .queuesComb, .queuesResults, .remoteTranslator, .replicasStrays, .replicasUnsafeRegs, .supCatFreed, .supCatReported, .supCatUpsets]
  | .weedZeroRow .. =>
      [.banksLastActive, .banksMem, .banksZeroing, .fabricHolds, .regs]
  | .catAlloc .. =>
      endParts ++ [.banksFolioClears]
  | .folioClassClear .. =>
      presentParts ++ logParts ++ [.banksClassMap, .banksFolioClears, .banksLost, .banksSealMap, .banksSeals, .fabricHolds, .streamsCtxs]
  | .catEntryInForce .. =>
      endParts ++ [.banksFolioClears, .banksLost, .supCatReported, .supCatUpsets]
  | .catFree .. =>
      endParts ++ [.fabricSlots, .remoteTranslator, .supCatCorrected, .supCatFreed, .supCatReported, .supCatUpsets]
  | .catUpdate .. =>
      endParts ++ [.supCatCorrected, .supCatReported]
  | .winSync .. =>
      endParts ++ [.remoteSyncs, .supCatCorrected, .supCatReported]
  | .winSyncDone .. =>
      endParts ++ [.fabricSlots, .remoteSyncs, .remoteTranslator]
  | .translatorFill .. =>
      presentParts ++ logParts ++ [.fabricCounters, .remoteTranslator, .replicasBaroCorr, .streamsCtxs, .supCatCorrected, .supCatReported]
  | .carrelCacheEnter .. | .carrelCacheExit .. =>
      requestParts
  | .carrelClearEnd .. =>
      requestParts ++ [.banksCacheLru, .banksCacheWays, .fabricCounters]
  | .bankWakeEnd .. =>
      presentParts ++ [.banksZeroing]
  | .mergeEntryDue .. =>
      [.banksMerge]
  | .mergeFlush .. =>
      [.banksLastActive, .banksMerge, .fabricAccs, .fabricHolds, .regs]
  | .mergeFlushAll .. | .collationEntryDrop .. =>
      presentParts
  | .collationRead .. =>
      [.banksCollations, .banksLastActive, .fabricHolds, .regs]
  | .collationDone .. =>
      presentParts ++ logParts ++ [.replicasBaroCorr]
  | .sealParityWrite .. =>
      presentParts ++ [.banksMem, .banksSealMap, .banksSeals, .fabricHolds, .streamsCtxs]
  | .bankRemapWrite .. =>
      presentParts ++ logParts ++ [.banksRemapCopies, .replicasStrays, .replicasUnsafeRegs]
  | .remapCopy .. =>
      [.banksLastActive, .banksMem, .banksPauses, .banksRemapCopies, .banksValid, .fabricHolds, .powerDoms, .regs]
  | .rawRead .. | .rawWrite .. | .rawSealmark .. =>
      [.banksRawOps, .regs]
  | .rawOpExecute .. =>
      presentParts ++ [.banksMem, .banksRawOps, .banksSealMap, .fabricHolds]
  | .bankEcntClr .. | .segmentFreeze .. | .inboundCloseComplete .. | .djobCfgWrite .. | .tamperEnd .. | .bankClockGate .. | .cmdCntClr .. =>
      [.regs]
  | .watchdogFire .. =>
      endParts ++ [.banksLastActive, .banksMerge, .banksSealMap, .banksSeals, .fabricAccs, .fabricBooked, .fabricCounters, .fabricHolds, .fabricPlan,
        .fabricSlots, .fabricTenures, .fabricWdogFenced, .queuesSlipq, .streamsAborts, .streamsCtxs, .streamsTiles]
  | .squallPop .. | .squallClrLost .. =>
      [.fabricSquallNow, .fabricSqualls, .regs]
  | .perfSnap .. | .perfClear .. =>
      [.fabricClearWanted, .fabricSnapWanted, .regs]
  | .pointTokenReceive .. =>
      [.streamsCtxs, .streamsNextToken, .streamsTokens]
  | .barrierArriveReceive .. =>
      [.streamsBarrierCount, .streamsBarrierRoot, .streamsNextToken, .streamsTokens]
  | .barrierReleaseReceive .. =>
      [.streamsCtxs, .streamsTokens]
  | .arm .. | .rearm .. =>
      requestParts ++ endParts ++ [.streamsCtxs]
  | .armLoadDone .. | .rearmLoadDone .. | .replay .. =>
      endParts ++ [.streamsCtxs]
  | .halt .. | .abort .. | .taskAbortReceive .. | .streamIllegal .. =>
      abortParts
  | .resume .. =>
      endParts ++ [.queuesSlipq, .streamsCtxs]
  | .query .. | .tenOpen .. | .drainStat .. | .fwVerify .. | .fwVerifyDone .. =>
      endParts
  | .contextStartFrame .. | .sequencerTake .. | .sequencerTimeslice .. | .fence .. | .epoch .. | .loop .. | .endl .. | .br .. | .setI .. | .stepI ..
  | .seth .. | .waitslipResultRetry .. =>
      [.streamsCtxs]
  | .endI .. =>
      logParts ++ [.banksSealMap, .banksSeals, .streamsCtxs]
  | .emit .. =>
      abortParts ++ requestParts ++ [.supCatCorrected, .supCatReported]
  | .gather .. | .scatter .. | .combine .. | .seal .. =>
      abortParts ++ requestParts
  | .xpose .. =>
      abortParts ++ requestParts ++ [.streamsNextTile]
  | .take .. | .give .. | .waitslip .. =>
      abortParts ++ [.queuesNextOp, .queuesOps]
  | .digest .. =>
      abortParts ++ [.queuesNextOp, .queuesOps, .replicasNextPost, .replicasPosts]
  | .signal .. =>
      abortParts ++ [.streamsNextToken, .streamsTokens]
  | .structureConfigWrite .. =>
      abortParts ++ presentParts ++ [.queuesComb, .queuesCopies, .queuesResults, .replicasStrays, .replicasUnsafeRegs]
  | .queueEngineOp .. =>
      presentParts ++ logParts ++ [.banksMem, .banksSeals, .draws, .fabricAccs, .fabricCounters, .fabricLocks, .queuesOps, .queuesPortB, .queuesResults,
        .queuesServed, .queuesSlipq, .remoteOutMsgs, .replicasBaroCorr, .streamsCtxs]
  | .queueOpStatusReturn .. =>
      abortParts ++ [.fabricCounters, .pages, .queuesOps, .securityDenialSeen]
  | .slipqWaitRetry .. =>
      [.queuesSlipq, .streamsCtxs]
  | .queueStall .. =>
      logParts ++ [.streamsCtxs]
  | .sqGive .. | .sqTake .. | .rsPost .. | .rsRead .. | .rsConsume .. =>
      endParts ++ [.queuesNextOp, .queuesOps]
  | .qopGive .. | .qopTake .. | .qopRsPost .. | .qopRsRead .. | .qopRsConsume .. =>
      [.queuesNextOp, .queuesOps, .regs]
  | .cqStart .. =>
      presentParts ++ logParts ++ [.queuesComb]
  | .cqZeroingDone .. =>
      presentParts ++ logParts ++ [.banksMem, .banksSeals, .draws, .fabricAccs, .fabricCounters, .queuesComb, .remoteOutMsgs, .replicasBaroCorr,
        .streamsCtxs]
  | .combineSlotArrive .. =>
      abortParts ++ requestParts ++ [.banksMem, .draws, .fabricAccs, .fabricCounters, .fabricLocks, .queuesComb, .queuesPortB, .queuesResults,
        .replicasBaroCorr, .securityDenialSeen]
  | .cqPostRetry .. =>
      presentParts ++ logParts ++ [.banksMem, .banksSeals, .draws, .fabricAccs, .fabricCounters, .queuesComb, .queuesPortB, .queuesResults, .remoteOutMsgs,
        .replicasBaroCorr, .streamsCtxs]
  | .rwinCfgWrite .. =>
      logParts ++ [.replicasStrays, .replicasUnsafeRegs]
  | .putHandoff .. =>
      abortParts ++ requestParts ++ [.fabricCounters, .out, .remoteCounters, .remoteOverdue]
  | .getRequestAtEngine .. =>
      abortParts ++ requestParts ++ [.fabricCounters, .out, .remoteCounters, .remoteOverdue, .securityDenialSeen]
  | .getdataReceive .. =>
      presentParts ++ [.fabricCounters, .fabricPlan, .remoteOutMsgs, .remoteOverdue]
  | .remoteStatusReceive .. =>
      abortParts ++ requestParts ++ [.fabricCounters, .remoteOverdue]
  | .remoteOverdue .. =>
      logParts ++ [.remoteOverdue]
  | .remoteMessageArrive .. =>
      [.fabricCounters, .out, .remoteCounters, .remoteNextMsg, .remoteStaged]
  | .remoteMessageStaged .. =>
      requestParts ++ logParts ++ [.fabricCounters, .fabricPlan, .out, .queuesNextOp, .queuesOps, .queuesSlipq, .remoteCounters, .remoteRingCount,
        .remoteStaged, .supCatCorrected, .supCatReported]
  | .inboundWindowOpen .. | .inboundWindowClose .. =>
      logParts ++ [.banksLastActive, .banksMerge, .fabricCounters, .fabricPlan, .fabricSlots, .out, .queuesNextOp, .queuesOps, .queuesSlipq,
        .remoteCounters, .remoteRingCount, .remoteStaged, .replicasStrays, .replicasUnsafeRegs, .supCatCorrected, .supCatReported]
  | .rinHeadWrite .. =>
      logParts
  | .ballotCfgWrite .. =>
      logParts ++ [.queuesCopies]
  | .ballotPostArrive .. =>
      [.replicasBallots, .replicasPosts]
  | .ballotDecide .. | .ballotVerdictRetry .. =>
      presentParts ++ logParts ++ [.banksMem, .banksSeals, .draws, .fabricAccs, .fabricCounters, .queuesPortB, .queuesResults, .remoteOutMsgs,
        .replicasBallots, .replicasBaroCorr, .streamsCtxs]
  | .ballotReopen .. =>
      [.replicasBallots]
  | .ballotStall .. =>
      logParts ++ [.replicasBallots]
  | .crossCheck .. =>
      logParts ++ [.fabricCounters, .replicasLfsr, .supW1cSet]
  | .scan .. =>
      lossParts ++ [.replicasScans, .replicasWrappers]
  | .scanComplete .. =>
      abortParts ++ presentParts ++ [.banksCacheLru, .banksCacheWays, .banksClassMap, .banksLost, .banksTags, .banksZeroing, .draws, .powerRecord,
        .queuesComb, .queuesResults, .remoteTranslator, .replicasScans, .replicasStrays, .replicasUnsafeRegs, .replicasWrappers, .supCatFreed,
        .supCatReported, .supCatUpsets]
  | .hardenFix .. =>
      [.replicasStrays]
  | .hardenLost .. =>
      abortParts ++ presentParts ++ [.fabricGuests, .queuesComb, .queuesResults, .replicasBallots, .replicasStrays, .replicasUnsafeRegs]
  | .barometerSample .. =>
      [.replicasBaro, .replicasBaroCorr, .replicasLeftP0, .replicasSampled]
  | .tenClose .. | .tenCloseDone .. =>
      abortParts ++ weedParts ++ [.banksCacheLru, .banksCacheWays, .banksCollations, .banksTags, .fabricCounters, .out, .queuesComb, .queuesNextOp,
        .queuesOps, .queuesResults, .remoteCounters, .remoteStaged, .remoteTranslator, .replicasBallots, .replicasStrays, .replicasUnsafeRegs,
        .securityClosing, .securityKeySlots, .securityTransport, .streamsBarrierCount, .streamsBarrierRoot, .supCatFreed, .supCatReported, .supCatUpsets]
  | .keyLoad .. =>
      endParts ++ [.remoteCounters, .securityKeySlots]
  | .keyErase .. =>
      endParts ++ [.banksLastActive, .banksMerge, .fabricCounters, .fabricPlan, .fabricSlots, .out, .queuesNextOp, .queuesOps, .queuesSlipq,
        .remoteCounters, .remoteStaged, .securityKeySlots]
  | .attest .. =>
      endParts ++ [.draws, .pages, .securityTransport]
  | .certRead .. | .fwQuery .. =>
      endParts ++ [.pages]
  | .lcProvision .. | .lcDeploy .. | .lcMaintain .. | .lcReturn .. =>
      weedParts ++ presentParts ++ [.fabricCounters, .fabricPlan, .out, .queuesNextOp, .queuesOps, .queuesSlipq, .remoteCounters, .remoteStaged,
        .securityKeySlots, .securityLcBusy, .securityTransport]
  | .tamperRaise .. | .alarm .. | .alarmRingReceive .. =>
      weedParts ++ presentParts ++ [.fabricCounters, .fabricPlan, .out, .queuesNextOp, .queuesOps, .queuesSlipq, .remoteCounters, .remoteStaged,
        .securityAlarms, .securityKeySlots, .securityTransport]
  | .weedAll .. =>
      weedParts ++ presentParts
  | .weedBank .. =>
      weedParts
  | .pwrDown .. =>
      lossParts ++ [.replicasBaroCorr]
  | .pwrDownComplete .. | .pwrUp .. =>
      endParts ++ [.powerDoms]
  | .pwrDownForce .. =>
      lossParts
  | .bankPwrWrite .. =>
      [.banksLastActive, .banksPauses, .banksValid, .powerDoms, .regs]
  | .bankSleep .. | .retBankEnterOff .. =>
      [.banksCollations, .fabricSlots, .regs]
  | .regulatorLowEntry .. =>
      [.powerDoms]
  | .brownout .. =>
      lossParts ++ [.draws, .replicasScans, .replicasWrappers]
  | .perfSet .. =>
      endParts ++ [.powerPerf]
  | .perfChangeStart .. | .clkSwitch .. =>
      endParts ++ [.powerPerf, .replicasLeftP0]
  | .perfRampDone .. | .perfRelockDone .. =>
      endParts ++ [.banksLastActive, .banksPauses, .banksValid, .powerDoms, .powerPerf, .powerStopped]
  | .doze .. =>
      endParts ++ [.banksCollations, .banksPauses, .boots, .fabricSlots, .powerStopped]
  | .march .. =>
      endParts ++ [.banksLastActive, .banksPauses, .banksValid, .powerDoms, .powerMarchDoms, .powerMarches]
  | .marchOperation .. =>
      weedParts ++ presentParts ++ [.banksMem, .draws, .fabricHolds, .powerRecord, .replicasStrays, .replicasUnsafeRegs]
  | .bankRetire .. =>
      abortParts ++ weedParts ++ [.banksCacheLru, .banksCacheWays, .banksClassMap, .banksCollations, .banksLost, .draws, .powerRecord, .queuesComb,
        .queuesResults, .remoteTranslator, .supCatFreed, .supCatReported, .supCatUpsets]
  | .coreFence .. =>
      weedParts ++ presentParts ++ [.banksCacheLru, .banksCacheWays, .draws, .fabricPlan, .powerRecord, .replicasStrays, .replicasUnsafeRegs]
  | .unfence .. =>
      endParts ++ [.fabricWdogFenced]
  | .cmdGo .. | .cmdRelease .. | .sideGo .. =>
      endParts ++ [.supNextSeq, .supQueued]
  | .cmdDispatch .. =>
      endParts ++ [.supLastDispatch, .supQueued, .supStalled, .supTurn]
  | .almanac .. =>
      endParts ++ [.pages, .supAlmanacCount, .supAlmanacs]
  | .almanacRemoteCapture .. =>
      [.supAlmanacCount, .supAlmanacs]
  | .dieReset .. | .powerOn .. | .chipReset .. | .fwActivate .. | .powerLoss .. =>
      resetParts
  | .evlogPop .. | .evlogClrLost .. =>
      [.regs, .supEventNow, .supEvents]
  | .supStall .. =>
      logParts ++ [.supStalled, .supW1cSet]
  | .resetRelease .. =>
      abortParts ++ weedParts ++ [.banksCacheLru, .banksCacheWays, .banksClassMap, .banksCollations, .banksFolioClears, .banksLost, .banksRawOps,
        .banksRemapCopies, .banksTags, .boots, .fabricAccs, .fabricBooked, .fabricBudgets, .fabricClearWanted, .fabricCounters, .fabricDecided,
        .fabricGuestCount, .fabricGuestNext, .fabricGuestPending, .fabricGuests, .fabricHolds, .fabricLocks, .fabricPlanResv, .fabricRotation,
        .fabricSnapWanted, .fabricSnaps, .fabricSquallNow, .fabricSquallSeen, .fabricSqualls, .fabricTenures, .fabricUsedIn, .fabricUsedNext,
        .fabricWdogFenced, .pages, .pairHi, .pairLo, .powerPerf, .powerStopped, .queuesComb, .queuesCopies, .queuesOps, .queuesResults, .remoteCounters,
        .remoteOverdue, .remoteRingCount, .remoteStaged, .remoteSyncs, .remoteTranslator, .replicasBallots, .replicasLfsr, .replicasPosts, .replicasScans,
        .replicasStrays, .replicasUnsafeRegs, .replicasWrappers, .securityAlarms, .securityClosing, .securityDenialSeen, .securityKeySlots, .securityLcBusy,
        .securityTransport, .streamsBarrierCount, .streamsBarrierRoot, .streamsTokens, .supAlmanacCount, .supAlmanacs, .supCatCorrected, .supCatFreed,
        .supCatReported, .supCatUpsets, .supLastDispatch, .supNextSeq, .supQueued, .supStalled, .supTurn]
  | .bootPhaseComplete .. =>
      weedParts ++ presentParts ++ [.boots, .draws, .fabricCounters, .flash, .powerRecord, .replicasLfsr, .replicasStrays, .replicasUnsafeRegs,
        .securityCertBad, .supLastDispatch]
  | .beaconListenTimeout .. | .readyListenTimeout .. | .beaconMissing .. | .bypassClose .. =>
      [.boots]
  | .beaconReceive .. =>
      [.boots, .powerPerf]
  | .bypassOpen .. =>
      resetParts ++ [.frameBase]
  | .dieAnnounceReceive .. =>
      [.regs, .replicasStrays, .replicasUnsafeRegs]
  | .rstJoin .. | .rstLeave .. =>
      [.boots, .regs]
  | .fwBegin .. | .fwBlock .. | .fwSchedule .. | .fwCancel .. | .fwDiscard .. =>
      endParts ++ [.flash]
  | .fwPoll .. =>
      [.flash, .regs]
  | .lcFuseProgramDone .. =>
      endParts ++ [.securityLcBusy]
  | .pointAnswerReceive .. =>
      abortParts ++ [.streamsTokens]
  | .ballotPostStatusReceive .. =>
      abortParts ++ [.replicasPosts]
  | .almanacReplyReceive .. =>
      endParts ++ [.pages, .supAlmanacs]
  | .registerPairRead .. =>
      [.out, .pairHi]

/-- The commands that take effect in a cycle of their own: cycles may pass before they do. -/
def clocked : Instr → Bool
  | .frameStart .. | .positionDecision .. | .visitorDecision .. | .carrelSwitchGrant .. | .ringPlanCollect .. | .slotDelivered ..
  | .handoverTagsInForce .. | .weedPhase1End .. | .weedZeroRow .. | .folioClassClear .. | .carrelClearEnd .. | .bankWakeEnd .. | .mergeEntryDue ..
  | .mergeFlush .. | .collationRead .. | .collationDone .. | .collationEntryDrop .. | .sealParityWrite .. | .remapCopy .. | .rawOpExecute ..
  | .watchdogFire .. | .counterSnapshot .. | .sequencerTimeslice .. | .endI .. | .fence .. | .epoch .. | .loop .. | .endl .. | .br .. | .setI ..
  | .stepI .. | .seth .. | .emit .. | .gather .. | .scatter .. | .xpose .. | .combine .. | .seal .. | .take .. | .give .. | .waitslip .. | .digest ..
  | .signal .. | .streamIllegal .. | .waitslipResultRetry .. | .queueEngineOp .. | .slipqWaitRetry .. | .queueStall .. | .cqZeroingDone ..
  | .combineSlotArrive .. | .cqPostRetry .. | .putHandoff .. | .remoteOverdue .. | .ballotVerdictRetry .. | .ballotStall .. | .bankClockGate ..
  | .bankSleep .. | .regulatorLowEntry .. | .marchOperation .. | .supStall .. | .readyListenTimeout .. | .retBankEnterOff .. => true
  | .regWindowEdge .. | .ringPlanInForce .. | .plainAccessRequest .. | .hostWindowAccess .. | .registerWrite .. | .registerPairWrite ..
  | .bankOwnWrite .. | .catAlloc .. | .catEntryInForce .. | .catFree .. | .catUpdate .. | .winSync .. | .winSyncDone .. | .translatorFill ..
  | .carrelCacheEnter .. | .carrelCacheExit .. | .mergeFlushAll .. | .bankRemapWrite .. | .rawRead .. | .rawWrite .. | .rawSealmark .. | .bankEcntClr ..
  | .segmentFreeze .. | .squallPop .. | .squallClrLost .. | .perfSnap .. | .perfClear .. | .pointTokenReceive .. | .barrierArriveReceive ..
  | .barrierReleaseReceive .. | .arm .. | .armLoadDone .. | .rearm .. | .rearmLoadDone .. | .halt .. | .resume .. | .abort .. | .query .. | .replay ..
  | .taskAbortReceive .. | .contextStartFrame .. | .sequencerTake .. | .structureConfigWrite .. | .queueOpStatusReturn .. | .sqGive .. | .sqTake ..
  | .rsPost .. | .rsRead .. | .rsConsume .. | .qopGive .. | .qopTake .. | .qopRsPost .. | .qopRsRead .. | .qopRsConsume .. | .cqStart ..
  | .rwinCfgWrite .. | .getRequestAtEngine .. | .getdataReceive .. | .remoteStatusReceive .. | .remoteMessageArrive .. | .remoteMessageStaged ..
  | .inboundWindowOpen .. | .inboundWindowClose .. | .inboundCloseComplete .. | .rinHeadWrite .. | .djobCfgWrite .. | .ballotCfgWrite ..
  | .ballotPostArrive .. | .ballotDecide .. | .ballotReopen .. | .crossCheck .. | .scan .. | .scanComplete .. | .hardenFix .. | .hardenLost ..
  | .barometerSample .. | .tenOpen .. | .tenClose .. | .tenCloseDone .. | .keyLoad .. | .keyErase .. | .attest .. | .certRead .. | .lcProvision ..
  | .lcDeploy .. | .lcMaintain .. | .lcReturn .. | .tamperRaise .. | .tamperEnd .. | .alarm .. | .alarmRingReceive .. | .weedAll .. | .weedBank ..
  | .pwrDown .. | .pwrDownComplete .. | .pwrDownForce .. | .pwrUp .. | .pwrUpComplete .. | .bankPwrWrite .. | .brownout .. | .perfSet ..
  | .perfChangeStart .. | .perfRampDone .. | .perfRelockDone .. | .doze .. | .clkSwitch .. | .march .. | .bankRetire .. | .coreFence .. | .unfence ..
  | .cmdGo .. | .cmdRelease .. | .cmdDispatch .. | .cmdCntClr .. | .sideGo .. | .almanac .. | .almanacRemoteCapture .. | .drainStat .. | .dieReset ..
  | .evlogPop .. | .evlogClrLost .. | .powerOn .. | .chipReset .. | .resetRelease .. | .bootPhaseComplete .. | .beaconListenTimeout ..
  | .beaconReceive .. | .beaconMissing .. | .bypassOpen .. | .dieAnnounceReceive .. | .rstJoin .. | .rstLeave .. | .bypassClose .. | .fwBegin ..
  | .fwBlock .. | .fwVerify .. | .fwVerifyDone .. | .fwQuery .. | .fwSchedule .. | .fwCancel .. | .fwDiscard .. | .fwPoll .. | .fwActivate ..
  | .powerLoss .. | .storePortResponse .. | .lcFuseProgramDone .. | .pointAnswerReceive .. | .ballotPostStatusReceive .. | .almanacReplyReceive ..
  | .registerPairRead .. => false

/-- The state that a command starts from: the one before it or, where the command takes effect in a cycle of its own, that one in a
later cycle. -/
def startsFrom (c : Instr) (s m : State) : Prop := m = s ∨ (clocked c = true ∧ ∃ k, m = advanceTo s k)

/-- The dies that a command names. -/
def namedDies : Instr → List Nat
  | .frameStart | .regWindowEdge | .ringPlanInForce | .slotDelivered _ | .translatorFill _ | .mergeEntryDue _ | .mergeFlush _ | .pointTokenReceive _
  | .barrierArriveReceive _ | .barrierReleaseReceive _ | .queueEngineOp _ | .queueOpStatusReturn _ | .combineSlotArrive _ | .putHandoff _
  | .getRequestAtEngine _ | .remoteOverdue _ | .remoteMessageStaged _ | .ballotPostArrive _ | .beaconMissing | .fwPoll | .fwActivate
  | .storePortResponse _ _ | .pointAnswerReceive _ | .ballotPostStatusReceive _ => []
  | .positionDecision d _ | .visitorDecision d _ _ | .carrelSwitchGrant d _ _ | .ringPlanCollect d | .plainAccessRequest d _ _ _ _ _ _
  | .hostWindowAccess d _ _ _ _ _ _ | .registerWrite d _ _ _ | .registerPairWrite d _ _ _ | .bankOwnWrite d _ _ _ | .carrelCacheEnter d _ _ _
  | .carrelCacheExit d _ _ _ | .carrelClearEnd d _ | .mergeFlushAll d _ _ _ | .bankRemapWrite d _ _ _ _ | .rawRead d _ | .rawWrite d _
  | .rawSealmark d _ | .rawOpExecute d | .bankEcntClr d _ _ | .segmentFreeze d _ _ _ | .watchdogFire d _ _ | .squallPop d _ _ | .squallClrLost d _ _
  | .perfSnap d _ _ | .perfClear d _ _ | .counterSnapshot d | .taskAbortReceive d _ _ | .sequencerTake d _ | .structureConfigWrite d _ _ _
  | .qopGive d _ _ | .qopTake d _ _ | .qopRsPost d _ _ | .qopRsRead d _ _ | .qopRsConsume d _ _ | .cqStart d _ _ _ _ | .cqZeroingDone d _ _
  | .cqPostRetry d _ _ | .rwinCfgWrite d _ _ _ _ | .getdataReceive d _ | .remoteStatusReceive d _ | .remoteMessageArrive d _
  | .inboundWindowOpen d _ _ _ | .inboundWindowClose d _ _ _ | .inboundCloseComplete d _ | .rinHeadWrite d _ _ _ | .djobCfgWrite d _ _ _
  | .ballotCfgWrite d _ _ _ | .ballotDecide d _ | .ballotVerdictRetry d _ | .ballotReopen d _ _ | .ballotStall d _ | .crossCheck d _ _ _
  | .scanComplete d _ | .hardenFix d _ _ | .hardenLost d _ | .barometerSample d _ | .tamperRaise d _ | .tamperEnd d _ | .alarmRingReceive d _ _
  | .pwrDownComplete d _ | .pwrUpComplete d _ | .bankPwrWrite d _ _ _ | .regulatorLowEntry d _ | .brownout d _ | .perfChangeStart d | .perfRampDone d
  | .perfRelockDone d | .cmdCntClr d _ | .sideGo d _ _ | .evlogPop d _ | .evlogClrLost d _ | .supStall d | .powerOn d | .chipReset d | .resetRelease d
  | .bootPhaseComplete d _ | .beaconListenTimeout d | .beaconReceive d _ | .readyListenTimeout d | .bypassOpen d | .dieAnnounceReceive d
  | .rstJoin d _ _ | .rstLeave d _ _ | .bypassClose d | .fwVerifyDone d | .powerLoss d | .lcFuseProgramDone d | .almanacReplyReceive d _
  | .registerPairRead d _ _ => [d.toNat]
  | .handoverTagsInForce bank | .weedPhase1End bank | .weedZeroRow bank | .bankWakeEnd bank | .remapCopy bank _ | .bankClockGate bank | .bankSleep bank
  | .marchOperation bank _ | .retBankEnterOff bank => [pbDie bank.toNat]
  | .catAlloc src | .catEntryInForce src | .catFree src | .catUpdate src | .winSync src | .winSyncDone src | .arm src | .rearm src | .halt src
  | .resume src | .abort src | .query src | .replay src | .sqGive src | .sqTake src | .rsPost src | .rsRead src | .rsConsume src | .scan src
  | .tenOpen src | .tenClose src | .tenCloseDone src | .keyLoad src | .keyErase src | .attest src | .certRead src | .lcProvision src | .lcDeploy src
  | .lcMaintain src | .lcReturn src | .alarm src | .weedAll src | .weedBank src | .pwrDown src | .pwrDownForce src | .pwrUp src | .perfSet src
  | .doze src | .clkSwitch src | .march src | .bankRetire src | .coreFence src | .unfence src | .cmdGo src _ | .cmdRelease src _ | .cmdDispatch src
  | .almanac src | .drainStat src | .dieReset src | .fwBegin src | .fwBlock src | .fwVerify src | .fwQuery src | .fwSchedule src | .fwCancel src
  | .fwDiscard src => [src.die]
  | .folioClassClear folio | .collationRead folio | .collationDone folio | .collationEntryDrop folio | .sealParityWrite folio => [pbDie (foBank folio.toNat)]
  | .armLoadDone ctx | .rearmLoadDone ctx | .contextStartFrame ctx | .sequencerTimeslice ctx | .endI ctx | .fence ctx | .epoch ctx | .loop ctx
  | .endl ctx | .br ctx | .setI ctx | .stepI ctx | .seth ctx | .emit ctx | .gather ctx | .scatter ctx | .xpose ctx | .combine ctx | .seal ctx
  | .take ctx | .give ctx | .waitslip ctx | .digest ctx | .signal ctx | .streamIllegal ctx | .waitslipResultRetry ctx | .slipqWaitRetry ctx
  | .queueStall ctx => [ctxDie ctx]
  | .almanacRemoteCapture d origin _ => [d.toNat, origin.toNat]

/-- The registers of a command slot that its completion writes, the counts and interrupts of its window (a core's
commands count in its tenancy's window), and EVLOG_CTL, whose LOST a full event log counts. -/
def slotRegs (src : CmdSrc) : List Nat :=
  let d := src.die
  [key d src.ctl, key d src.sts, key d .evlogCtl] ++ (List.range src.results).map (fun n => key d (src.res n))
    ++ (match src.win with | some w => [key d (.cmdCnt w), key d (.hostIrq w)] | none => (List.range 16).map (fun w => key d (.cmdCnt w)))

/-- The registers of the slots whose commands are in progress. -/
def progressRegs (s : State) : List Nat := s.sup.cmds.flatMap (fun c => slotRegs c.1)

/-- The registers of the slot that waits for a die's level change. -/
def changeRegs (s : State) (d : Nat) : List Nat :=
  match (SMap.find s.power.perf d).bind (·.src) with | some src => slotRegs src | none => []

/-- The registers of the slot that loads a context. -/
def loadRegs (s : State) (c : CtxId) : List Nat := match (ctxOf s c).loading with | some l => slotRegs l.src | none => []

/-- FW_STAT of every die. -/
def fwRegs (s : State) : List Nat := (List.range s.dies).map (fun d => key d .fwStat)

/-- The registers that a command may change, for the commands of which this is a short list. -/
def mayWriteRegs (s : State) : Instr → Option (List Nat)
  | .ringPlanInForce .. | .mergeEntryDue .. | .pointTokenReceive .. | .barrierArriveReceive .. | .barrierReleaseReceive .. | .contextStartFrame ..
  | .sequencerTake .. | .sequencerTimeslice .. | .fence .. | .epoch .. | .loop .. | .endl .. | .br .. | .setI .. | .stepI .. | .seth ..
  | .waitslipResultRetry .. | .slipqWaitRetry .. | .remoteMessageArrive .. | .ballotPostArrive .. | .ballotReopen .. | .hardenFix ..
  | .barometerSample .. | .regulatorLowEntry .. | .almanacRemoteCapture .. | .beaconListenTimeout .. | .beaconReceive .. | .readyListenTimeout ..
  | .beaconMissing .. | .bypassClose .. | .registerPairRead .. => some []
  | .drainStat src | .query src | .unfence src | .winSync src | .replay src | .resume src | .sqGive src | .sqTake src | .rsPost src
  | .rsRead src | .rsConsume src | .catAlloc src | .certRead src | .almanac src | .fwQuery src | .perfSet src | .winSyncDone src
  | .cmdDispatch src => some (slotRegs src)
  | .tenOpen src => some (key src.die (.tenStat (cmdArgF s src 0 0 4)) :: slotRegs src)
  | .keyLoad src => some (key src.die (.keyStat (cmdTen s src)) :: key src.die (.tenStat (cmdTen s src)) :: slotRegs src)
  | .attest src => some (key src.die (.tenStat (cmdTen s src)) :: slotRegs src)
  | .catUpdate src =>
    let e := hEntry (cmdArgF s src 0 0 20)
    let d := hDie (cmdArgF s src 0 0 20)
    some (key d (.catWord e 0) :: key d (.catWord e 1) :: slotRegs src)
  | .pwrUp src => some (key src.die (.pwrDom (cmdDomain s src)) :: slotRegs src)
  | .clkSwitch src => some (key src.die .perfStat :: slotRegs src)
  | .fwBegin src | .fwBlock src | .fwVerify src | .fwDiscard src => some (key src.die .fwStat :: slotRegs src)
  | .fwSchedule src | .fwCancel src => some (fwRegs s ++ slotRegs src)
  | .fwPoll => some (fwRegs s)
  | .fwVerifyDone d => some (key d.toNat .fwStat :: progressRegs s)
  | .lcFuseProgramDone d =>
    some (key d.toNat .lcStat :: (match SMap.find s.security.lcBusy d.toNat with | some p => slotRegs p.2 | none => []))
  | .armLoadDone c | .rearmLoadDone c => some (loadRegs s c)
  | .perfChangeStart d => some (key d.toNat .perfStat :: changeRegs s d.toNat)
  | .pwrDownComplete d n => some (key d.toNat (.pwrDom n.toNat) :: progressRegs s)
  | .cmdGo src _ | .cmdRelease src _ => some ((List.range src.args).map (fun n => key src.die (src.arg n)) ++ slotRegs src)
  | .sideGo d w _ => some (slotRegs (.side d w))
  | .almanacReplyReceive d w => some (slotRegs (.side d w))
  | .djobCfgWrite d _ n _ => some (key d.toNat (.djobCfg n.toNat) :: (List.range 4).map (fun i => key d.toNat (.djobKey n.toNat i)))
  | .ballotCfgWrite d _ b _ => some [key d.toNat (.ballotCfg b.toNat), key d.toNat .evlogCtl]
  | .bankEcntClr d _ b => some [key d.toNat (.bankEcnt b.toNat)]
  | .cmdCntClr d w => some [key d.toNat (.cmdCnt w.toNat)]
  | .inboundCloseComplete d n => some [key d.toNat (.rinSrc n.toNat), key d.toNat (.rinCfg n.toNat)]
  | .rinHeadWrite d _ n _ => some [key d.toNat (.rinHead n.toNat), key d.toNat (.rinCfg n.toNat), key d.toNat .evlogCtl]
  | .rwinCfgWrite d _ n _ _ =>
    some [key d.toNat (.rwinCfg n.toNat), key d.toNat (.rwinPeer n.toNat), key d.toNat (.rwinExt n.toNat), key d.toNat .evlogCtl]
  | .tamperEnd d _ => some [key d.toNat .secAlarm]
  | .rstJoin d _ _ | .rstLeave d _ _ => some [key d.toNat .rstCtl]
  | .rawRead d _ | .rawWrite d _ | .rawSealmark d _ => some [key d.toNat .rawCmd]
  | .squallPop d _ _ | .squallClrLost d _ _ => some [key d.toNat .squallCtl]
  | .evlogPop d _ | .evlogClrLost d _ => some [key d.toNat .evlogCtl]
  | .perfSnap d _ _ | .perfClear d _ _ => some [key d.toNat .perfCtl]
  | .segmentFreeze d _ seg _ => some [key d.toNat (.segCtl seg.toNat)]
  | .crossCheck d _ _ _ => some [key d.toNat .xchkStat, key d.toNat .evlogCtl]
  | .bankPwrWrite d _ b _ => some [key d.toNat (.bankPwr b.toNat)]
  | .bankClockGate b | .bankSleep b | .retBankEnterOff b | .remapCopy b _ | .weedZeroRow b =>
    some [key (pbDie b.toNat) (.bankPwr (pbBank b.toNat))]
  | .supStall d => some [key d.toNat .evlogCtl, key d.toNat (.hostIrq 0)]
  | .queueStall c => some [key (ctxDie c) .evlogCtl]
  | _ => none

end Sys2Proof.Claims

open Sys2Proof.Claims

/-! ### What each command does, and where it completes -/

/-- Frame start, window edge, decisions and ring plan take effect at their cycle: R72, R97, R99, R119-R125; the event-driven clock is the model's (log 1). -/
def Obligations.ClockRowsTakeEffectAtTheirCycle : Prop :=
  (∀ (s : State),
    rootStopped s = false →
    Runs (.frameStart) s fun t =>
        t.frame = s.frame + 1 ∧
        t.now = max s.now (256 * (s.frame + 1))) ∧
  (∀ (s : State),
    s.now = 256 * s.frame →
    s.fabric.window < s.frame / 16 →
    Runs (.regWindowEdge) s fun t =>
        t.fabric.window = s.frame / 16 ∧
        t.fabric.budgets = budgetsEdge s ∧
        t.fabric.usedNext = [] ∧
        t.fabric.guestCount = s.fabric.guestNext ∧
        t.fabric.guestNext = []) ∧
  (∀ (s : State) (d : Die) (k : BitVec 7),
    ∀ p, p = positionOf s k.toNat →
    s.present d.toNat = true →
    rootStopped s = false →
    s.now ≤ 2 * p - 4 →
    2 * p - 4 < frameEnd s →
    decidedTo s d.toNat ≤ p →
    Runs (.positionDecision d k) s fun t =>
        t.now = 2 * p - 4 ∧
        decidedTo t d.toNat = p + 1) ∧
  (∀ (s : State) (d : Die) (core : CoreNo) (k : BitVec 7),
    ∀ p, p = s.frame * 128 + k.toNat →
    s.present d.toNat = true →
    rootStopped s = false →
    k.toNat % 4 = 0 →
    s.now ≤ 2 * p →
    SMap.get s.fabric.decided (windowKey d.toNat core.toNat) 0 ≤ p →
    Runs (.visitorDecision d core k) s fun t =>
        t.now = 2 * p ∧
        SMap.get t.fabric.decided (windowKey d.toNat core.toNat) 0 = p + 1) ∧
  (∀ (s : State) (d : Die),
    s.present d.toNat = true →
    rootStopped s = false →
    s.now < frameEnd s →
    inPlan s d.toNat = true →
    s.fabric.plan.dies = [] ∨ s.fabric.plan.frame = s.frame →
    Runs (.ringPlanCollect d) s fun t =>
        t.now = frameEnd s - 1 ∧
        t.fabric.plan.frame = s.frame ∧
        t.fabric.plan.dies.contains d.toNat = true) ∧
  (∀ (s : State),
    ∀ l : List Planned, s.fabric.plan.granted = some l →
    s.now = 256 * s.frame →
    planFrame s.fabric.plan = none ∨ planFrame s.fabric.plan = some (s.frame + 1) →
    Runs (.ringPlanInForce) s fun t =>
        t.fabric.plan.granted = none ∧
        l.all (fun a => (s.fabric.slots.find? (fun x => x.id == a.slot)).isNone || a.route.all (fun r => isBooked t r.1 r.2)) = true)

/-- Accesses enter, are granted at a carrel switch, and are delivered: R61, R64, R72-R76, R100-R103; refused forms and free values as in logs 4, 8 and 16. -/
def Obligations.AccessesEnterRunAndAreDelivered : Prop :=
  (∀ (s : State) (d : Die) (core : CoreNo) (port : OwnerPort) (write : Bool) (target : AccessTarget) (len : Nat) (data : List Byte),
    s.present d.toNat = true →
    0 < len →
    (accessEnd target).addr.toNat % 256 + len ≤ 256 →
    accessValid s target = true →
    coreFenced s d.toNat core.toNat = false →
    Runs (.plainAccessRequest d core port write target len data) s fun t =>
        s.fabric.nextSlot < t.fabric.nextSlot ∧
        t.fabric.slots.any (fun y => y.id == s.fabric.nextSlot + 1 && y.ident == identOf d.toNat core.toNat && y.arrive == s.now && y.len == len && y.port == port && y.write == write) = true) ∧
  (∀ (s : State) (d : Die) (core : CoreNo) (port : OwnerPort) (write : Bool) (target : AccessTarget) (len : Nat) (data : List Byte),
    s.present d.toNat = true →
    0 < len →
    (accessEnd target).addr.toNat % 256 + len ≤ 256 →
    accessValid s target = false →
    Runs (.plainAccessRequest d core port write target len data) s fun t =>
        t.out.head? = some (.access (identOf d.toNat core.toNat) (stWord Code.badArg) []) ∧
        t.fabric.slots = s.fabric.slots) ∧
  (∀ (s : State) (d : Die) (core : CoreNo) (port : OwnerPort) (write : Bool) (target : AccessTarget) (len : Nat) (data : List Byte),
    s.present d.toNat = true →
    0 < len →
    (accessEnd target).addr.toNat % 256 + len ≤ 256 →
    accessValid s target = true →
    coreFenced s d.toNat core.toNat = true →
    Runs (.plainAccessRequest d core port write target len data) s fun t =>
        t.out.head? = some (.access (identOf d.toNat core.toNat) (stWord Code.fenced) []) ∧
        t.fabric.slots = s.fabric.slots) ∧
  (∀ (s : State) (d : Die) (via : HostVia) (win : Win) (write : Bool) (ta : TA) (len : Nat) (data : List Byte),
    s.present d.toNat = true →
    0 < len →
    ta.toNat % 256 + len ≤ 256 →
    s.present (taDie ta.toNat) = true →
    via = .host ∨ ∃ i, via = .steward i ∧ rf s d.toNat (.stewTen i.toNat) 0 4 = win.toNat →
    Runs (.hostWindowAccess d via win write ta len data) s fun t =>
        t.fabric.nextSlot = s.fabric.nextSlot + 1 ∧
        t.fabric.slots.any (fun y => y.id == s.fabric.nextSlot + 1 && y.ten == win && y.arrive == s.now && y.len == len && y.write == write && y.ident == identOf d.toNat (match via with | .host => 0x830 | .steward _ => 0x820)) = true) ∧
  (∀ (s : State) (id : Nat),
    ∀ x : Slot, slotAt s id .granted = some x →
    ∀ c, c = max s.now x.due →
    ∀ y : Slot, slotAt (advanceTo s c) id .granted = some y →
    rootStopped s = false →
    c < frameEnd s →
    ownDelivery y = false →
    Runs (.slotDelivered id) s fun t =>
        t.now = c ∧
        (y.kind = .plain → y.windowEnd = none → t.out.head? = some (.access y.ident y.answer (if y.write then [] else y.data)) ∧ t.fabric.slots.all (fun z => z.id != id) = true)) ∧
  (∀ (s : State) (id : Nat),
    ∀ x : Slot, slotAt s id .granted = some x →
    ∀ c, c = max s.now x.due →
    ∀ y : Slot, slotAt (advanceTo s c) id .granted = some y →
    ∀ e : BitVec 20 × BitVec 48, (match y.dst with | .store h o => some (h, o) | _ => none) = some e →
    rootStopped s = false →
    c < frameEnd s →
    stCode y.status = Code.done →
    Runs (.slotDelivered id) s fun t =>
        t.now = c ∧
        t.out.head? = some (.storeWrite e.1 e.2 y.data) ∧
        (slotAt t id .storeWrite).isSome = true) ∧
  (∀ (s : State) (id : Nat) (data : List Byte),
    ∀ x : Slot, slotAt s id .storeRead = some x →
    Runs (.storePortResponse id data) s fun t =>
        t.fabric.slots.any (fun y => y.id == id && y.stage == .waiting && y.data == fit x.len data && y.arrive == s.now) = true) ∧
  (∀ (s : State) (id : Nat) (data : List Byte),
    ∀ x : Slot, slotAt s id .storeWrite = some x →
    slotAt s id .storeRead = none →
    x.kind = .plain →
    Runs (.storePortResponse id data) s fun t =>
        t.out.head? = some (.access x.ident x.answer (if x.write then [] else x.data))) ∧
  (∀ (s : State) (id : Nat),
    ∀ x : Slot, s.fabric.slots.find? (fun x => x.id == id && x.stage == .translate) = some x →
    ∀ w : Nat × Nat × Bool, x.windowEnd = some w →
    ∀ ta, ta = descriptorTa s w.1 (w.2.1 / catPage s (hDie w.1) (hEntry w.1)) →
    ∀ b, b = taPkgBank ta →
    windowStage s x = .translate →
    domUp s (hDie w.1) (bankDomain (pbBank b)) = true →
    pauseOf s b = none →
    asleep s b = false →
    stCode (readBlock (touchBank s b) ta 8 0x7FFF (slotTask s x)).2.status = Code.done →
    Runs (.translatorFill id) s fun t =>
        t.remote.translator.any (fun k => k.die == hDie w.1 && k.entry == hEntry w.1 && k.page == w.2.1 / catPage s (hDie w.1) (hEntry w.1)) = true) ∧
  (∀ (s : State) (d : Die) (core : CoreNo) (port : OwnerPort),
    ∀ x : Slot, ownerRequest s d.toNat core.toNat port = some x →
    ∀ b : Nat × Nat, carrelPlace s x = some b →
    ∀ c : Nat, ((List.range (frameEnd s - s.now)).map (· + s.now)).find? (ownerFree s b.1 b.2) = some c →
    s.present d.toNat = true →
    rootStopped s = false →
    stillHit s x = true →
    earlyRefusal s x = none →
    x.dry = false →
    dieStopped s d.toNat = false →
    outranked s x b.1 = false →
    pauseOf s b.1 = none →
    levelChanging s d.toNat = false →
    Runs (.carrelSwitchGrant d core port) s fun t =>
        t.now = c ∧
        t.fabric.slots.any (fun y => y.id == x.id && y.stage == .granted && y.grantCc == c) = true)

/-- Register writes store what the field maps allow, or are refused: R171, R229, R399, R448-R468. -/
def Obligations.RegisterWritesStoreOrAreRefused : Prop :=
  (∀ (s : State) (d : Die) (writer : RegWriter) (off : Word) (val : Word),
    s.present d.toNat = true →
    writer = .window 0 →
    isPage off.toNat = false →
    Reg.decode s.dies 0 off.toNat = some .pwrTimer →
    Runs (.registerWrite d writer off val) s fun t =>
        regGet t d.toNat .pwrTimer = word (field val 0 24)) ∧
  (∀ (s : State) (d : Die) (writer : RegWriter) (off : Word) (val : Word),
    s.present d.toNat = true →
    ∀ w : Win, (match writer with | .window v => some v | .core _ => none) = some w →
    w ≠ 0 →
    isPage off.toNat = false →
    Reg.decode s.dies w.toNat off.toNat = some .pwrTimer →
    Runs (.registerWrite d writer off val) s fun t =>
        rf t d.toNat .pwrTimer 24 8 = Code.denied ∧
        rf t d.toNat .pwrTimer 0 24 = rf s d.toNat .pwrTimer 0 24) ∧
  (∀ (s : State) (d : Die) (writer : RegWriter) (off : Word) (val : Word),
    s.present d.toNat = true →
    ∀ c : CoreNo, (match writer with | .core v => some v | .window _ => none) = some c →
    ∀ r : Reg, Reg.decodeHall c.toNat off.toNat = some r →
    domUp s d.toNat (xbarDomain (c.toNat / 32)) = true →
    r = .qopArg c.toNat ∨ r = .qopData c.toNat 0 →
    Runs (.registerWrite d writer off val) s fun t =>
        regGet t d.toNat r = val) ∧
  (∀ (s : State) (d : Die) (writer : RegWriter) (off : Word) (val : Word),
    s.present d.toNat = true →
    ∀ w : Win, (match writer with | .window v => some v | .core _ => none) = some w →
    isPage off.toNat = true →
    off.toNat < 0x15000 →
    Runs (.registerWrite d writer off val) s fun t =>
        pageRead t d.toNat w.toNat 0 (off.toNat - 0x14000) 4 = leBytes 4 val.toNat) ∧
  (∀ (s : State) (d : Die) (writer : RegWriter) (off : Word) (val : Word),
    s.present d.toNat = true →
    ∀ w : Win, (match writer with | .window v => some v | .core _ => none) = some w →
    isPage off.toNat = false →
    Reg.decode s.dies w.toNat off.toNat = none →
    Runs (.registerWrite d writer off val) s fun t =>
        t.pages = s.pages ∧
        t.sup = s.sup ∧
        t.streams = s.streams ∧
        t.queues = s.queues ∧
        t.security = s.security ∧
        t.boots = s.boots ∧
        t.banks.mem = s.banks.mem) ∧
  (∀ (s : State) (d : Die) (win : Win) (off : Word) (val : Word),
    s.present d.toNat = true →
    ∀ r : Reg, Reg.decode s.dies win.toNat off.toNat = some r →
    ∀ p : Nat × Bool, Reg.pairOf r = some p →
    regUp s d.toNat r = true →
    p.2 = false →
    Runs (.registerPairWrite d win off val) s fun t =>
        SMap.find t.pairLo (pairKey d.toNat win.toNat p.1) = some val ∧
        SMap.find t.pairHi (pairKey d.toNat win.toNat p.1) = none) ∧
  (∀ (s : State) (d : Die) (win : Win) (off : Word) (val : Word),
    s.present d.toNat = true →
    win = 0 →
    Reg.decode s.dies 0 off.toNat = some (.xchkSeed true) →
    ∀ lo : Word, SMap.find s.pairLo (pairKey d.toNat 0 (Reg.xchkSeed false).code) = some lo →
    Runs (.registerPairWrite d win off val) s fun t =>
        regGet t d.toNat (.xchkSeed false) = lo ∧
        regGet t d.toNat (.xchkSeed true) = val ∧
        SMap.find t.pairLo (pairKey d.toNat 0 (Reg.xchkSeed false).code) = none) ∧
  (∀ (s : State) (d : Die) (win : Win) (off : Word) (val : Word),
    s.present d.toNat = true →
    ∀ r : Reg, Reg.decode s.dies win.toNat off.toNat = some r →
    isStruct r = true →
    (match r with | .pmcgCfg _ => false | _ => true) = true →
    regUp s d.toNat r = true →
    structStatus s d.toNat win.toNat r val = Code.done →
    Runs (.structureConfigWrite d win off val) s fun t =>
        regGet t d.toNat r = word (structFields r val)) ∧
  (∀ (s : State) (d : Die) (win : Win) (off : Word) (val : Word),
    s.present d.toNat = true →
    ∀ r : Reg, Reg.decode s.dies win.toNat off.toNat = some r →
    ∀ g : Nat, groupNo r = some g →
    isStruct r = true →
    256 ≤ g →
    regUp s d.toNat r = true →
    structStatus s d.toNat win.toNat r val = Code.done →
    Runs (.structureConfigWrite d win off val) s fun t =>
        t.queues.copies = s.queues.copies ++ [⟨d.toNat, r.code, word (structFields r val), 2, s.frame⟩] ∧
        rf t d.toNat r 24 8 = Code.done) ∧
  (∀ (s : State) (d : Die) (win : Win) (off : Word) (val : Word),
    s.present d.toNat = true →
    ∀ r : Reg, Reg.decode s.dies win.toNat off.toNat = some r →
    isStruct r = true →
    regUp s d.toNat r = true →
    structStatus s d.toNat win.toNat r val ≠ Code.done →
    Runs (.structureConfigWrite d win off val) s fun t =>
        rf t d.toNat r 24 8 = structStatus s d.toNat win.toNat r val ∧
        rf t d.toNat r 0 24 = rf s d.toNat r 0 24) ∧
  (∀ (s : State) (d : Die) (win : Win) (bank : BitVec 13),
    s.present d.toNat = true →
    win = 0 →
    domUp s d.toNat (bankDomain bank.toNat) = true →
    Runs (.bankEcntClr d win bank) s fun t =>
        regGet t d.toNat (.bankEcnt bank.toNat) = 0) ∧
  (∀ (s : State) (d : Die) (win : Win),
    s.present d.toNat = true →
    Runs (.cmdCntClr d win) s fun t =>
        regGet t d.toNat (.cmdCnt win.toNat) = 0)

/-- A read of a register pair answers and captures: R319, R446, R448. -/
def Obligations.PairReadsAnswerAndCapture : Prop :=
  (∀ (s : State) (d : Die) (win : Win) (off : Word),
    s.present d.toNat = true →
    ∀ r : Reg, Reg.decode s.dies win.toNat off.toNat = some r →
    ∀ p : Nat × Bool, Reg.pairOf r = some p →
    p.2 = false →
    Runs (.registerPairRead d win off) s fun t =>
        t.out = .regRead d win off (regRead s d.toNat win.toNat r) :: s.out ∧
        SMap.find t.pairHi (pairKey d.toNat win.toNat p.1) = some (offsetRead s d.toNat win.toNat (off.toNat + 4)) ∧
        t.regs = s.regs) ∧
  (∀ (s : State) (d : Die) (win : Win) (off : Word),
    s.present d.toNat = true →
    ∀ r : Reg, Reg.decode s.dies win.toNat off.toNat = some r →
    ∀ p : Nat × Bool, Reg.pairOf r = some p →
    ∀ h : Word, SMap.find s.pairHi (pairKey d.toNat win.toNat p.1) = some h →
    p.2 = true →
    Runs (.registerPairRead d win off) s fun t =>
        t.out = .regRead d win off h :: s.out ∧
        SMap.find t.pairHi (pairKey d.toNat win.toNat p.1) = none) ∧
  (∀ (s : State) (d : Die) (win : Win) (off : Word),
    s.present d.toNat = true →
    ∀ r : Reg, Reg.decode s.dies win.toNat off.toNat = some r →
    regUp s d.toNat r = false →
    Reg.pairOf r = none →
    isPage off.toNat = false →
    Runs (.registerPairRead d win off) s fun t =>
        t.out = .regRead d win off 0 :: s.out) ∧
  (∀ (s : State) (d : Die) (win : Win) (off : Word),
    s.present d.toNat = true →
    ∀ r : Reg, Reg.decode s.dies win.toNat off.toNat = some r →
    isUnsafe s d.toNat r = true →
    Reg.pairOf r = none →
    isPage off.toNat = false →
    Runs (.registerPairRead d win off) s fun t =>
        t.out = .regRead d win off 0 :: s.out)

/-- Freeze, watchdog, squall log, counters and event log act on their state: R112-R115, R129-R134, R412. -/
def Obligations.MonitoringRegistersActOnTheirState : Prop :=
  (∀ (s : State) (d : Die) (win : Win) (seg : SegId) (val : Word),
    s.present d.toNat = true →
    segExists s.dies seg.toNat = true →
    win = 0 →
    Runs (.segmentFreeze d win seg val) s fun t =>
        rf t d.toNat (.segCtl seg.toNat) 0 1 = field val 0 1 ∧
        rf t d.toNat (.segCtl seg.toNat) 24 8 = Code.done ∧
        rf t d.toNat (.segCtl seg.toNat) 1 1 = (if bit val 1 && !(SMap.find s.sup.w1cSet (w1cKey d.toNat (.segCtl seg.toNat) 1)).any (fun c => c / 2 == s.now / 2) then 0 else rf s d.toNat (.segCtl seg.toNat) 1 1) ∧
        t.fabric.tenures = s.fabric.tenures) ∧
  (∀ (s : State) (d : Die) (win : Win) (seg : SegId) (val : Word),
    s.present d.toNat = true →
    segExists s.dies seg.toNat = true →
    win ≠ 0 →
    Runs (.segmentFreeze d win seg val) s fun t =>
        rf t d.toNat (.segCtl seg.toNat) 24 8 = Code.denied ∧
        rf t d.toNat (.segCtl seg.toNat) 0 1 = rf s d.toNat (.segCtl seg.toNat) 0 1 ∧
        t.fabric = s.fabric) ∧
  (∀ (s : State) (d : Die) (seg : SegId) (cls : SlotClass),
    ∀ u : Tenure, SMap.find s.fabric.tenures (orderKey (d.toNat * 65536 + seg.toNat) (clsNo cls)) = some u →
    ∀ c, c = max s.now (u.since + 256 * max 1 (rf s d.toNat .wdogCtl 0 16)) →
    s.present d.toNat = true →
    bit (regGet s d.toNat .wdogCtl) 31 = true →
    rootStopped s = false →
    c < frameEnd s →
    Runs (.watchdogFire d seg cls) s fun t =>
        t.now = c ∧
        t.fabric.wdogFenced.contains u.holder = true ∧
        SMap.find t.fabric.tenures (orderKey (d.toNat * 65536 + seg.toNat) (clsNo cls)) = none ∧
        bit (regGet t d.toNat (.segCtl seg.toNat)) 1 = true ∧
        SMap.get s.sup.nextEvent d.toNat 0 < SMap.get t.sup.nextEvent d.toNat 0) ∧
  (∀ (s : State) (d : Die) (win : Win) (val : Word),
    ∀ m, m = SMap.get s.fabric.squallNow d.toNat ⟨0, 0, 0, []⟩ →
    s.present d.toNat = true →
    win = 0 →
    bit val 8 = true →
    m.cycle ≠ s.now ∨ m.dropped = [] →
    Runs (.squallPop d win val) s fun t =>
        squallsOf t d.toNat = (squallsOf s d.toNat).drop 1 ∧
        rf t d.toNat .squallCtl 31 1 = field val 31 1) ∧
  (∀ (s : State) (d : Die) (win : Win) (val : Word),
    ∀ m, m = SMap.get s.fabric.squallNow d.toNat ⟨0, 0, 0, []⟩ →
    ∀ log, log = (squallsOf s d.toNat).drop 1 →
    s.present d.toNat = true →
    win = 0 →
    bit val 8 = true →
    m.cycle = s.now →
    m.dropped ≠ [] →
    Runs (.squallPop d win val) s fun t =>
        squallsOf t d.toNat = log.take (log.length - m.count) ++ insertBy (fun a b => squallSeg a ≤ squallSeg b) (m.dropped.headD 0) (log.drop (log.length - m.count)) ∧
        rf t d.toNat .squallCtl 31 1 = field val 31 1) ∧
  (∀ (s : State) (d : Die) (win : Win) (val : Word),
    s.present d.toNat = true →
    win = 0 →
    bit val 9 = true →
    Runs (.squallClrLost d win val) s fun t =>
        rf t d.toNat .squallCtl 16 8 = 0 ∧
        rf t d.toNat .squallCtl 31 1 = field val 31 1) ∧
  (∀ (s : State) (d : Die) (win : Win) (val : Word),
    s.present d.toNat = true →
    win = 0 →
    bit val 1 = true →
    Runs (.perfSnap d win val) s fun t =>
        t.fabric.snapWanted.contains d.toNat = true ∧
        rf t d.toNat .perfCtl 0 1 = field val 0 1 ∧
        rf t d.toNat .perfCtl 3 1 = 0 ∧
        rf t d.toNat .perfCtl 24 8 = Code.done) ∧
  (∀ (s : State) (d : Die) (win : Win) (val : Word),
    s.present d.toNat = true →
    win = 0 →
    bit val 2 = true →
    Runs (.perfClear d win val) s fun t =>
        t.fabric.clearWanted.contains d.toNat = true ∧
        rf t d.toNat .perfCtl 0 1 = field val 0 1 ∧
        rf t d.toNat .perfCtl 24 8 = Code.done) ∧
  (∀ (s : State) (d : Die) (win : Win) (val : Word),
    s.present d.toNat = true →
    win ≠ 0 →
    bit val 1 = true →
    Runs (.perfSnap d win val) s fun t =>
        rf t d.toNat .perfCtl 24 8 = Code.denied ∧
        t.fabric = s.fabric) ∧
  (∀ (s : State) (d : Die),
    ∀ m, m = advanceTo s (frameEnd s) →
    s.present d.toNat = true →
    s.fabric.snapWanted.contains d.toNat = true →
    rootStopped s = false →
    rises m.fabric.counters = true →
    Runs (.counterSnapshot d) s fun t =>
        t.frame = s.frame + 1 ∧
        regGet t d.toNat .perfSnapFrame = word ((s.frame + 1 - s.frameBase) % 2 ^ 32) ∧
        rf t d.toNat .perfCtl 3 1 = 1 ∧
        t.fabric.snapWanted = [] ∧
        (∀ r : Reg, r.code < 2 ^ 40 → SMap.get t.fabric.snaps (key d.toNat r) 0 = SMap.get m.fabric.counters (key d.toNat r) 0)) ∧
  (∀ (s : State) (d : Die),
    s.present d.toNat = true →
    s.fabric.clearWanted.contains d.toNat = true →
    rootStopped s = false →
    Runs (.counterSnapshot d) s fun t =>
        t.frame = s.frame + 1 ∧
        t.fabric.clearWanted = [] ∧
        (∀ r : Reg, r.code < 2 ^ 40 → SMap.get t.fabric.counters (key d.toNat r) 0 = 0)) ∧
  (∀ (s : State) (d : Die) (win : Win),
    ∀ m, m = SMap.get s.sup.eventNow d.toNat ⟨0, 0, []⟩ →
    s.present d.toNat = true →
    win = 0 →
    m.cycle ≠ s.now ∨ m.dropped = [] ∨ (eventsOf s d.toNat).length ≠ 512 →
    Runs (.evlogPop d win) s fun t =>
        eventsOf t d.toNat = (eventsOf s d.toNat).drop 1) ∧
  (∀ (s : State) (d : Die) (win : Win),
    ∀ m, m = SMap.get s.sup.eventNow d.toNat ⟨0, 0, []⟩ →
    s.present d.toNat = true →
    win = 0 →
    m.cycle = s.now →
    m.dropped ≠ [] →
    (eventsOf s d.toNat).length = 512 →
    Runs (.evlogPop d win) s fun t =>
        eventsOf t d.toNat = (eventsOf s d.toNat).drop 1 ++ m.dropped.take 1) ∧
  (∀ (s : State) (d : Die) (win : Win),
    s.present d.toNat = true →
    win ≠ 0 →
    Runs (.evlogPop d win) s fun t =>
        t.sup = s.sup) ∧
  (∀ (s : State) (d : Die) (win : Win),
    s.present d.toNat = true →
    win = 0 →
    Runs (.evlogClrLost d win) s fun t =>
        rf t d.toNat .evlogCtl 24 8 = 0 ∧
        eventsOf t d.toNat = eventsOf s d.toNat)

/-- BANK_OWN writes and hand-overs change the owner of a bank: R39-R45. -/
def Obligations.BankOwnershipChangesHands : Prop :=
  (∀ (s : State) (d : Die) (win : Win) (bank : BitVec 13) (val : Word),
    ∀ b, b = d.toNat * 8192 + bank.toNat →
    s.present d.toNat = true →
    domUp s d.toNat (bankDomain bank.toNat) = true →
    ownStatus s b win.toNat val = Code.done →
    ownTen val ≠ ownTen (regSeen s d.toNat (.bankOwn bank.toNat)) →
    pauseOf s b = none →
    asleep s b = false →
    Runs (.bankOwnWrite d win bank val) s fun t =>
        field (regGet t d.toNat (.bankOwn bank.toNat)) 0 24 = field val 0 24 ∧
        ownOf t b = ownOf s b ∧
        pauseOf t b = some ⟨.phase1 (word (field val 0 24)) false (.handover none), s.now, []⟩) ∧
  (∀ (s : State) (d : Die) (win : Win) (bank : BitVec 13) (val : Word),
    ∀ b, b = d.toNat * 8192 + bank.toNat →
    s.present d.toNat = true →
    domUp s d.toNat (bankDomain bank.toNat) = true →
    ownStatus s b win.toNat val = Code.done →
    ownTen val = ownTen (regSeen s d.toNat (.bankOwn bank.toNat)) →
    isUnsafe s d.toNat (.bankOwn bank.toNat) = false →
    pauseOf s b = none →
    Runs (.bankOwnWrite d win bank val) s fun t =>
        field (regGet t d.toNat (.bankOwn bank.toNat)) 0 24 = field val 0 24 ∧
        ownOf t b = ownOf s b ∧
        pauseOf t b = some ⟨.handover, s.now, []⟩ ∧
        t.banks.merge.all (fun e => lnBank e.line != b || e.due) = true ∧
        t.banks.mem = s.banks.mem) ∧
  (∀ (s : State) (d : Die) (win : Win) (bank : BitVec 13) (val : Word),
    ∀ b, b = d.toNat * 8192 + bank.toNat →
    s.present d.toNat = true →
    domUp s d.toNat (bankDomain bank.toNat) = true →
    ownStatus s b win.toNat val ≠ Code.done →
    Runs (.bankOwnWrite d win bank val) s fun t =>
        rf t d.toNat (.bankOwn bank.toNat) 24 8 = ownStatus s b win.toNat val ∧
        rf t d.toNat (.bankOwn bank.toNat) 0 24 = rf s d.toNat (.bankOwn bank.toNat) 0 24 ∧
        t.banks = s.banks) ∧
  (∀ (s : State) (bank : BankNo),
    ∀ p : PauseRec, pauseOf s bank.toNat = some p →
    s.present (pbDie bank.toNat) = true →
    ∀ c, c = max s.now (p.start + 9) →
    p.kind = .handover →
    dieStopped s (pbDie bank.toNat) = false →
    within s c = true →
    Runs (.handoverTagsInForce bank) s fun t =>
        t.now = c ∧
        ownOf t bank.toNat = regGet s (pbDie bank.toNat) (.bankOwn (pbBank bank.toNat)) ∧
        t.banks.mem = (advanceTo s c).banks.mem)

/-- Weedings empty their bank and zero its rows: R346-R351. -/
def Obligations.WeedingEmptiesItsBank : Prop :=
  (∀ (s : State) (bank : BankNo),
    ∀ p : PauseRec, pauseOf s bank.toNat = some p →
    ∀ o : Word × WeedCause, (match p.kind with | .phase1 own _ cause => some (own, cause) | _ => none) = some o →
    s.present (pbDie bank.toNat) = true →
    dieStopped s (pbDie bank.toNat) = false →
    within s (max s.now (p.start + 25)) = true →
    Runs (.weedPhase1End bank) s fun t =>
        t.now = max s.now (p.start + 25) ∧
        field (ownOf t bank.toNat) 0 24 = field o.1 0 24 ∧
        (List.range 2048).all (fun i => !lineValid t (bank.toNat * 2048 + i)) = true ∧
        (List.range 32).all (fun i => sealOf t (bank.toNat * 32 + i) == .opened && classOf t (bank.toNat * 32 + i) == .byte) = true ∧
        t.banks.merge.all (fun e => lnBank e.line != bank.toNat) = true ∧
        ((match o.2 with | .retire _ => true | _ => false) = true → retired t bank.toNat = true) ∧
        ((match o.2 with | .retire _ => true | _ => false) = false → retired s bank.toNat = false → SMap.find t.banks.zeroing bank.toNat = some 0)) ∧
  (∀ (s : State) (bank : BankNo),
    ∀ n : Nat, SMap.find s.banks.zeroing bank.toNat = some n →
    ∀ c : Nat, nextCycle s bank.toNat 1 s.now 3 = some c →
    ∀ m, m = advanceTo s c →
    s.present (pbDie bank.toNat) = true →
    Runs (.weedZeroRow bank) s fun t =>
        t.now = c ∧
        SMap.find t.banks.zeroing bank.toNat = (if n + 1 < 2048 then some (n + 1) else none) ∧
        (lineValid m (bank.toNat * 2048 + n) = false → Mem.readN t.banks.mem (rowAddr bank.toNat (rowOf m (bank.toNat * 2048 + n))) 72 = List.replicate 72 0)) ∧
  (∀ (s : State) (src : CmdSrc),
    ∀ b : Nat, cmdBank s src = some b →
    given s src 0x42 = true →
    cmdTen s src = ownTen (ownOf s b) →
    bankCovered s b = false →
    inCacheMode s b = false →
    retired s b = false →
    domUp s (pbDie b) (bankDomain (pbBank b)) = true →
    pauseOf s b = none →
    asleep s b = false →
    Runs (.weedBank src) s fun t =>
        cmdOngoing t src = true ∧
        pauseOf t b = some ⟨.phase1 (regGet s (pbDie b) (.bankOwn (pbBank b))) false (.weed none), s.now, []⟩) ∧
  (∀ (s : State) (src : CmdSrc),
    ∀ b : Nat, cmdBank s src = some b →
    given s src 0x42 = true →
    cmdTen s src ≠ ownTen (ownOf s b) →
    Runs (.weedBank src) s fun t =>
        answered t src Code.denied = true ∧
        t.banks = s.banks) ∧
  (∀ (s : State) (src : CmdSrc),
    given s src 0x41 = true →
    src.win = some 0 →
    Runs (.weedAll src) s fun t =>
        t.now = s.now ∧
        (List.range 8192).all (fun i => retired s (src.die * 8192 + i) || !domUp s src.die (bankDomain i) || inPhase1 t (src.die * 8192 + i)) = true) ∧
  (∀ (s : State) (src : CmdSrc),
    given s src 0x41 = true →
    src.win ≠ some 0 →
    Runs (.weedAll src) s fun t =>
        answered t src Code.denied = true ∧
        t.banks = s.banks)

/-- Catalogue commands make, change, free and synchronise entries: R47-R62. -/
def Obligations.CatalogueEntriesComeAndGo : Prop :=
  (∀ (s : State) (src : CmdSrc),
    given s src 0x20 = true →
    passes (allocChecks s src (allocReq s src)) = true →
    Runs (.catAlloc src) s fun t =>
        cmdOngoing t src = true ∧
        t.banks.folioClears = s.banks.folioClears ++ (classChanges s (allocReq s src)).map (fun f => ⟨f, (allocReq s src).protection, src⟩)) ∧
  (∀ (s : State) (src : CmdSrc),
    ∀ c : Bool × Nat, (allocChecks s src (allocReq s src)).find? (·.1) = some c →
    given s src 0x20 = true →
    Runs (.catAlloc src) s fun t =>
        answered t src c.2 = true ∧
        t.banks = s.banks) ∧
  (∀ (s : State) (folio : FolioNo),
    ∀ b, b = foBank folio.toNat →
    ∀ c : FolioChange, s.banks.folioClears.find? (fun c => c.folio == folio.toNat) = some c →
    ∀ k : Nat, nextFree s b 1 = some k →
    s.present (pbDie b) = true →
    asleep s b = false →
    Runs (.folioClassClear folio) s fun t =>
        t.now = k ∧
        classOf t folio.toNat = c.next ∧
        sealOf t folio.toNat = .opened ∧
        (List.range 64).all (fun i => !lineValid t (foLine folio.toNat + i)) = true ∧
        t.banks.folioClears = s.banks.folioClears.erase c) ∧
  (∀ (s : State) (src : CmdSrc),
    ∀ a : AllocHold, s.sup.allocs.find? (fun a => a.src == src) = some a →
    ∀ e, e = a.entry →
    ongoing s src 0x20 = true →
    s.banks.folioClears.any (fun c => c.src == src) = false →
    (bankList (allocReq s src).folios).any (inPhase1 s) = false →
    domUp s src.die 47 = true →
    classChanges s (allocReq s src) = [] →
    Runs (.catEntryInForce src) s fun t =>
        answered t src Code.done = true ∧
        result t src 0 = word (put 16 4 (catGen s src.die e) + put 12 3 src.die + e) ∧
        catValid t src.die e = true ∧
        catTen t src.die e = cmdTen s src) ∧
  (∀ (s : State) (src : CmdSrc),
    ∀ h, h = cmdArgF s src 0 0 20 →
    given s src 0x21 = true →
    passes (handleChecks s src h ++ [(!mayEntry s src (hDie h) (hEntry h), Code.denied), (catHeld s (hDie h) (hEntry h), Code.state)]) = true →
    Runs (.catFree src) s fun t =>
        answered t src Code.done = true ∧
        catValid t (hDie h) (hEntry h) = false ∧
        catGen t (hDie h) (hEntry h) = (catGen s (hDie h) (hEntry h) + 1) % 16) ∧
  (∀ (s : State) (src : CmdSrc),
    ∀ h, h = cmdArgF s src 0 0 20 →
    ∀ c : Bool × Nat, (handleChecks s src h ++ [(!mayEntry s src (hDie h) (hEntry h), Code.denied), (catHeld s (hDie h) (hEntry h), Code.state)]).find? (·.1) = some c →
    given s src 0x21 = true →
    Runs (.catFree src) s fun t =>
        answered t src c.2 = true ∧
        catW t (hDie h) (hEntry h) 0 = catW s (hDie h) (hEntry h) 0) ∧
  (∀ (s : State) (src : CmdSrc),
    ∀ h, h = cmdArgF s src 0 0 20 →
    ∀ a, a = cmdArg s src 1 →
    given s src 0x22 = true →
    passes ([(bit a 1 && 0x140 ≤ field a 7 9 && field a 7 9 != 0x1FF, Code.badArg)] ++ handleChecks s src h ++ [(!mayEntry s src (hDie h) (hEntry h), Code.denied), (bit a 0 && field a 16 16 != catEpoch s (hDie h) (hEntry h) && catHeld s (hDie h) (hEntry h), Code.state)]) = true →
    Runs (.catUpdate src) s fun t =>
        answered t src Code.done = true ∧
        (bit a 0 = true → catEpoch t (hDie h) (hEntry h) = field a 16 16) ∧
        (bit a 0 = false → catEpoch t (hDie h) (hEntry h) = catEpoch s (hDie h) (hEntry h)) ∧
        (bit a 1 = true → rf t (hDie h) (.catWord (hEntry h) 1) 23 9 = field a 7 9) ∧
        (bit a 1 = false → rf t (hDie h) (.catWord (hEntry h) 1) 23 9 = rf s (hDie h) (.catWord (hEntry h) 1) 23 9)) ∧
  (∀ (s : State) (src : CmdSrc),
    ∀ h, h = cmdArgF s src 0 0 20 →
    given s src 0x23 = true →
    passes (handleChecks s src h) = true →
    src.win.isSome = true →
    cmdTen s src = catTen s (hDie h) (hEntry h) →
    catIsWindow s (hDie h) (hEntry h) = true →
    Runs (.winSync src) s fun t =>
        cmdOngoing t src = true ∧
        t.remote.syncs = s.remote.syncs ++ [⟨src, hDie h, hEntry h⟩]) ∧
  (∀ (s : State) (src : CmdSrc),
    ∀ y : SyncRec, s.remote.syncs.find? (fun y => y.src == src) = some y →
    s.present src.die = true →
    cmdState s src = 2 →
    Runs (.winSyncDone src) s fun t =>
        answered t src Code.done = true ∧
        t.remote.translator.all (fun k => !(k.die == y.die && k.entry == y.entry)) = true ∧
        t.remote.syncs.all (fun z => z.src != src) = true)

/-- Cache mode of a carrel is entered and left: R78-R85. -/
def Obligations.CarrelCacheModeIsEnteredAndLeft : Prop :=
  (∀ (s : State) (d : Die) (core : CoreNo) (writer : CarrelWriter) (val : Word),
    ∀ b, b = cacheBank d.toNat core.toNat →
    ∀ own, own = regGet s d.toNat (.bankOwn (pbBank b)) →
    s.present d.toNat = true →
    bit val 16 = true →
    regUp s d.toNat (.carrelCtl core.toNat) = true →
    carrelWriterOk s d.toNat core.toNat writer = true →
    carrelState s d.toNat core.toNat = 0 →
    rf s d.toNat (.carrelCtl core.toNat) 16 1 = 0 →
    field own 19 3 = 1 →
    field own 16 3 = d.toNat →
    field own 0 12 = core.toNat →
    bankCovered s b = false →
    coreFenced s d.toNat core.toNat = false →
    retired s b = false →
    pauseOf s b = none →
    asleep s b = false →
    Runs (.carrelCacheEnter d core writer val) s fun t =>
        rf t d.toNat (.carrelCtl core.toNat) 16 1 = 1 ∧
        (pauseOf t b).map (·.kind) = some (.cacheClear true)) ∧
  (∀ (s : State) (d : Die) (core : CoreNo) (writer : CarrelWriter) (val : Word),
    s.present d.toNat = true →
    bit val 16 = true →
    regUp s d.toNat (.carrelCtl core.toNat) = true →
    carrelWriterOk s d.toNat core.toNat writer = false →
    Runs (.carrelCacheEnter d core writer val) s fun t =>
        rf t d.toNat (.carrelCtl core.toNat) 24 8 = Code.denied ∧
        rf t d.toNat (.carrelCtl core.toNat) 16 1 = rf s d.toNat (.carrelCtl core.toNat) 16 1) ∧
  (∀ (s : State) (d : Die) (core : CoreNo) (writer : CarrelWriter) (val : Word),
    s.present d.toNat = true →
    bit val 16 = false →
    regUp s d.toNat (.carrelCtl core.toNat) = true →
    carrelWriterOk s d.toNat core.toNat writer = true →
    carrelState s d.toNat core.toNat = 1 →
    rf s d.toNat (.carrelCtl core.toNat) 16 1 = 1 →
    Runs (.carrelCacheExit d core writer val) s fun t =>
        rf t d.toNat (.carrelCtl core.toNat) 16 1 = 0 ∧
        carrelState t d.toNat core.toNat = 2) ∧
  (∀ (s : State) (d : Die) (core : CoreNo),
    ∀ b, b = cacheBank d.toNat core.toNat →
    ∀ p : PauseRec, pauseOf s b = some p →
    ∀ e : Bool, (match p.kind with | .cacheClear v => some v | _ => none) = some e →
    s.present d.toNat = true →
    dieStopped s d.toNat = false →
    within s (max s.now (p.start + 16)) = true →
    ∀ cache, cache = (e && bit (regGet s d.toNat (.carrelCtl core.toNat)) 16) →
    Runs (.carrelClearEnd d core) s fun t =>
        t.now = max s.now (p.start + 16) ∧
        carrelState t d.toNat core.toNat = (if cache then 1 else 0) ∧
        (cache = true → rf t d.toNat (.carrelCtl core.toNat) 24 8 = Code.done) ∧
        (List.range 2048).all (fun i => !lineValid t (b * 2048 + i)) = true)

/-- Banks gate, sleep, wake and turn off as their controls say: R86, R87, R359-R365. -/
def Obligations.BankStatesFollowTimersAndPins : Prop :=
  (∀ (s : State) (bank : BankNo),
    ∀ p : PauseRec, pauseOf s bank.toNat = some p →
    ∀ off : Bool, (match p.kind with | .wake v => some v | _ => none) = some off →
    s.present (pbDie bank.toNat) = true →
    dieStopped s (pbDie bank.toNat) = false →
    within s (max s.now (p.start + 64)) = true →
    Runs (.bankWakeEnd bank) s fun t =>
        t.now = max s.now (p.start + 64) ∧
        (p.behind = [] → waitingIds (advanceTo s (max s.now (p.start + 64))) = [] → pauseOf t bank.toNat = none) ∧
        (off = true → SMap.find t.banks.zeroing bank.toNat = some 0)) ∧
  (∀ (s : State) (d : Die) (win : Win) (bank : BitVec 13) (val : Word),
    ∀ b, b = d.toNat * 8192 + bank.toNat →
    s.present d.toNat = true →
    domUp s d.toNat (bankDomain bank.toNat) = true →
    win.toNat = ownTen (regSeen s d.toNat (.bankOwn bank.toNat)) →
    retired s b = false →
    Runs (.bankPwrWrite d win bank val) s fun t =>
        rf t d.toNat (.bankPwr bank.toNat) 0 2 = field val 0 2 ∧
        rf t d.toNat (.bankPwr bank.toNat) 24 8 = Code.done ∧
        (bit val 1 = true → rf s d.toNat (.bankPwr bank.toNat) 1 1 = 0 → asleep s b = true → pauseOf s b = none → (pauseOf t b).isSome = true)) ∧
  (∀ (s : State) (d : Die) (win : Win) (bank : BitVec 13) (val : Word),
    s.present d.toNat = true →
    domUp s d.toNat (bankDomain bank.toNat) = true →
    win.toNat ≠ ownTen (regSeen s d.toNat (.bankOwn bank.toNat)) →
    Runs (.bankPwrWrite d win bank val) s fun t =>
        rf t d.toNat (.bankPwr bank.toNat) 24 8 = Code.denied ∧
        rf t d.toNat (.bankPwr bank.toNat) 0 24 = rf s d.toNat (.bankPwr bank.toNat) 0 24 ∧
        t.banks = s.banks) ∧
  (∀ (s : State) (bank : BankNo),
    ∀ g, g = rf s (pbDie bank.toNat) .pwrTimer 0 16 →
    ∀ c, c = tickFrom (max s.now (idleFrom s bank.toNat + 16 * g)) →
    s.present (pbDie bank.toNat) = true →
    domUp s (pbDie bank.toNat) (bankDomain (pbBank bank.toNat)) = true →
    retired s bank.toNat = false →
    bankPower s bank.toNat = 0 →
    g ≠ 0 →
    bankIdle s bank.toNat = true →
    dieStopped s (pbDie bank.toNat) = false →
    within s c = true →
    Runs (.bankClockGate bank) s fun t =>
        t.now = c ∧
        bankPower t bank.toNat = 1 ∧
        t.banks = (advanceTo s c).banks) ∧
  (∀ (s : State) (bank : BankNo),
    ∀ g, g = rf s (pbDie bank.toNat) .pwrTimer 16 8 →
    ∀ c, c = tickFrom (max s.now (idleFrom s bank.toNat + 4096 * g)) →
    s.present (pbDie bank.toNat) = true →
    domUp s (pbDie bank.toNat) (bankDomain (pbBank bank.toNat)) = true →
    retired s bank.toNat = false →
    asleep s bank.toNat = false →
    g ≠ 0 →
    bankIdle s bank.toNat = true →
    keptAwake s bank.toNat = false →
    dieStopped s (pbDie bank.toNat) = false →
    within s c = true →
    Runs (.bankSleep bank) s fun t =>
        t.now = c ∧
        asleep t bank.toNat = true ∧
        bankPower t bank.toNat = (if rf s (pbDie bank.toNat) (.bankPwr (pbBank bank.toNat)) 0 1 = 1 then 2 else 3) ∧
        t.banks.mem = (advanceTo s c).banks.mem) ∧
  (∀ (s : State) (bank : BankNo),
    s.present (pbDie bank.toNat) = true →
    domUp s (pbDie bank.toNat) (bankDomain (pbBank bank.toNat)) = true →
    bankPower s bank.toNat = 2 →
    rf s (pbDie bank.toNat) (.bankPwr (pbBank bank.toNat)) 0 1 = 0 →
    pauseOf s bank.toNat = none →
    dieStopped s (pbDie bank.toNat) = false →
    within s (tickFrom (s.now + 1)) = true →
    Runs (.retBankEnterOff bank) s fun t =>
        t.now = tickFrom (s.now + 1) ∧
        bankPower t bank.toNat = 3)

/-- Merge entries become due and are flushed: R154-R163. -/
def Obligations.MergeEntriesAreFlushed : Prop :=
  (∀ (s : State) (entry : Nat),
    ∀ e : MergeEntry, mergeEntry s entry = some e →
    ∀ all, all = mergeOfCluster s e.place.1 e.place.2 →
    e.due = false →
    within s (max s.now (e.born + mergeHold s e.place.1 e.place.2)) = true →
    Runs (.mergeEntryDue entry) s fun t =>
        t.now = (if 48 ≤ all.length ∧ all.head?.map (·.id) = some entry then s.now else max s.now (e.born + mergeHold s e.place.1 e.place.2)) ∧
        (mergeEntry t entry).map (·.due) = some true) ∧
  (∀ (s : State) (entry : Nat),
    ∀ e : MergeEntry, mergeEntry s entry = some e →
    ∀ c : Nat, nextFree s (lnBank e.line) 2 = some c →
    (s.banks.merge.find? (flushWaits s (lnBank e.line) s.now)).map (·.id) = some entry →
    (mergeEntry (advanceTo s c) entry).isSome = true →
    Runs (.mergeFlush entry) s fun t =>
        t.now = c ∧
        (mergeEntry t entry).map (·.closed) = some true ∧
        t.fabric.accs.contains ⟨c + 1, 0, e.line, true, false, entry⟩ = true ∧
        t.fabric.holds.any (fun h => h.bank == lnBank e.line && h.first ≤ c && c + 1 ≤ h.last) = true ∧
        t.banks.mem = (advanceTo s c).banks.mem) ∧
  (∀ (s : State) (d : Die) (win : Win) (cluster : Cluster) (val : Word),
    s.present d.toNat = true →
    win = 0 →
    bit val 0 = true →
    domUp s d.toNat (xbarDomain cluster.toNat) = true →
    Runs (.mergeFlushAll d win cluster val) s fun t =>
        t.banks.merge.all (fun e => e.place != (d.toNat, cluster.toNat) || e.due) = true ∧
        rf t d.toNat (.mergeCtl cluster.toNat) 8 8 = field val 8 8 ∧
        rf t d.toNat (.mergeCtl cluster.toNat) 4 4 = field val 4 4)

/-- The folio codec collates and seals: R148-R151, R164-R168. -/
def Obligations.FolioCodecReadsAndSeals : Prop :=
  (∀ (s : State) (folio : FolioNo),
    ∀ b, b = foBank folio.toNat →
    ∀ e : Collation, collationOf s folio.toNat = some e →
    ∀ n : Nat, (match e.st with | .reading n => some n | _ => none) = some n →
    ∀ c : Nat, nextCycle s b 1 s.now 2 = some c →
    ∀ m, m = advanceTo s c →
    s.present (pbDie b) = true →
    n < 64 →
    codecUp s b = true →
    Runs (.collationRead folio) s fun t =>
        t.now = c ∧
        ((collationOf m folio.toNat).isSome = true → (collationOf t folio.toNat).map (·.st) = some (.reading (n + 1))) ∧
        (collationOf t folio.toNat).map (·.bytes) = (collationOf m folio.toNat).map (fun k => k.bytes ++ seenBytes m (foLine folio.toNat + n)) ∧
        t.banks.mem = m.banks.mem) ∧
  (∀ (s : State) (folio : FolioNo),
    ∀ e : Collation, collationOf s folio.toNat = some e →
    ∀ k, k = folioT s folio.toNat →
    ∀ r, r = bchLocate k (codeword k e.bytes) →
    ∀ c, c = (max s.now (e.lastRead + 1 + (if r = some [] then 0 else k))) →
    s.present (pbDie (foBank folio.toNat)) = true →
    e.st = .reading 64 →
    within s c = true →
    ∀ m, m = advanceTo s c →
    Runs (.collationDone folio) s fun t =>
        t.now = c ∧
        (waitingIds m = [] → (collationOf t folio.toNat).map (·.st) = (collationOf m folio.toNat).map (fun _ => match r with | some l => .ready l | none => .failed)) ∧
        t.banks.mem = m.banks.mem) ∧
  (∀ (s : State) (folio : FolioNo),
    ∀ e : Collation, collationOf s folio.toNat = some e →
    s.present (pbDie (foBank folio.toNat)) = true →
    folioNamed s folio.toNat = false →
    within s (max s.now (e.used + 4096)) = true →
    Runs (.collationEntryDrop folio) s fun t =>
        t.now = max s.now (e.used + 4096) ∧
        (waitingIds (advanceTo s (max s.now (e.used + 4096))) = [] → collationOf t folio.toNat = none)) ∧
  (∀ (s : State) (folio : FolioNo),
    ∀ b, b = foBank folio.toNat →
    ∀ x : SealCtx, sealCtxOf s folio.toNat = some x →
    ∀ k : Nat, x.parity = some k →
    ∀ c : Nat, nextCycle s b 1 (sealHeldTo s folio.toNat) 1 = some c →
    s.present (pbDie b) = true →
    codecUp s b = true →
    ∀ m, m = advanceTo s c →
    Runs (.sealParityWrite folio) s fun t =>
        t.now = c ∧
        (k + 1 < parityLines (folioT m folio.toNat) → (sealCtxOf m folio.toNat).isSome = true → (sealCtxOf t folio.toNat).bind (·.parity) = some (k + 1)) ∧
        (parityLines (folioT m folio.toNat) ≤ k + 1 → waitingIds m = [] → sealOf t folio.toNat = .sealed ∧ sealCtxOf t folio.toNat = none))

/-- Remapping and raw check mode act on the row they name: R169, R170, R381; the order of waiting operations is the model's (log 30). -/
def Obligations.RemapAndRawModeReachTheirRow : Prop :=
  (∀ (s : State) (d : Die) (win : Win) (bank : BitVec 13) (n : BitVec 2) (val : Word),
    ∀ b, b = d.toNat * 8192 + bank.toNat →
    s.present d.toNat = true →
    remapStatus s b win.toNat n.toNat val = Code.done →
    Runs (.bankRemapWrite d win bank n val) s fun t =>
        rf t d.toNat (.bankRemap bank.toNat n.toNat) 31 1 = field val 31 1 ∧
        rf t d.toNat (.bankRemap bank.toNat n.toNat) 0 11 = field val 0 11 ∧
        (bit val 31 = true → SMap.find t.banks.remapCopies (b * 4 + n.toNat) = some (field val 0 11))) ∧
  (∀ (s : State) (d : Die) (win : Win) (bank : BitVec 13) (n : BitVec 2) (val : Word),
    ∀ b, b = d.toNat * 8192 + bank.toNat →
    s.present d.toNat = true →
    remapStatus s b win.toNat n.toNat val ≠ Code.done →
    Runs (.bankRemapWrite d win bank n val) s fun t =>
        rf t d.toNat (.bankRemap bank.toNat n.toNat) 16 8 = remapStatus s b win.toNat n.toNat val ∧
        rf t d.toNat (.bankRemap bank.toNat n.toNat) 0 11 = rf s d.toNat (.bankRemap bank.toNat n.toNat) 0 11) ∧
  (∀ (s : State) (bank : BankNo) (n : BitVec 2),
    ∀ line : Nat, SMap.find s.banks.remapCopies (bank.toNat * 4 + n.toNat) = some line →
    ∀ c : Nat, nextFree s bank.toNat 2 = some c →
    s.present (pbDie bank.toNat) = true →
    asleep s bank.toNat = false →
    Runs (.remapCopy bank n) s fun t =>
        t.now = c ∧
        Mem.readN t.banks.mem (rowAddr bank.toNat (2048 + n.toNat)) 72 = Mem.readN (advanceTo s c).banks.mem (rowAddr bank.toNat line) 72 ∧
        SMap.find t.banks.remapCopies (bank.toNat * 4 + n.toNat) = none) ∧
  (∀ (s : State) (d : Die) (win : Win),
    s.present d.toNat = true →
    rawStatus s d.toNat win.toNat (rawLine s d.toNat) .read = Code.done →
    Runs (.rawRead d win) s fun t =>
        SMap.find t.banks.rawOps d.toNat = some ((SMap.find s.banks.rawOps d.toNat).getD [] ++ [⟨.read, rawLine s d.toNat, rawRow s d.toNat⟩])) ∧
  (∀ (s : State) (d : Die) (win : Win),
    s.present d.toNat = true →
    rawStatus s d.toNat win.toNat (rawLine s d.toNat) .read ≠ Code.done →
    Runs (.rawRead d win) s fun t =>
        rf t d.toNat .rawCmd 24 8 = rawStatus s d.toNat win.toNat (rawLine s d.toNat) .read ∧
        t.banks = s.banks) ∧
  (∀ (s : State) (d : Die) (win : Win),
    s.present d.toNat = true →
    rawStatus s d.toNat win.toNat (rawLine s d.toNat) .write = Code.done →
    Runs (.rawWrite d win) s fun t =>
        SMap.find t.banks.rawOps d.toNat = some ((SMap.find s.banks.rawOps d.toNat).getD [] ++ [⟨.write, rawLine s d.toNat, rawRow s d.toNat⟩])) ∧
  (∀ (s : State) (d : Die) (win : Win),
    s.present d.toNat = true →
    rawStatus s d.toNat win.toNat (rawLine s d.toNat) .sealMark = Code.done →
    Runs (.rawSealmark d win) s fun t =>
        SMap.find t.banks.rawOps d.toNat = some ((SMap.find s.banks.rawOps d.toNat).getD [] ++ [⟨.sealMark, rawLine s d.toNat, rawRow s d.toNat⟩])) ∧
  (∀ (s : State) (d : Die),
    ∀ q : RawReq, ((SMap.find s.banks.rawOps d.toNat).getD []).head? = some q →
    ∀ b, b = lnBank q.line →
    ∀ c : Nat, nextFree s b 1 = some c →
    ∀ m, m = advanceTo s c →
    s.present d.toNat = true →
    rawStatus s d.toNat 0 q.line q.op = Code.done →
    asleep s b = false →
    Runs (.rawOpExecute d) s fun t =>
        t.now = c ∧
        rf t d.toNat .rawCmd 24 8 = Code.done ∧
        (SMap.find t.banks.rawOps d.toNat).getD [] = ((SMap.find s.banks.rawOps d.toNat).getD []).drop 1 ∧
        (q.op = .sealMark → sealOf t (lnFolio q.line) = .sealed) ∧
        (q.op ≠ .write → t.banks.mem = m.banks.mem) ∧
        (q.op = .write → q.row.length = 72 → Mem.readN t.banks.mem (rowAddr b (rowOf m q.line)) 72 = q.row))

/-- Point and barrier tokens reach their receiver: R116-R118, R222. -/
def Obligations.SignalTokensReachTheirPlace : Prop :=
  (∀ (s : State) (token : Nat),
    ∀ k : Token, tokenOf s token = some k →
    ∀ q : BitVec 12 × CtxId × CtxId, (match k.kind with | .point p target sender => some (p, target, sender) | _ => none) = some q →
    ∀ x, x = ctxOf s q.2.1 →
    ringShut s (ctxDie q.2.2) (ctxDie q.2.1) = false →
    domUp s (ctxDie q.2.1) (xbarDomain (ctxCluster q.2.1)) = true →
    ctxTen s q.2.1 = ctxTen s q.2.2 →
    x.st ≠ .idle →
    Runs (.pointTokenReceive token) s fun t =>
        (ctxOf t q.2.1).pcn = (if x.points.length < 15 then x.pcn + 1 else x.pcn) ∧
        (ctxOf t q.2.1).points = (if x.points.length < 15 then x.points ++ [q.1] else x.points) ∧
        t.streams.tokens.any (fun u => u.kind == .answer q.2.2 (BitVec.ofNat 8 Code.done) && u.die.toNat == ctxDie q.2.2) = true ∧
        (x.wait = .point → x.st = .running → x.stop = .no → (ctxOf t q.2.1).ready = true)) ∧
  (∀ (s : State) (token : Nat),
    ∀ k : Token, tokenOf s token = some k →
    ∀ q : BitVec 12 × CtxId × CtxId, (match k.kind with | .point p target sender => some (p, target, sender) | _ => none) = some q →
    ringShut s (ctxDie q.2.2) (ctxDie q.2.1) = false →
    domUp s (ctxDie q.2.1) (xbarDomain (ctxCluster q.2.1)) = true →
    ctxTen s q.2.1 ≠ ctxTen s q.2.2 →
    Runs (.pointTokenReceive token) s fun t =>
        (ctxOf t q.2.1).pcn = (ctxOf s q.2.1).pcn ∧
        t.streams.tokens.any (fun u => u.kind == .answer q.2.2 (BitVec.ofNat 8 Code.denied)) = true) ∧
  (∀ (s : State) (token : Nat),
    ∀ k : Token, tokenOf s token = some k →
    ∀ q : CtxId × BitVec 8, (match k.kind with | .answer sender code => some (sender, code) | _ => none) = some q →
    ∀ x, x = ctxOf s q.1 →
    x.opFlight = true →
    (match currentInstr x with | some (.signal _ _ _) => true | _ => false) = true →
    q.2 = 0 →
    x.stop = .no →
    Runs (.pointAnswerReceive token) s fun t =>
        (ctxOf t q.1).opFlight = false ∧
        (ctxOf t q.1).ready = true ∧
        (ctxOf t q.1).regs.ip = afterIp x) ∧
  (∀ (s : State) (token : Nat),
    ∀ k : Token, tokenOf s token = some k →
    ∀ q : BitVec 12 × Nat × Die, (match k.kind with | .arrive b n o false => some (b, n, o) | _ => none) = some q →
    ∀ cfg, cfg = barrierCfg s k.die.toNat q.1.toNat →
    ∀ n, n = SMap.get s.streams.barrierCount (barrierKey k.die.toNat q.1.toNat) 0 + q.2.1 →
    ringShut s q.2.2.toNat k.die.toNat = false →
    bit cfg 31 = true →
    Runs (.barrierArriveReceive token) s fun t =>
        (n < field cfg 0 13 → SMap.get t.streams.barrierCount (barrierKey k.die.toNat q.1.toNat) 0 = n) ∧
        (field cfg 0 13 ≤ n → SMap.get t.streams.barrierCount (barrierKey k.die.toNat q.1.toNat) 0 = n - field cfg 0 13) ∧
        (field cfg 0 13 ≤ n → t.streams.tokens.any (fun u => u.kind == .arrive q.1 1 k.die true && u.die.toNat == field cfg 28 3) = true)) ∧
  (∀ (s : State) (token : Nat),
    ∀ k : Token, tokenOf s token = some k →
    ∀ q : BitVec 12 × Die, (match k.kind with | .arrive b _ o true => some (b, o) | _ => none) = some q →
    ∀ cfg, cfg = barrierCfg s k.die.toNat q.1.toNat →
    ∀ held, held = ((SMap.get s.streams.barrierRoot (barrierKey k.die.toNat q.1.toNat) 0).toNat ||| 2 ^ q.2.toNat) →
    ringShut s q.2.toNat k.die.toNat = false →
    bit cfg 31 = true →
    Runs (.barrierArriveReceive token) s fun t =>
        (held &&& field cfg 20 8 ≠ field cfg 20 8 → (SMap.get t.streams.barrierRoot (barrierKey k.die.toNat q.1.toNat) 0).toNat = held) ∧
        (held &&& field cfg 20 8 = field cfg 20 8 → SMap.get t.streams.barrierRoot (barrierKey k.die.toNat q.1.toNat) 0 = 0) ∧
        (held &&& field cfg 20 8 = field cfg 20 8 → (List.range 8).all (fun e => !((field cfg 20 8).testBit e && s.present e) || t.streams.tokens.any (fun u => u.kind == .release q.1 && u.die.toNat == e)) = true)) ∧
  (∀ (s : State) (token : Nat),
    ∀ k : Token, tokenOf s token = some k →
    ∀ b : BitVec 12, (match k.kind with | .release b => some b | _ => none) = some b →
    Runs (.barrierReleaseReceive token) s fun t =>
        (allCtxs s).all (fun e => !(ctxDie e.1 == k.die.toNat && (ctxOf s e.1).bl == 1 && (ctxOf s e.1).bn == b) || (ctxOf t e.1).bl == 3) = true)

/-- Stream commands arm, halt, resume, abort, query and replay contexts: R178-R195, R309. -/
def Obligations.StreamCommandsRuleContexts : Prop :=
  (∀ (s : State) (src : CmdSrc),
    ∀ c, c = cmdCtx s src →
    given s src 0x10 = true →
    passes (streamChecks s src c (taDie (armTa s src) != ctxDie c) (!armFree (ctxOf s c))) = true →
    Runs (.arm src) s fun t =>
        cmdOngoing t src = true ∧
        (ctxOf t c).loading.map (fun l => (l.src, l.descTa.toNat, l.shadow)) = some (src, armTa s src, false) ∧
        t.fabric.slots.any (fun x => x.id == s.fabric.nextSlot + 1 && x.ctx == some c && x.kind == .load 0 && x.len == 64) = true) ∧
  (∀ (s : State) (ctx : CtxId),
    ∀ l : Loading, loadOver s ctx false = some l →
    s.present (ctxDie ctx) = true →
    stCode l.status = Code.done →
    cmdState s l.src = 2 →
    Runs (.armLoadDone ctx) s fun t =>
        (ctxOf t ctx).st = .armed ∧
        (ctxOf t ctx).regs = startRegs l.desc ∧
        (ctxOf t ctx).image = loadedImage l ∧
        (ctxOf t ctx).d = 0 ∧
        (ctxOf t ctx).runs = 0 ∧
        (ctxOf t ctx).shadow = none ∧
        (ctxOf t ctx).ready = startReached s l.desc ∧
        answered t l.src Code.done = true) ∧
  (∀ (s : State) (ctx : CtxId),
    ∀ l : Loading, loadOver s ctx false = some l →
    s.present (ctxDie ctx) = true →
    stCode l.status ≠ Code.done →
    cmdState s l.src = 2 →
    Runs (.armLoadDone ctx) s fun t =>
        (ctxOf t ctx).loading = none ∧
        answered t l.src (stCode l.status) = true) ∧
  (∀ (s : State) (src : CmdSrc),
    ∀ c, c = cmdCtx s src →
    given s src 0x11 = true →
    passes (streamChecks s src c (taDie (armTa s src) != ctxDie c) (!armLive (ctxOf s c) || ctxAborting s c)) = true →
    (ctxOf s c).shadow = none →
    Runs (.rearm src) s fun t =>
        cmdOngoing t src = true ∧
        (ctxOf t c).loading.map (fun l => (l.src, l.descTa.toNat, l.shadow)) = some (src, armTa s src, true) ∧
        (ctxOf t c).st = (ctxOf s c).st) ∧
  (∀ (s : State) (ctx : CtxId),
    ∀ l : Loading, loadOver s ctx true = some l →
    s.present (ctxDie ctx) = true →
    stCode l.status = Code.done →
    cmdState s l.src = 2 →
    armLive (ctxOf s ctx) = true →
    abortsOrAborted (ctxOf s ctx) = false →
    Runs (.rearmLoadDone ctx) s fun t =>
        (ctxOf t ctx).shadow = some (loadedImage l) ∧
        (ctxOf t ctx).st = (ctxOf s ctx).st ∧
        (ctxOf t ctx).regs = (ctxOf s ctx).regs ∧
        answered t l.src Code.done = true) ∧
  (∀ (s : State) (src : CmdSrc),
    ∀ c, c = cmdCtx s src →
    ∀ x, x = ctxOf s c →
    given s src 0x12 = true →
    passes (streamChecks s src c false false) = true →
    x.st = .armed ∨ x.st = .running →
    x.stop = .no →
    Runs (.halt src) s fun t =>
        haltsOrHalted (ctxOf t c) = true ∧
        (ctxOf t c).onSeq = false ∧
        (x.recs = [] → x.opFlight = false → (ctxOf t c).st = .halted ∧ (ctxOf t c).hcause = 1 ∧ answered t src Code.done = true)) ∧
  (∀ (s : State) (src : CmdSrc),
    ∀ c, c = cmdCtx s src →
    ∀ x, x = ctxOf s c →
    given s src 0x12 = true →
    passes (streamChecks s src c false false) = true →
    x.st = .halted →
    x.hcause = 7 →
    Runs (.halt src) s fun t =>
        (ctxOf t c).st = .halted ∧
        (ctxOf t c).hcause = 1 ∧
        answered t src Code.done = true) ∧
  (∀ (s : State) (src : CmdSrc),
    ∀ c, c = cmdCtx s src →
    ∀ x, x = ctxOf s c →
    given s src 0x13 = true →
    passes (streamChecks s src c false false) = true →
    x.st = .halted →
    Runs (.resume src) s fun t =>
        (ctxOf t c).st = (if x.started then .running else .armed) ∧
        (ctxOf t c).hcause = 0 ∧
        (ctxOf t c).regs = { x.regs with h := (List.range 4).map (fun i => if bit (cmdArg s src 1) i then BitVec.ofNat 20 (cmdArgF s src (2 + i) 0 20) else x.regs.h.getD i 0) } ∧
        (ctxOf t c).ready = (x.started || startReached s x.image.desc) ∧
        answered t src Code.done = true) ∧
  (∀ (s : State) (src : CmdSrc),
    ∀ c, c = cmdCtx s src →
    ∀ x, x = ctxOf s c →
    given s src 0x14 = true →
    s.present (ctxDie c) = true →
    mayStream s src c = true →
    ringShut s src.die (ctxDie c) = false →
    hallDown s c = 0 →
    x.loading = none →
    armLive x = true →
    Runs (.abort src) s fun t =>
        abortsOrAborted (ctxOf t c) = true ∧
        (x.stop = .no → x.recs = [] → x.opFlight = false → (ctxOf t c).st = .aborted ∧ (ctxOf t c).acause = 1 ∧ (ctxOf t c).origin = c) ∧
        (cmdOngoing t src = true ∨ answered t src Code.done = true)) ∧
  (∀ (s : State) (src : CmdSrc),
    ∀ c, c = cmdCtx s src →
    ∀ x, x = ctxOf s c →
    given s src 0x14 = true →
    s.present (ctxDie c) = true →
    mayStream s src c = true →
    ringShut s src.die (ctxDie c) = false →
    hallDown s c = 0 →
    x.loading = none →
    x.st = .done ∨ x.st = .aborted →
    Runs (.abort src) s fun t =>
        (ctxOf t c).st = .idle ∧
        answered t src Code.done = true) ∧
  (∀ (s : State) (src : CmdSrc),
    ∀ c, c = cmdCtx s src →
    given s src 0x15 = true →
    passes (streamChecks s src c false false) = true →
    Runs (.query src) s fun t =>
        answered t src Code.done = true ∧
        (List.range 6).all (fun i => result t src i == word ((queryWords (ctxOf s c)).getD i 0)) = true ∧
        t.streams = s.streams) ∧
  (∀ (s : State) (src : CmdSrc),
    ∀ all, all = taskCtxs s src.die (cmdArgF s src 0 0 16) (cmdTen s src) →
    ∀ mine, mine = all.filter (fun e => replayable e.2) →
    given s src 0x16 = true →
    cmdArgF s src 0 0 16 ≠ 0xFFFF →
    src.win.isSome = true →
    all.all (fun e => !armLive e.2) = true →
    abortInProgress s (cmdArgF s src 0 0 16) (cmdTen s src) = false →
    mine ≠ [] →
    mine.all (fun e => !epochOld s (cmdTen s src) e) = true →
    Runs (.replay src) s fun t =>
        answered t src Code.done = true ∧
        stDetail (regGet t src.die src.sts) = min mine.length 0xFFFF ∧
        mine.all (fun e => (ctxOf t e.1).st == .armed && (ctxOf t e.1).d == 0 && (ctxOf t e.1).recs == []) = true) ∧
  (∀ (s : State) (d : Die) (task : BitVec 16) (ten : Win),
    ∀ a : TaskAbort, s.streams.aborts.find? (fun a => a.task == task && a.ten == ten && a.dies.contains d.toNat) = some a →
    s.present d.toNat = true →
    Runs (.taskAbortReceive d task ten) s fun t =>
        (allCtxs s).all (fun e => !(ctxDie e.1 == d.toNat && (ctxOf s e.1).task == task && ctxTen s e.1 == ten.toNat && armLive (ctxOf s e.1)) || abortsOrAborted (ctxOf t e.1)) = true ∧
        t.streams.aborts.contains a = false)

/-- Contexts start, are taken by sequencers and retry their waits: R183, R184, R221, R242-R244. -/
def Obligations.ContextsAreScheduled : Prop :=
  (∀ (s : State) (ctx : CtxId),
    ∀ x, x = ctxOf s ctx →
    s.present (ctxDie ctx) = true →
    x.st = .armed →
    x.ready = false →
    x.stop = .no →
    startReached s x.image.desc = true →
    Runs (.contextStartFrame ctx) s fun t =>
        (ctxOf t ctx).ready = true ∧
        (ctxOf t ctx).readySince = 256 * (s.frame - (frameCount s + 65536 - descStart x.image.desc) % 65536) ∧
        (ctxOf t ctx).st = .armed) ∧
  (∀ (s : State) (d : Die) (cluster : Cluster),
    ∀ c : CtxId, nextReady s d.toNat cluster.toNat = some c →
    s.present d.toNat = true →
    ((hallCtxs s d.toNat cluster.toNat).filter (fun e => e.2.onSeq)).length < 48 →
    domUp s d.toNat (xbarDomain cluster.toNat) = true →
    Runs (.sequencerTake d cluster) s fun t =>
        (ctxOf t c).st = .running ∧
        (ctxOf t c).onSeq = true ∧
        (ctxOf t c).ready = false ∧
        (ctxOf t c).seqSince = s.now ∧
        (ctxOf t c).nextAt = s.now + 4) ∧
  (∀ (s : State) (d : Die) (cluster : Cluster),
    s.present d.toNat = true →
    48 ≤ ((hallCtxs s d.toNat cluster.toNat).filter (fun e => e.2.onSeq)).length →
    Runs (.sequencerTake d cluster) s fun t =>
        t.streams = s.streams) ∧
  (∀ (s : State) (ctx : CtxId),
    ∀ x, x = ctxOf s ctx →
    s.present (ctxDie ctx) = true →
    x.onSeq = true →
    (nextReady s (ctxDie ctx) (ctxCluster ctx)).isSome = true →
    within s (max s.now (x.seqSince + 256)) = true →
    Runs (.sequencerTimeslice ctx) s fun t =>
        t.now = max s.now (x.seqSince + 256) ∧
        (ctxOf t ctx).onSeq = false ∧
        (ctxOf t ctx).ready = true ∧
        (ctxOf t ctx).readySince = t.now ∧
        (ctxOf t ctx).regs = x.regs) ∧
  (∀ (s : State) (ctx : CtxId),
    ∀ x, x = ctxOf s ctx →
    s.present (ctxDie ctx) = true →
    x.st = .running →
    x.wait = .result →
    x.stop = .no →
    within s (max s.now (x.opSince + 256)) = true →
    Runs (.waitslipResultRetry ctx) s fun t =>
        t.now = max s.now (x.opSince + 256) ∧
        (ctxOf t ctx).ready = true ∧
        (ctxOf t ctx).wait = .none) ∧
  (∀ (s : State) (ctx : CtxId),
    ∀ x, x = ctxOf s ctx →
    s.present (ctxDie ctx) = true →
    x.st = .running →
    x.wait = .queue →
    x.listed = false →
    x.stop = .no →
    within s (max s.now (x.opSince + 256)) = true →
    Runs (.slipqWaitRetry ctx) s fun t =>
        t.now = max s.now (x.opSince + 256) ∧
        (ctxOf t ctx).ready = true) ∧
  (∀ (s : State) (ctx : CtxId),
    ∀ x, x = ctxOf s ctx →
    s.present (ctxDie ctx) = true →
    x.st = .halted →
    x.hcause = 7 →
    x.listed = false →
    x.lapsed = false →
    within s (max s.now (x.opSince + 256)) = true →
    Runs (.slipqWaitRetry ctx) s fun t =>
        t.now = max s.now (x.opSince + 256) ∧
        (ctxOf t ctx).st = (if x.started then .running else .armed) ∧
        (ctxOf t ctx).hcause = 0) ∧
  (∀ (s : State) (ctx : CtxId),
    ∀ x, x = ctxOf s ctx →
    ∀ giver, giver = (x.st == .halted && x.hcause == 7) →
    ∀ c, c = max s.now (x.opSince + 256 * max 1 (rf s (qDie (queueAtIp x)) .wdogCtl 0 16)) →
    s.present (ctxDie ctx) = true →
    x.stallLogged = false →
    x.listed = true →
    giver = true ∨ x.wait = .queue →
    within s c = true →
    Runs (.queueStall ctx) s fun t =>
        t.now = c ∧
        (ctxOf t ctx) = { ctxOf (advanceTo s c) ctx with stallLogged := true } ∧
        SMap.get t.sup.nextEvent (qDie (queueAtIp x)) 0 = SMap.get (advanceTo s c).sup.nextEvent (qDie (queueAtIp x)) 0 + 1)

/-- Control instructions change the context registers they name: R196-R207. -/
def Obligations.ControlInstructionsStepTheContext : Prop :=
  (∀ (s : State) (ctx : CtxId),
    ∀ q : Nat × Nat, (match onTurn s ctx with | some (.loop l n) => some (l, n) | _ => none) = some q →
    ∀ x, x = ctxOf s ctx →
    Runs (.loop ctx) s fun t =>
        t.now = turnCycle s x ∧
        (ctxOf t ctx).regs = { x.regs with ip := afterIp x, l := x.regs.l.set q.1 (BitVec.ofNat 24 q.2), live := x.regs.live.set q.1 true, ls := x.regs.ls.set q.1 (BitVec.ofNat 7 (afterIp x)) } ∧
        (ctxOf t ctx).st = .running) ∧
  (∀ (s : State) (ctx : CtxId),
    ∀ l : Nat, (match onTurn s ctx with | some (.endl l) => some l | _ => none) = some l →
    ∀ x, x = ctxOf s ctx →
    ∀ n, n = x.regs.l.getD l 0 - 1 →
    Runs (.endl ctx) s fun t =>
        t.now = turnCycle s x ∧
        (ctxOf t ctx).regs.l = x.regs.l.set l n ∧
        (n ≠ 0 → (ctxOf t ctx).regs.ip = (x.regs.ls.getD l 0).toNat ∧ (ctxOf t ctx).regs.live = x.regs.live) ∧
        (n = 0 → (ctxOf t ctx).regs.ip = afterIp x ∧ (ctxOf t ctx).regs.live = x.regs.live.set l false)) ∧
  (∀ (s : State) (ctx : CtxId),
    ∀ q : Nat × Nat, (match onTurn s ctx with | some (.br k a) => some (k, a) | _ => none) = some q →
    ∀ x, x = ctxOf s ctx →
    ∀ taken, taken = ((match q.1 with | 0 => true | 1 => x.regs.q | 2 => !x.regs.q | 3 => x.regs.c | _ => !x.regs.c)) →
    Runs (.br ctx) s fun t =>
        t.now = turnCycle s x ∧
        (ctxOf t ctx).regs = { x.regs with ip := if taken then q.2 else afterIp x }) ∧
  (∀ (s : State) (ctx : CtxId),
    ∀ q : Bool × Nat × Nat, (match onTurn s ctx with | some (.set stride i v) => some (stride, i, v) | _ => none) = some q →
    ∀ x, x = ctxOf s ctx →
    Runs (.setI ctx) s fun t =>
        t.now = turnCycle s x ∧
        (q.1 = true → (ctxOf t ctx).regs = { x.regs with ip := afterIp x, s := x.regs.s.set q.2.1 (BitVec.ofNat 48 q.2.2) }) ∧
        (q.1 = false → (ctxOf t ctx).regs = { x.regs with ip := afterIp x, a := x.regs.a.set q.2.1 (BitVec.ofNat 48 q.2.2) })) ∧
  (∀ (s : State) (ctx : CtxId),
    ∀ q : Nat × Nat × Nat × Nat, (match onTurn s ctx with | some (.step ad a sx mode) => some (ad, a, sx, mode) | _ => none) = some q →
    ∀ x, x = ctxOf s ctx →
    ∀ base, base = addrReg x.regs q.2.1 →
    ∀ v, v = ((match q.2.2.2 with | 0 => base + strideReg x.regs q.2.2.1 | 1 => base + timesStride (partOf x.regs) (x.regs.s.getD q.2.2.1 0) | _ => base)) →
    Runs (.stepI ctx) s fun t =>
        t.now = turnCycle s x ∧
        (ctxOf t ctx).regs = { x.regs with ip := afterIp x, a := x.regs.a.set q.1 (BitVec.ofNat 48 v) }) ∧
  (∀ (s : State) (ctx : CtxId),
    ∀ q : Nat × Nat, (match onTurn s ctx with | some (.seth h v) => some (h, v) | _ => none) = some q →
    ∀ x, x = ctxOf s ctx →
    Runs (.seth ctx) s fun t =>
        t.now = turnCycle s x ∧
        (ctxOf t ctx).regs = { x.regs with ip := afterIp x, h := x.regs.h.set q.1 (BitVec.ofNat 20 q.2) })

/-- END, FENCE, EPOCH and illegal words act on the run: R195, R223-R227. -/
def Obligations.RunInstructionsEndWaitAndRefuse : Prop :=
  (∀ (s : State) (ctx : CtxId),
    ∀ x, x = ctxOf s ctx →
    onTurn s ctx = some .endI →
    x.recs = [] →
    x.shadow = none →
    Runs (.endI ctx) s fun t =>
        t.now = turnCycle s x ∧
        (ctxOf t ctx).st = .done ∧
        (ctxOf t ctx).onSeq = false ∧
        (ctxOf t ctx).runs = x.runs) ∧
  (∀ (s : State) (ctx : CtxId),
    ∀ x, x = ctxOf s ctx →
    ∀ im : Image, x.shadow = some im →
    onTurn s ctx = some .endI →
    x.recs = [] →
    Runs (.endI ctx) s fun t =>
        t.now = turnCycle s x ∧
        (ctxOf t ctx).st = (if descMode im.desc = 0 then .running else .armed) ∧
        (ctxOf t ctx).regs = startRegs im.desc ∧
        (ctxOf t ctx).runs = x.runs + 1 ∧
        (ctxOf t ctx).shadow = none ∧
        (ctxOf t ctx).d = 0) ∧
  (∀ (s : State) (ctx : CtxId),
    ∀ x, x = ctxOf s ctx →
    onTurn s ctx = some .endI →
    x.recs ≠ [] →
    Runs (.endI ctx) s fun t =>
        (ctxOf t ctx).onSeq = false ∧
        (ctxOf t ctx).wait = .drain ∧
        (ctxOf t ctx).regs = x.regs) ∧
  (∀ (s : State) (ctx : CtxId),
    ∀ seals : Bool, (match onTurn s ctx with | some (.fence v) => some v | _ => none) = some seals →
    ∀ x, x = ctxOf s ctx →
    x.recs = [] →
    Runs (.fence ctx) s fun t =>
        t.now = turnCycle s x ∧
        ((seals && sealsPending s ctx) = false → (ctxOf t ctx).regs = { x.regs with ip := afterIp x }) ∧
        ((seals && sealsPending s ctx) = true → (ctxOf t ctx).wait = .seals ∧ (ctxOf t ctx).onSeq = false)) ∧
  (∀ (s : State) (ctx : CtxId),
    ∀ q : Bool × Nat, (match onTurn s ctx with | some (.epoch inc v) => some (inc, v) | _ => none) = some q →
    ∀ x, x = ctxOf s ctx →
    x.recs = [] →
    Runs (.epoch ctx) s fun t =>
        t.now = turnCycle s x ∧
        (ctxOf t ctx).regs = { x.regs with ip := afterIp x, ep := if q.1 then x.regs.ep + 1 else BitVec.ofNat 16 q.2 }) ∧
  (∀ (s : State) (ctx : CtxId),
    ∀ x, x = ctxOf s ctx →
    ∀ single, single = (match instrAt x.image.prog x.regs.ip with | some (.endl _) => false | some _ => true | none => false) →
    s.present (ctxDie ctx) = true →
    x.onSeq = true →
    x.st = .running →
    x.stop = .no →
    currentInstr x = none →
    within s (max s.now x.nextAt) = true →
    Runs (.streamIllegal ctx) s fun t =>
        t.now = max s.now x.nextAt ∧
        (single = true → x.recs ≠ [] → (ctxOf t ctx).wait = .drain ∧ (ctxOf t ctx).onSeq = false ∧ (ctxOf t ctx).st = .running) ∧
        (single = false ∨ x.recs = [] → abortsOrAborted (ctxOf t ctx) = true) ∧
        (x.recs = [] → x.opFlight = false → (ctxOf t ctx).st = .aborted ∧ (ctxOf t ctx).acause = 9 ∧ (ctxOf t ctx).origin = ctx))

/-- Transfer instructions enter their slot: R201-R219. -/
def Obligations.TransferInstructionsEnterSlots : Prop :=
  (∀ (s : State) (ctx : CtxId),
    ∀ q : Bool × EndField × EndField × Bool × Nat × Nat, (match onTurn s ctx with | some (.emit w a b pi n g) => some (w, a, b, pi, n, g) | _ => none) = some q →
    ∀ x, x = ctxOf s ctx →
    ∀ m, m = advanceTo s (turnCycle s x) →
    ∀ p, p = x.prog.bytes →
    ∀ g, g = (if x.prog.slots = 0 then emitGroup m x.regs q.2.1 q.2.2.2.2.2 else x.prog.group.toNat) →
    ∀ sa, sa = addrReg x.regs q.2.1.a + p →
    ∀ da, da = (if emitRing m x.regs q.2.2.1 then p else addrReg x.regs q.2.2.1.a + p) →
    issueBlock m ctx = none →
    groupBad m x.regs q.2.1 q.2.2.1 g = 0 →
    validEnd m (endpoint m q.2.1.kind (handleReg x.regs q.2.1.h) 0x1FF sa) = true →
    validEnd m (endpoint m q.2.2.1.kind (handleReg x.regs q.2.2.1.h) g da) = true →
    Runs (.emit ctx) s fun t =>
        t.now = turnCycle s x ∧
        slotEntered s t ctx .emit (slotLength sa da (q.2.2.2.2.1 - p)) = true ∧
        (p + slotLength sa da (q.2.2.2.2.1 - p) = q.2.2.2.2.1 → (ctxOf t ctx).regs.ip = afterIp x) ∧
        (p + slotLength sa da (q.2.2.2.2.1 - p) ≠ q.2.2.2.2.1 → (ctxOf t ctx).regs = x.regs ∧ (ctxOf t ctx).prog.bytes = p + slotLength sa da (q.2.2.2.2.1 - p))) ∧
  (∀ (s : State) (ctx : CtxId),
    ∀ m, m = advanceTo s (turnCycle s (ctxOf s ctx)) →
    ∀ w : Wait, issueBlock m ctx = some w →
    (match onTurn s ctx with | some (.emit _ _ _ _ _ _) => true | _ => false) = true →
    Runs (.emit ctx) s fun t =>
        (ctxOf t ctx).onSeq = false ∧
        (ctxOf t ctx).wait = w ∧
        (ctxOf t ctx).regs = (ctxOf s ctx).regs ∧
        t.fabric.slots = m.fabric.slots) ∧
  (∀ (s : State) (ctx : CtxId),
    ∀ g : Gs, (match onTurn s ctx with | some (.gather false x y i ss esz pi stop n) => some ⟨false, x, y, i, ss, esz, pi, stop, n⟩ | _ => none) = some g →
    ∀ x, x = ctxOf s ctx →
    ∀ m, m = advanceTo s (turnCycle s x) →
    ∀ a, a = (addrReg x.regs g.i.a + 4 * x.prog.elems) % 2 ^ 48 →
    issueBlock m ctx = none →
    x.prog.reissue = false →
    heldIndex x.prog x.prog.elems = none →
    a % 4 = 0 →
    namesWindow m (handleReg x.regs g.i.h) = false →
    validEnd m (endpoint m 0 (handleReg x.regs g.i.h) 0x1FF a) = true →
    Runs (.gather ctx) s fun t =>
        t.now = turnCycle s x ∧
        slotEntered s t ctx .index (4 * min (g.n - x.prog.elems) ((256 - a % 256) / 4)) = true ∧
        (ctxOf t ctx).wait = .index ∧
        (ctxOf t ctx).onSeq = false) ∧
  (∀ (s : State) (ctx : CtxId),
    ∀ g : Gs, (match onTurn s ctx with | some (.gather false x y i ss esz pi stop n) => some ⟨false, x, y, i, ss, esz, pi, stop, n⟩ | _ => none) = some g →
    ∀ x, x = ctxOf s ctx →
    ∀ m, m = advanceTo s (turnCycle s x) →
    ∀ i : Nat, heldIndex x.prog x.prog.elems = some i →
    ∀ a, a = g.place x.regs x.prog.elems i →
    ∀ src, src = (a.1 + x.prog.bytes) % 2 ^ 48 →
    ∀ dst, dst = (a.2 + x.prog.bytes) % 2 ^ 48 →
    issueBlock m ctx = none →
    x.prog.reissue = false →
    g.sentinel i = false →
    validEnd m (endpoint m 0 (handleReg x.regs g.x.h) 0x1FF src) = true →
    validEnd m (endpoint m g.y.kind (handleReg x.regs g.y.h) 0x1FF dst) = true →
    Runs (.gather ctx) s fun t =>
        t.now = turnCycle s x ∧
        (ctxOf t ctx).seq = x.seq + 1 ∧
        t.fabric.slots.any (fun y => y.id == s.fabric.nextSlot + 1 && y.kind == .gatherElem && y.cls == .read && y.seq == x.seq + 1) = true) ∧
  (∀ (s : State) (ctx : CtxId),
    ∀ g : Gs, (match onTurn s ctx with | some (.gather false x y i ss esz pi stop n) => some ⟨false, x, y, i, ss, esz, pi, stop, n⟩ | _ => none) = some g →
    ∀ x, x = ctxOf s ctx →
    ∀ m, m = advanceTo s (turnCycle s x) →
    ∀ i : Nat, heldIndex x.prog x.prog.elems = some i →
    issueBlock m ctx = none →
    x.prog.reissue = false →
    g.sentinel i = true →
    Runs (.gather ctx) s fun t =>
        (ctxOf t ctx).regs.c = true ∧
        (ctxOf t ctx).regs.ip = afterIp x ∧
        t.fabric.slots = m.fabric.slots) ∧
  (∀ (s : State) (ctx : CtxId),
    ∀ g : Gs, (match onTurn s ctx with | some (.gather true x y i ss esz pi stop n) => some ⟨true, x, y, i, ss, esz, pi, stop, n⟩ | _ => none) = some g →
    ∀ x, x = ctxOf s ctx →
    ∀ m, m = advanceTo s (turnCycle s x) →
    ∀ a, a = (addrReg x.regs g.i.a + 4 * x.prog.elems) % 2 ^ 48 →
    issueBlock m ctx = none →
    x.prog.reissue = false →
    heldIndex x.prog x.prog.elems = none →
    a % 4 = 0 →
    namesWindow m (handleReg x.regs g.i.h) = false →
    validEnd m (endpoint m 0 (handleReg x.regs g.i.h) 0x1FF a) = true →
    Runs (.scatter ctx) s fun t =>
        t.now = turnCycle s x ∧
        slotEntered s t ctx .index (4 * min (g.n - x.prog.elems) ((256 - a % 256) / 4)) = true ∧
        (ctxOf t ctx).wait = .index) ∧
  (∀ (s : State) (ctx : CtxId),
    ∀ g : Gs, (match onTurn s ctx with | some (.gather true x y i ss esz pi stop n) => some ⟨true, x, y, i, ss, esz, pi, stop, n⟩ | _ => none) = some g →
    ∀ x, x = ctxOf s ctx →
    ∀ m, m = advanceTo s (turnCycle s x) →
    ∀ i : Nat, heldIndex x.prog x.prog.elems = some i →
    ∀ a, a = g.place x.regs x.prog.elems i →
    ∀ src, src = (a.1 + x.prog.bytes) % 2 ^ 48 →
    ∀ dst, dst = (a.2 + x.prog.bytes) % 2 ^ 48 →
    issueBlock m ctx = none →
    x.prog.reissue = false →
    g.sentinel i = false →
    validEnd m (endpoint m g.y.kind (handleReg x.regs g.y.h) 0x1FF src) = true →
    validEnd m (endpoint m 0 (handleReg x.regs g.x.h) 0x1FF dst) = true →
    Runs (.scatter ctx) s fun t =>
        t.now = turnCycle s x ∧
        (ctxOf t ctx).seq = x.seq + 1 ∧
        t.fabric.slots.any (fun y => y.id == s.fabric.nextSlot + 1 && y.kind == .scatterElem && y.cls == .write && y.seq == x.seq + 1) = true) ∧
  (∀ (s : State) (ctx : CtxId),
    ∀ q : EndField × EndField × Nat × Nat × Bool, (match onTurn s ctx with | some (.xpose a b ss ds w) => some (a, b, ss, ds, w) | _ => none) = some q →
    ∀ x, x = ctxOf s ctx →
    ∀ m, m = advanceTo s (turnCycle s x) →
    ∀ rows, rows = (if q.2.2.2.2 then 32 else 64) →
    ∀ r : Nat × Nat × Nat, (rowSlots (rowAt x.regs q.1 q.2.2.1) rows (2 * rows) 0)[x.prog.slots]? = some r →
    issueBlock m ctx = none →
    x.prog.tile.isSome = true ∨ hallTiles m (ctxDie ctx) (ctxCluster ctx) < 8 →
    validEnd m (endpoint m 0 (handleReg x.regs q.1.h) 0x1FF r.2.1) = true →
    Runs (.xpose ctx) s fun t =>
        t.now = turnCycle s x ∧
        t.fabric.nextSlot = s.fabric.nextSlot + 1 ∧
        t.fabric.slots.any (fun y => y.id == s.fabric.nextSlot + 1 && y.ctx == some ctx && y.len == r.2.2 && (match y.kind with | .xposeSrc _ off => off == r.1 | _ => false)) = true ∧
        (x.prog.tile = none → t.streams.tiles.any (fun b => b.id == s.streams.nextTile + 1 && b.ctx == ctx) = true)) ∧
  (∀ (s : State) (ctx : CtxId),
    ∀ x, x = ctxOf s ctx →
    ∀ m, m = advanceTo s (turnCycle s x) →
    (match onTurn s ctx with | some (.xpose _ _ _ _ _) => true | _ => false) = true →
    issueBlock m ctx = none →
    x.prog.tile = none →
    8 ≤ hallTiles m (ctxDie ctx) (ctxCluster ctx) →
    Runs (.xpose ctx) s fun t =>
        (ctxOf t ctx).wait = .tile ∧
        (ctxOf t ctx).onSeq = false ∧
        t.streams.tiles = m.streams.tiles) ∧
  (∀ (s : State) (ctx : CtxId),
    ∀ q : EndField × Nat × Nat × Nat × Nat × Bool × Nat × Nat, (match onTurn s ctx with | some (.combine src da qd qc qn pi n cidx) => some (src, da, qd, qc, qn, pi, n, cidx) | _ => none) = some q →
    ∀ x, x = ctxOf s ctx →
    ∀ m, m = advanceTo s (turnCycle s x) →
    ∀ a, a = addrReg x.regs q.1.a + 256 * x.prog.slots →
    ∀ off, off = addrReg x.regs q.2.1 + 256 * x.prog.slots →
    x.recs = [] →
    issueBlock m ctx = none →
    off % 64 = 0 →
    a % 256 = 0 →
    validEnd m (endpoint m q.1.kind (handleReg x.regs q.1.h) 0x1FF a) = true →
    Runs (.combine ctx) s fun t =>
        t.now = turnCycle s x ∧
        slotEntered s t ctx .combine 256 = true ∧
        (x.prog.slots + 1 = q.2.2.2.2.2.2.1 → (ctxOf t ctx).regs.ip = afterIp x) ∧
        (x.prog.slots + 1 ≠ q.2.2.2.2.2.2.1 → (ctxOf t ctx).regs = x.regs)) ∧
  (∀ (s : State) (ctx : CtxId),
    ∀ q : EndField × EndField × Nat × Bool, (match onTurn s ctx with | some (.seal src dst n pi) => some (src, dst, n, pi) | _ => none) = some q →
    ∀ x, x = ctxOf s ctx →
    ∀ m, m = advanceTo s (turnCycle s x) →
    ∀ a, a = addrReg x.regs q.1.a + 256 * x.prog.slots →
    ∀ b, b = addrReg x.regs q.2.1.a + 256 * x.prog.slots →
    x.recs = [] →
    issueBlock m ctx = none →
    addrReg x.regs q.2.1.a % 4096 = 0 →
    a % 256 = 0 →
    namesWindow m (handleReg x.regs q.2.1.h) = false →
    validEnd m (endpoint m q.1.kind (handleReg x.regs q.1.h) 0x1FF a) = true →
    s.present (taDie (b % 2 ^ 33)) = true →
    Runs (.seal ctx) s fun t =>
        t.now = turnCycle s x ∧
        slotEntered s t ctx .seal 256 = true ∧
        (x.prog.slots + 1 = 16 * q.2.2.1 → (ctxOf t ctx).regs.ip = afterIp x) ∧
        (x.prog.slots + 1 ≠ 16 * q.2.2.1 → (ctxOf t ctx).regs = x.regs))

/-- TAKE, GIVE, WAITSLIP, DIGEST and SIGNAL send their operation: R220-R225. -/
def Obligations.OperationInstructionsSendTheirOperation : Prop :=
  (∀ (s : State) (ctx : CtxId),
    ∀ q : Nat, (match onTurn s ctx with | some (.take _ _ q) => some q | _ => none) = some q →
    ∀ x, x = ctxOf s ctx →
    x.recs = [] →
    s.present (qDie q) = true →
    Runs (.take ctx) s fun t =>
        t.now = turnCycle s x ∧
        t.queues.ops = s.queues.ops ++ [⟨s.queues.nextOp + 1, .ctx ctx, .take (BitVec.ofNat 13 q), ctxIdent s ctx, BitVec.ofNat 4 (ctxTen s ctx), false, 0, 0, 0, []⟩] ∧
        (ctxOf t ctx).opFlight = true ∧
        (ctxOf t ctx).onSeq = false ∧
        (ctxOf t ctx).regs = x.regs) ∧
  (∀ (s : State) (ctx : CtxId),
    ∀ q : Nat × Nat × Bool × Nat, (match onTurn s ctx with | some (.give h _ part ps q) => some (h, part, ps, q) | _ => none) = some q →
    ∀ x, x = ctxOf s ctx →
    x.recs = [] →
    s.present (qDie q.2.2.2) = true →
    Runs (.give ctx) s fun t =>
        t.now = turnCycle s x ∧
        t.queues.ops = s.queues.ops ++ [⟨s.queues.nextOp + 1, .ctx ctx, .give (BitVec.ofNat 13 q.2.2.2) (slipOf x.regs q.1 q.2.1 q.2.2.1), ctxIdent s ctx, BitVec.ofNat 4 (ctxTen s ctx), false, 0, 0, 0, []⟩] ∧
        (ctxOf t ctx).opFlight = true ∧
        (ctxOf t ctx).onSeq = false) ∧
  (∀ (s : State) (ctx : CtxId),
    ∀ q : Nat × Bool × Nat, (match onTurn s ctx with | some (.waitslip k b v) => some (k, b, v) | _ => none) = some q →
    ∀ x, x = ctxOf s ctx →
    x.recs = [] →
    q.1 = 0 →
    s.present (qDie q.2.2) = true →
    Runs (.waitslip ctx) s fun t =>
        t.now = turnCycle s x ∧
        t.queues.ops.any (fun o => o.id == s.queues.nextOp + 1 && o.issuer == .ctx ctx && o.kind == .testQueue (BitVec.ofNat 13 q.2.2)) = true ∧
        (ctxOf t ctx).opFlight = true) ∧
  (∀ (s : State) (ctx : CtxId),
    ∀ q : Nat × Bool × Nat, (match onTurn s ctx with | some (.waitslip k b v) => some (k, b, v) | _ => none) = some q →
    ∀ x, x = ctxOf s ctx →
    x.recs = [] →
    q.1 = 1 →
    s.present (q.2.2 / 4096) = true →
    Runs (.waitslip ctx) s fun t =>
        t.queues.ops.any (fun o => o.id == s.queues.nextOp + 1 && o.issuer == .ctx ctx && o.kind == .testResult (BitVec.ofNat 15 q.2.2)) = true ∧
        (ctxOf t ctx).opFlight = true) ∧
  (∀ (s : State) (ctx : CtxId),
    ∀ q : Nat × Bool × Nat, (match onTurn s ctx with | some (.waitslip k b v) => some (k, b, v) | _ => none) = some q →
    ∀ x, x = ctxOf s ctx →
    x.recs = [] →
    q.1 = 2 →
    Runs (.waitslip ctx) s fun t =>
        (x.pcn ≠ 0 → (ctxOf t ctx).pcn = x.pcn - 1 ∧ (ctxOf t ctx).points = x.points.drop 1 ∧ (ctxOf t ctx).regs.pt = x.points.headD 0 ∧ (ctxOf t ctx).regs.ip = afterIp x) ∧
        (x.pcn = 0 → q.2.1 = true → (ctxOf t ctx).wait = .point ∧ (ctxOf t ctx).onSeq = false ∧ (ctxOf t ctx).regs = x.regs) ∧
        (x.pcn = 0 → q.2.1 = false → (ctxOf t ctx).regs = { x.regs with ip := afterIp x, q := false })) ∧
  (∀ (s : State) (ctx : CtxId),
    ∀ q : Nat × Bool × Nat, (match onTurn s ctx with | some (.waitslip k b v) => some (k, b, v) | _ => none) = some q →
    ∀ x, x = ctxOf s ctx →
    x.recs = [] →
    q.1 = 3 →
    Runs (.waitslip ctx) s fun t =>
        (x.bl = 3 → (ctxOf t ctx).bl = 0 ∧ (ctxOf t ctx).regs.ip = afterIp x) ∧
        (x.bl ≠ 3 → q.2.1 = true → (ctxOf t ctx).wait = .barrier ∧ (ctxOf t ctx).onSeq = false ∧ (ctxOf t ctx).regs = x.regs) ∧
        (x.bl ≠ 3 → q.2.1 = false → (ctxOf t ctx).regs = { x.regs with ip := afterIp x, q := false })) ∧
  (∀ (s : State) (ctx : CtxId),
    ∀ q : Nat × Bool × Nat, (match onTurn s ctx with | some (.digest m b v) => some (m, b, v) | _ => none) = some q →
    ∀ x, x = ctxOf s ctx →
    x.recs = [] →
    q.1 = 0 →
    Runs (.digest ctx) s fun t =>
        t.now = turnCycle s x ∧
        (ctxOf t ctx).d = 0 ∧
        (ctxOf t ctx).regs = { x.regs with ip := afterIp x }) ∧
  (∀ (s : State) (ctx : CtxId),
    ∀ q : Nat × Bool × Nat, (match onTurn s ctx with | some (.digest m b v) => some (m, b, v) | _ => none) = some q →
    ∀ x, x = ctxOf s ctx →
    x.recs = [] →
    x.key.isSome = true →
    q.1 = 1 →
    s.present (q.2.2 / 4096) = true →
    Runs (.digest ctx) s fun t =>
        t.queues.ops.any (fun o => o.id == s.queues.nextOp + 1 && o.issuer == .ctx ctx && o.kind == .rsPost (BitVec.ofNat 15 q.2.2) 16 (leBytes 16 x.d.toNat)) = true ∧
        (ctxOf t ctx).opFlight = true) ∧
  (∀ (s : State) (ctx : CtxId),
    ∀ q : Nat × Bool × Nat, (match onTurn s ctx with | some (.digest m b v) => some (m, b, v) | _ => none) = some q →
    ∀ x, x = ctxOf s ctx →
    x.recs = [] →
    x.key.isSome = true →
    q.1 = 2 →
    Runs (.digest ctx) s fun t =>
        t.replicas.posts = s.replicas.posts ++ [⟨s.replicas.nextPost + 1, ctx, BitVec.ofNat 8 q.2.2, BitVec.ofNat 3 (q.2.2 / 256), x.d, BitVec.ofNat 4 (ctxTen s ctx), false, 0⟩] ∧
        (ctxOf t ctx).opFlight = true) ∧
  (∀ (s : State) (ctx : CtxId),
    ∀ q : Nat × Bool × Nat, (match onTurn s ctx with | some (.digest m b v) => some (m, b, v) | _ => none) = some q →
    ∀ x, x = ctxOf s ctx →
    x.recs = [] →
    x.key = none →
    q.1 ≠ 0 →
    x.opFlight = false →
    Runs (.digest ctx) s fun t =>
        (ctxOf t ctx).st = .aborted ∧
        (ctxOf t ctx).acause = 8) ∧
  (∀ (s : State) (ctx : CtxId),
    ∀ q : Bool × Nat × Nat, (match onTurn s ctx with | some (.signal a p v) => some (a, p, v) | _ => none) = some q →
    ∀ x, x = ctxOf s ctx →
    ∀ m, m = advanceTo s (turnCycle s x) →
    ∀ cfg, cfg = barrierCfg m (ctxDie ctx) q.2.1 →
    x.recs = [] →
    q.1 = true →
    field cfg 16 4 = ctxTen s ctx →
    bit cfg 31 = true →
    laneShut m (ctxDie ctx) (ctxCluster ctx) (ctxDie ctx) none = false →
    Runs (.signal ctx) s fun t =>
        t.streams.tokens.any (fun u => u.id == s.streams.nextToken + 1 && u.kind == .arrive (BitVec.ofNat 12 q.2.1) 1 (BitVec.ofNat 3 (ctxDie ctx)) false) = true ∧
        (ctxOf t ctx).bl = 1 ∧
        (ctxOf t ctx).bn = BitVec.ofNat 12 q.2.1 ∧
        (ctxOf t ctx).regs.ip = afterIp x) ∧
  (∀ (s : State) (ctx : CtxId),
    ∀ q : Bool × Nat × Nat, (match onTurn s ctx with | some (.signal a p v) => some (a, p, v) | _ => none) = some q →
    ∀ x, x = ctxOf s ctx →
    ∀ m, m = advanceTo s (turnCycle s x) →
    x.recs = [] →
    q.1 = false →
    s.present (q.2.2 / 32768) = true →
    laneShut m (ctxDie ctx) (ctxCluster ctx) (q.2.2 / 32768) (some (q.2.2 / 2048 % 16)) = false →
    Runs (.signal ctx) s fun t =>
        t.streams.tokens.any (fun u => u.id == s.streams.nextToken + 1 && u.kind == .point (BitVec.ofNat 12 q.2.1) (BitVec.ofNat 18 q.2.2) ctx) = true ∧
        (ctxOf t ctx).opFlight = true ∧
        (ctxOf t ctx).regs = x.regs) ∧
  (∀ (s : State) (ctx : CtxId),
    ∀ m, m = advanceTo s (turnCycle s (ctxOf s ctx)) →
    ∀ q : Bool × Nat × Nat, (match onTurn s ctx with | some (.signal a p v) => some (a, p, v) | _ => none) = some q →
    (ctxOf s ctx).recs = [] →
    q.1 = false →
    s.present (q.2.2 / 32768) = true →
    laneShut m (ctxDie ctx) (ctxCluster ctx) (q.2.2 / 32768) (some (q.2.2 / 2048 % 16)) = true →
    Runs (.signal ctx) s fun t =>
        (ctxOf t ctx).wait = .lane ∧
        t.streams.tokens = m.streams.tokens)

/-- Queue engines carry out give, take, post, read and consume: R228-R244, R254-R256. -/
def Obligations.QueueEnginesCarryOutOperations : Prop :=
  (∀ (s : State) (op : Nat),
    ∀ o : QOp, s.queues.ops.find? (fun o => o.id == op && !o.done) = some o →
    ∀ k : Nat × State, opTurn s o = some k →
    ringShut s o.issuer.die o.kind.die = false →
    domUp s o.kind.die 47 = true →
    o.issuer.notice = false →
    Runs (.queueEngineOp op) s fun t =>
        t.now = k.1 ∧
        t.queues.ops.any (fun q => q.id == op && q.done && q.status == (carryOut (noteServed k.2 o) o).2.status) = true) ∧
  (∀ (s : State) (op : Nat),
    ∀ o : QOp, s.queues.ops.find? (fun o => o.id == op && !o.done) = some o →
    ∀ k : Nat × State, opTurn s o = some k →
    ringShut s o.issuer.die o.kind.die = false →
    domUp s o.kind.die 47 = true →
    o.issuer.notice = true →
    Runs (.queueEngineOp op) s fun t =>
        t.queues.ops.all (fun q => q.id != op) = true) ∧
  (∀ (s : State) (op : Nat),
    ∀ o : QOp, s.queues.ops.find? (fun o => o.id == op && !o.done) = some o →
    ∀ k : Nat × State, opTurn s o = some k →
    ∀ q : BitVec 13 × Word, (match o.kind with | .give q w => some (q, w) | _ => none) = some q →
    ∀ v, v = sqOf s q.1.toNat →
    ringShut s o.issuer.die (qDie q.1.toNat) = false →
    domUp s (qDie q.1.toNat) 47 = true →
    o.issuer.notice = false →
    field (sqReg k.2 q.1.toNat) 16 4 = o.ten.toNat →
    bit (sqReg k.2 q.1.toNat) 23 = true →
    Runs (.queueEngineOp op) s fun t =>
        (32 ≤ v.count + v.reserved → t.queues.ops.any (fun k => k.id == op && k.done && stCode k.status == Code.full) = true ∧ t.queues.slipq = s.queues.slipq) ∧
        (v.count + v.reserved < 32 → t.queues.ops.any (fun k => k.id == op && k.done && stCode k.status == Code.done) = true → (sqOf t q.1.toNat).count = v.count + 1 ∧ (v.count = 0 → (sqOf t q.1.toNat).headSlip = q.2))) ∧
  (∀ (s : State) (op : Nat),
    ∀ o : QOp, s.queues.ops.find? (fun o => o.id == op && !o.done) = some o →
    ∀ k : Nat × State, opTurn s o = some k →
    ∀ q : BitVec 13, (match o.kind with | .take q => some q | _ => none) = some q →
    ∀ v, v = sqOf s q.toNat →
    ringShut s o.issuer.die (qDie q.toNat) = false →
    domUp s (qDie q.toNat) 47 = true →
    o.issuer.notice = false →
    field (sqReg k.2 q.toNat) 16 4 = o.ten.toNat →
    bit (sqReg k.2 q.toNat) 23 = true →
    Runs (.queueEngineOp op) s fun t =>
        (v.count = 0 → t.queues.ops.any (fun k => k.id == op && k.done && stCode k.status == Code.empty) = true ∧ t.queues.slipq = s.queues.slipq) ∧
        (v.count ≠ 0 → (sqOf t q.toNat).count = v.count - 1 ∧ (sqOf t q.toNat).head = (v.head + 1) % 32)) ∧
  (∀ (s : State) (op : Nat),
    ∀ o : QOp, s.queues.ops.find? (fun o => o.id == op && !o.done) = some o →
    ∀ k : Nat × State, opTurn s o = some k →
    ∀ q : BitVec 15 × Nat, (match o.kind with | .rsPost i n _ => some (i, n) | _ => none) = some q →
    ∀ d, d = q.1.toNat / 4096 →
    ∀ i, i = q.1.toNat % 4096 →
    ∀ v, v = rsOf s d i →
    ringShut s o.issuer.die d = false →
    domUp s d 47 = true →
    o.issuer.notice = false →
    field (rsReg k.2 d i) 16 4 = o.ten.toNat →
    bit (rsReg k.2 d i) 23 = true →
    Runs (.queueEngineOp op) s fun t =>
        (v.ready = true → rsOf t d i = v ∧ t.queues.ops.any (fun k => k.id == op && k.done && stCode k.status == Code.full) = true) ∧
        (v.ready = false → rsOf t d i = ⟨v.seq + 1, true, false, q.2⟩ ∧ t.queues.ops.any (fun k => k.id == op && k.done && stCode k.status == Code.done) = true)) ∧
  (∀ (s : State) (op : Nat),
    ∀ o : QOp, s.queues.ops.find? (fun o => o.id == op && !o.done) = some o →
    ∀ k : Nat × State, opTurn s o = some k →
    ∀ q : BitVec 15 × BitVec 16, (match o.kind with | .rsConsume i n => some (i, n) | _ => none) = some q →
    ∀ d, d = q.1.toNat / 4096 →
    ∀ i, i = q.1.toNat % 4096 →
    ∀ v, v = rsOf s d i →
    ringShut s o.issuer.die d = false →
    domUp s d 47 = true →
    o.issuer.notice = false →
    field (rsReg k.2 d i) 16 4 = o.ten.toNat →
    bit (rsReg k.2 d i) 23 = true →
    Runs (.queueEngineOp op) s fun t =>
        (v.ready = true → v.seq = q.2 → rsOf t d i = { v with ready := false, read := false }) ∧
        (v.ready = true → v.seq ≠ q.2 → rsOf t d i = v ∧ t.queues.ops.any (fun k => k.id == op && k.done && stCode k.status == Code.state) = true) ∧
        (v.ready = false → rsOf t d i = v ∧ t.queues.ops.any (fun k => k.id == op && k.done && stCode k.status == Code.notReady) = true)) ∧
  (∀ (s : State) (op : Nat),
    ∀ o : QOp, s.queues.ops.find? (fun o => o.id == op && o.done) = some o →
    ∀ c : CtxId, (match o.issuer with | .ctx c => some c | _ => none) = some c →
    ∀ x, x = ctxOf s c →
    ∀ h : Nat, (match currentInstr x with | some (.take h _ _) => some h | _ => none) = some h →
    x.opFlight = true →
    x.stop = .no →
    stCode o.status = Code.done →
    Runs (.queueOpStatusReturn op) s fun t =>
        t.queues.ops.all (fun k => k.id != op) = true ∧
        (ctxOf t c).opFlight = false ∧
        (ctxOf t c).ready = true ∧
        (ctxOf t c).regs = { x.regs with ip := afterIp x, sl := o.slip, h := x.regs.h.set h (BitVec.ofNat 20 (field o.slip 0 20)), q := true }) ∧
  (∀ (s : State) (op : Nat),
    ∀ o : QOp, s.queues.ops.find? (fun o => o.id == op && o.done) = some o →
    ∀ k : Die × CoreNo, (match o.issuer with | .core d c => some (d, c) | _ => none) = some k →
    (match o.kind with | .rsRead _ => false | _ => true) = true →
    Runs (.queueOpStatusReturn op) s fun t =>
        t.queues.ops.all (fun k => k.id != op) = true ∧
        regGet t k.1.toNat (.qopSts k.2.toNat) = o.status ∧
        ((match o.kind with | .take _ => stCode o.status == Code.done | _ => false) = true → regGet t k.1.toNat (.qopData k.2.toNat 0) = o.slip)) ∧
  (∀ (s : State) (op : Nat),
    ∀ o : QOp, s.queues.ops.find? (fun o => o.id == op && o.done) = some o →
    ∀ src : CmdSrc, (match o.issuer with | .host src => some src | _ => none) = some src →
    cmdState s src = 2 →
    Runs (.queueOpStatusReturn op) s fun t =>
        t.queues.ops.all (fun k => k.id != op) = true ∧
        answered t src (stCode o.status) = true ∧
        ((match o.kind with | .take _ => stCode o.status == Code.done | _ => false) = true → result t src 0 = o.slip))

/-- Host queue commands send their operation: R257, R401. -/
def Obligations.HostQueueCommandsSendOperations : Prop :=
  (∀ (s : State) (src : CmdSrc),
    ∀ q, q = cmdArgF s src 0 0 13 →
    given s src 0x28 = true →
    s.present (qDie q) = true →
    Runs (.sqGive src) s fun t =>
        cmdOngoing t src = true ∧
        t.queues.ops = s.queues.ops ++ [⟨s.queues.nextOp + 1, .host src, .give (BitVec.ofNat 13 q) (cmdArg s src 1), identOf src.die 0x830, BitVec.ofNat 4 (cmdTen s src), false, 0, 0, 0, []⟩]) ∧
  (∀ (s : State) (src : CmdSrc),
    ∀ q, q = cmdArgF s src 0 0 13 →
    given s src 0x29 = true →
    s.present (qDie q) = true →
    Runs (.sqTake src) s fun t =>
        cmdOngoing t src = true ∧
        t.queues.ops = s.queues.ops ++ [⟨s.queues.nextOp + 1, .host src, .take (BitVec.ofNat 13 q), identOf src.die 0x830, BitVec.ofNat 4 (cmdTen s src), false, 0, 0, 0, []⟩]) ∧
  (∀ (s : State) (src : CmdSrc),
    ∀ i, i = cmdArgF s src 0 0 15 →
    ∀ n, n = cmdArgF s src 1 0 7 →
    given s src 0x2A = true →
    s.present (i / 4096) = true →
    1 ≤ n →
    n ≤ 64 →
    Runs (.rsPost src) s fun t =>
        cmdOngoing t src = true ∧
        t.queues.ops = s.queues.ops ++ [⟨s.queues.nextOp + 1, .host src, .rsPost (BitVec.ofNat 15 i) n ((cmdInput s src 64).take n), identOf src.die 0x830, BitVec.ofNat 4 (cmdTen s src), false, 0, 0, 0, []⟩]) ∧
  (∀ (s : State) (src : CmdSrc),
    given s src 0x2A = true →
    cmdArgF s src 1 0 7 = 0 ∨ 64 < cmdArgF s src 1 0 7 →
    Runs (.rsPost src) s fun t =>
        answered t src Code.badArg = true ∧
        t.queues = s.queues) ∧
  (∀ (s : State) (src : CmdSrc),
    ∀ i, i = cmdArgF s src 0 0 15 →
    given s src 0x2B = true →
    s.present (i / 4096) = true →
    Runs (.rsRead src) s fun t =>
        cmdOngoing t src = true ∧
        t.queues.ops = s.queues.ops ++ [⟨s.queues.nextOp + 1, .host src, .rsRead (BitVec.ofNat 15 i), identOf src.die 0x830, BitVec.ofNat 4 (cmdTen s src), false, 0, 0, 0, []⟩]) ∧
  (∀ (s : State) (src : CmdSrc),
    ∀ i, i = cmdArgF s src 0 0 15 →
    given s src 0x2C = true →
    s.present (i / 4096) = true →
    Runs (.rsConsume src) s fun t =>
        cmdOngoing t src = true ∧
        t.queues.ops = s.queues.ops ++ [⟨s.queues.nextOp + 1, .host src, .rsConsume (BitVec.ofNat 15 i) (BitVec.ofNat 16 (cmdArgF s src 1 0 16)), identOf src.die 0x830, BitVec.ofNat 4 (cmdTen s src), false, 0, 0, 0, []⟩])

/-- QOP commands of a core send their operation: R258, R389. -/
def Obligations.CoreQueueOperationsSendOperations : Prop :=
  (∀ (s : State) (d : Die) (core : CoreNo) (cmd : Word),
    coreMay s d core cmd 1 = true →
    field cmd 21 7 = 0 →
    field cmd 0 16 < 2 ^ 13 →
    s.present (qDie (field cmd 0 16)) = true →
    Runs (.qopGive d core cmd) s fun t =>
        t.queues.ops = s.queues.ops ++ [coreQOp s d core (.give (BitVec.ofNat 13 (field cmd 0 16)) (regGet s d.toNat (.qopArg core.toNat)))] ∧
        regGet t d.toNat (.qopSts core.toNat) = stWord Code.busy) ∧
  (∀ (s : State) (d : Die) (core : CoreNo) (cmd : Word),
    coreMay s d core cmd 2 = true →
    field cmd 21 7 = 0 →
    field cmd 0 16 < 2 ^ 13 →
    s.present (qDie (field cmd 0 16)) = true →
    Runs (.qopTake d core cmd) s fun t =>
        t.queues.ops = s.queues.ops ++ [coreQOp s d core (.take (BitVec.ofNat 13 (field cmd 0 16)))] ∧
        regGet t d.toNat (.qopSts core.toNat) = stWord Code.busy) ∧
  (∀ (s : State) (d : Die) (core : CoreNo) (cmd : Word),
    coreMay s d core cmd 3 = true →
    1 ≤ field cmd 21 7 →
    field cmd 21 7 ≤ 64 →
    field cmd 0 16 < 2 ^ 15 →
    s.present (field cmd 0 16 / 4096) = true →
    Runs (.qopRsPost d core cmd) s fun t =>
        t.queues.ops = s.queues.ops ++ [coreQOp s d core (.rsPost (BitVec.ofNat 15 (field cmd 0 16)) (field cmd 21 7) ((qopBytes s d.toNat core.toNat).take (field cmd 21 7)))] ∧
        regGet t d.toNat (.qopSts core.toNat) = stWord Code.busy) ∧
  (∀ (s : State) (d : Die) (core : CoreNo) (cmd : Word),
    coreCalls s d core cmd 3 = true →
    field cmd 21 7 = 0 ∨ 64 < field cmd 21 7 →
    Runs (.qopRsPost d core cmd) s fun t =>
        regGet t d.toNat (.qopSts core.toNat) = stWord Code.badArg ∧
        t.queues = s.queues) ∧
  (∀ (s : State) (d : Die) (core : CoreNo) (cmd : Word),
    coreMay s d core cmd 4 = true →
    field cmd 21 7 = 0 →
    field cmd 0 16 < 2 ^ 15 →
    s.present (field cmd 0 16 / 4096) = true →
    Runs (.qopRsRead d core cmd) s fun t =>
        t.queues.ops = s.queues.ops ++ [coreQOp s d core (.rsRead (BitVec.ofNat 15 (field cmd 0 16)))] ∧
        regGet t d.toNat (.qopSts core.toNat) = stWord Code.busy) ∧
  (∀ (s : State) (d : Die) (core : CoreNo) (cmd : Word),
    coreMay s d core cmd 5 = true →
    field cmd 21 7 = 0 →
    field cmd 0 16 < 2 ^ 15 →
    s.present (field cmd 0 16 / 4096) = true →
    Runs (.qopRsConsume d core cmd) s fun t =>
        t.queues.ops = s.queues.ops ++ [coreQOp s d core (.rsConsume (BitVec.ofNat 15 (field cmd 0 16)) (BitVec.ofNat 16 (field (regGet s d.toNat (.qopArg core.toNat)) 0 16)))] ∧
        regGet t d.toNat (.qopSts core.toNat) = stWord Code.busy) ∧
  (∀ (s : State) (d : Die) (core : CoreNo) (cmd : Word),
    coreCalls s d core cmd 1 = true →
    coreFenced s d.toNat core.toNat = true →
    field cmd 21 7 = 0 →
    field cmd 0 16 < 2 ^ 13 →
    s.present (qDie (field cmd 0 16)) = true →
    Runs (.qopGive d core cmd) s fun t =>
        regGet t d.toNat (.qopSts core.toNat) = stWord Code.fenced ∧
        t.queues = s.queues) ∧
  (∀ (s : State) (d : Die) (core : CoreNo) (cmd : Word),
    coreCalls s d core cmd 2 = true →
    coreFenced s d.toNat core.toNat = true →
    field cmd 21 7 = 0 →
    field cmd 0 16 < 2 ^ 13 →
    s.present (qDie (field cmd 0 16)) = true →
    Runs (.qopTake d core cmd) s fun t =>
        regGet t d.toNat (.qopSts core.toNat) = stWord Code.fenced ∧
        t.queues = s.queues) ∧
  (∀ (s : State) (d : Die) (core : CoreNo) (cmd : Word),
    coreCalls s d core cmd 3 = true →
    coreFenced s d.toNat core.toNat = true →
    1 ≤ field cmd 21 7 →
    field cmd 21 7 ≤ 64 →
    field cmd 0 16 < 2 ^ 15 →
    s.present (field cmd 0 16 / 4096) = true →
    Runs (.qopRsPost d core cmd) s fun t =>
        regGet t d.toNat (.qopSts core.toNat) = stWord Code.fenced ∧
        t.queues = s.queues) ∧
  (∀ (s : State) (d : Die) (core : CoreNo) (cmd : Word),
    coreCalls s d core cmd 4 = true →
    coreFenced s d.toNat core.toNat = true →
    field cmd 21 7 = 0 →
    field cmd 0 16 < 2 ^ 15 →
    s.present (field cmd 0 16 / 4096) = true →
    Runs (.qopRsRead d core cmd) s fun t =>
        regGet t d.toNat (.qopSts core.toNat) = stWord Code.fenced ∧
        t.queues = s.queues) ∧
  (∀ (s : State) (d : Die) (core : CoreNo) (cmd : Word),
    coreCalls s d core cmd 5 = true →
    coreFenced s d.toNat core.toNat = true →
    field cmd 21 7 = 0 →
    field cmd 0 16 < 2 ^ 15 →
    s.present (field cmd 0 16 / 4096) = true →
    Runs (.qopRsConsume d core cmd) s fun t =>
        regGet t d.toNat (.qopSts core.toNat) = stWord Code.fenced ∧
        t.queues = s.queues)

/-- Combining queues start, zero, add and post: R245-R253. -/
def Obligations.CombiningQueuesRunTheirRounds : Prop :=
  (∀ (s : State) (d : Die) (win : Win) (cluster : Cluster) (n : BitVec 4) (val : Word),
    ∀ v, v = cqOf s (cqKey d.toNat cluster.toNat n.toNat) →
    s.present d.toNat = true →
    bit val 23 = true →
    domUp s d.toNat 47 = true →
    cqCtlStatus s d.toNat cluster.toNat n.toNat win.toNat val = Code.done →
    Runs (.cqStart d win cluster n val) s fun t =>
        cqOf t (cqKey d.toNat cluster.toNat n.toNat) = { v with st := .zeroing, rounds := v.rounds + 1, window := [], counts := [], ovf := 0, fault := false, postWaiting := false, postAt := s.now } ∧
        regGet t d.toNat (.cqCtl cluster.toNat n.toNat) = word (field val 0 23)) ∧
  (∀ (s : State) (d : Die) (win : Win) (cluster : Cluster) (n : BitVec 4) (val : Word),
    s.present d.toNat = true →
    bit val 23 = true →
    domUp s d.toNat 47 = true →
    cqCtlStatus s d.toNat cluster.toNat n.toNat win.toNat val ≠ Code.done →
    Runs (.cqStart d win cluster n val) s fun t =>
        t.queues = s.queues ∧
        rf t d.toNat (.cqCtl cluster.toNat n.toNat) 24 8 = cqCtlStatus s d.toNat cluster.toNat n.toNat win.toNat val) ∧
  (∀ (s : State) (d : Die) (cluster : Cluster) (n : BitVec 4),
    ∀ v, v = cqOf s (cqKey d.toNat cluster.toNat n.toNat) →
    ∀ r, r = cqRegion s d.toNat cluster.toNat n.toNat →
    ∀ c, c = max s.now (v.postAt + r.2) →
    s.present d.toNat = true →
    v.st = .zeroing →
    portBShut s (lnBank r.1) = false →
    within s c = true →
    Runs (.cqZeroingDone d cluster n) s fun t =>
        t.now = c ∧
        cqOf t (cqKey d.toNat cluster.toNat n.toNat) = { v with st := .running, slotsAdded := 0, next := 0, ovf := 0, fault := false, counts := [] }) ∧
  (∀ (s : State) (id : Nat),
    ∀ x : Slot, slotAt s id .granted = some x →
    ∀ q : Die × Cluster × BitVec 4 × BitVec 48 × BitVec 16, (match x.dst with | .combining d k n off cidx => some (d, k, n, off, cidx) | _ => none) = some q →
    ∀ r : CtxId, x.ctx = some r →
    ∀ key, key = cqKey q.1.toNat q.2.1.toNat q.2.2.1.toNat →
    ∀ region, region = cqRegion s q.1.toNat q.2.1.toNat q.2.2.1.toNat →
    ∀ busy, busy = ((s.fabric.accs.filter (fun a => region.1 ≤ a.line && a.line < region.1 + region.2)).map (fun a => a.cycle + 1)) →
    ∀ c : Nat, addCycle s (lnBank region.1) (addLines s q.1.toNat q.2.1.toNat q.2.2.1.toNat q.2.2.2.2.toNat x.len) (max s.now (max x.due (maxOf busy))) = some c →
    ∀ y : Slot, slotAt (advanceTo s c) id .granted = some y →
    stCode x.status = Code.done →
    stCode y.status = Code.done →
    combinesBefore s x = false →
    rootStopped s = false →
    domUp s q.1.toNat 47 = true →
    (cqVerdict s x.ten.toNat q.1.toNat q.2.1.toNat q.2.2.1.toNat q.2.2.2.1.toNat q.2.2.2.2.toNat x.len).code = 0 →
    portBShut s (lnBank region.1) = false →
    (cqOf s key).st = .running →
    cqOrdered s q.1.toNat q.2.1.toNat q.2.2.1.toNat = false →
    id ≤ s.fabric.nextSlot →
    Runs (.combineSlotArrive id) s fun t =>
        t.now = c ∧
        (cqOf t key).slotsAdded = (cqOf s key).slotsAdded + 1 ∧
        t.fabric.slots.all (fun y => y.id != id) = true) ∧
  (∀ (s : State) (d : Die) (cluster : Cluster) (n : BitVec 4),
    ∀ v, v = cqOf s (cqKey d.toNat cluster.toNat n.toNat) →
    ∀ cfg, cfg = cqReg s d.toNat cluster.toNat n.toNat →
    ∀ i, i = field (regGet s d.toNat (.cqNote cluster.toNat n.toNat)) 0 12 →
    ∀ c, c = max s.now v.postAt →
    ∀ m, m = advanceTo s c →
    s.present d.toNat = true →
    v.postWaiting = true →
    bit cfg 23 = true →
    field (rsReg s d.toNat i) 16 4 = field cfg 19 4 →
    bit (rsReg s d.toNat i) 23 = true →
    within s c = true →
    Runs (.cqPostRetry d cluster n) s fun t =>
        t.now = c ∧
        ((rsOf s d.toNat i).ready = true → (cqOf t (cqKey d.toNat cluster.toNat n.toNat)).postWaiting = true ∧ (cqOf t (cqKey d.toNat cluster.toNat n.toNat)).postAt = c + 256 ∧ rsOf t d.toNat i = rsOf s d.toNat i) ∧
        ((rsOf s d.toNat i).ready = false → portBShut m (lnBank (rsLine m d.toNat i)) = false → portBFree m (lnBank (rsLine m d.toNat i)) c = true → (cqOf t (cqKey d.toNat cluster.toNat n.toNat)).postWaiting = false ∧ rsOf t d.toNat i = ⟨(rsOf s d.toNat i).seq + 1, true, false, 8⟩))

/-- Outbound windows and transfers act as the remote engine says: R261-R272, R286-R293; the cryptographic functions are computed (log 10). -/
def Obligations.OutboundTransfersLeaveAndReturn : Prop :=
  (∀ (s : State) (d : Die) (win : Win) (n : BitVec 10) (reg : RwinReg) (val : Word),
    ∀ old, old = regSeen s d.toNat (.rwinCfg n.toNat) →
    s.present d.toNat = true →
    domUp s d.toNat 46 = true →
    reg = .cfg →
    routTen s d.toNat n.toNat = some win.toNat →
    bit val 23 = true →
    bit val 22 = false →
    field val 0 15 ≤ 24575 →
    field val 0 15 ≠ nodeOf s d.toNat →
    bit old 23 = false →
    Runs (.rwinCfgWrite d win n reg val) s fun t =>
        rf t d.toNat (.rwinCfg n.toNat) 23 1 = 1 ∧
        rf t d.toNat (.rwinCfg n.toNat) 0 15 = field val 0 15 ∧
        rf t d.toNat (.rwinCfg n.toNat) 19 3 = field val 19 3 ∧
        rf t d.toNat (.rwinCfg n.toNat) 15 4 = field old 15 4) ∧
  (∀ (s : State) (d : Die) (win : Win) (n : BitVec 10) (reg : RwinReg) (val : Word),
    ∀ old, old = regSeen s d.toNat (.rwinCfg n.toNat) →
    s.present d.toNat = true →
    domUp s d.toNat 46 = true →
    reg = .cfg →
    routTen s d.toNat n.toNat = some win.toNat →
    bit val 23 = false →
    bit old 23 = true →
    field val 22 1 = field old 22 1 →
    field val 19 3 = field old 19 3 →
    field val 0 15 = field old 0 15 →
    Runs (.rwinCfgWrite d win n reg val) s fun t =>
        rf t d.toNat (.rwinCfg n.toNat) 23 1 = 0 ∧
        rf t d.toNat (.rwinCfg n.toNat) 15 4 = (field old 15 4 + 1) % 16) ∧
  (∀ (s : State) (d : Die) (win : Win) (n : BitVec 10) (reg : RwinReg) (val : Word),
    s.present d.toNat = true →
    domUp s d.toNat 46 = true →
    reg = .peer →
    routTen s d.toNat n.toNat = some win.toNat →
    Runs (.rwinCfgWrite d win n reg val) s fun t =>
        rf t d.toNat (.rwinPeer n.toNat) 12 20 = field val 12 20 ∧
        rf t d.toNat (.rwinPeer n.toNat) 0 10 = field val 0 10 ∧
        rf t d.toNat (.rwinCfg n.toNat) 24 8 = Code.done) ∧
  (∀ (s : State) (d : Die) (win : Win) (n : BitVec 10) (reg : RwinReg) (val : Word),
    s.present d.toNat = true →
    domUp s d.toNat 46 = true →
    reg ≠ .cfg →
    routTen s d.toNat n.toNat ≠ some win.toNat →
    Runs (.rwinCfgWrite d win n reg val) s fun t =>
        rf t d.toNat (.rwinCfg n.toNat) 24 8 = Code.denied ∧
        rf t d.toNat (.rwinCfg n.toNat) 0 24 = rf s d.toNat (.rwinCfg n.toNat) 0 24) ∧
  (∀ (s : State) (id : Nat),
    ∀ x : Slot, slotAt s id .granted = some x →
    ∀ o : OutMsg, outMsgOf s id = some o →
    ∀ c : CtxId, x.ctx = some c →
    ∀ k, k = max s.now x.due →
    ∀ m, m = advanceTo s k →
    ∀ y : Slot, slotAt m id .granted = some y →
    within s k = true →
    stCode y.status = Code.done →
    y.ctx = some c →
    outMsgOf m id = some o →
    domUp s o.die 46 = true →
    nodeOf m o.die ≠ 0x7FFF →
    o.ring = false →
    o.msg.sealedFlag = false →
    ctxStopped m c = false →
    Runs (.putHandoff id) s fun t =>
        t.now = k ∧
        t.out.head? = some (.message (BitVec.ofNat 3 o.die) { o.msg with payload := y.data }) ∧
        t.fabric.slots.any (fun y => y.id == id && y.stage == .handedOff && y.due == t.now) = true ∧
        (outMsgOf t id).map (·.sent) = some true) ∧
  (∀ (s : State) (id : Nat),
    ∀ x : Slot, slotAt s id .toEngine = some x →
    ∀ r : Nat × Nat × Bool, x.remoteEnd = some r →
    ∀ c : CtxId, x.ctx = some c →
    ∀ o : OutMsg, outMsgOf (takeRemote s x) id = some o →
    ctxDie c = hDie r.1 ∨ (dieOpen s (ctxDie c) && dieOpen s (hDie r.1)) = true →
    (checkRemote s x).code = 0 →
    nodeOf s o.die ≠ 0x7FFF →
    o.msg.sealedFlag = false →
    Runs (.getRequestAtEngine id) s fun t =>
        t.out.head? = some (.message (BitVec.ofNat 3 o.die) o.msg) ∧
        t.fabric.slots.any (fun y => y.id == id && y.stage == .atPeer && y.due == s.now) = true ∧
        (outMsgOf t id).map (·.sent) = some true) ∧
  (∀ (s : State) (d : Die) (msg : RemoteMsg),
    ∀ o : OutMsg, repliedTo s d.toNat msg = some o →
    ∀ x : Slot, (outSlots s o).head? = some x →
    ∀ bytes : List Byte, openReply s o msg = some bytes →
    s.present d.toNat = true →
    domUp s d.toNat 46 = true →
    msg.kind = 4 →
    x.abandoned = false →
    x.stage = .atPeer →
    Runs (.getdataReceive d msg) s fun t =>
        t.fabric.slots.any (fun y => y.id == x.id && y.data == fit x.len bytes && y.arrive == s.now && y.stage == windowStage s x) = true ∧
        outMsgOf t x.id = none) ∧
  (∀ (s : State) (d : Die) (msg : RemoteMsg),
    ∀ o : OutMsg, repliedTo s d.toNat msg = some o →
    s.present d.toNat = true →
    domUp s d.toNat 46 = true →
    msg.kind = 5 →
    msg.code.toNat ≠ Code.busy →
    (outSlots s o).all (fun x => !x.abandoned) = true →
    (openReply s o msg).isSome = true →
    s.fabric.slots.all (fun x => x.id ≤ s.fabric.nextSlot) = true →
    Runs (.remoteStatusReceive d msg) s fun t =>
        (outSlots s o).all (fun x => (outMsgOf t x.id).isNone && t.fabric.slots.all (fun y => y.id != x.id)) = true) ∧
  (∀ (s : State) (d : Die) (msg : RemoteMsg),
    ∀ o : OutMsg, repliedTo s d.toNat msg = some o →
    s.present d.toNat = true →
    domUp s d.toNat 46 = true →
    msg.kind = 5 →
    (outSlots s o).all (fun x => !x.abandoned) = true →
    openReply s o msg = none →
    Runs (.remoteStatusReceive d msg) s fun t =>
        t = lateReply s o) ∧
  (∀ (s : State) (id : Nat),
    ∀ x : Slot, s.fabric.slots.find? (fun x => x.id == id && (x.stage == .handedOff || x.stage == .atPeer) && !x.abandoned) = some x →
    ∀ o : OutMsg, outMsgOf s id = some o →
    ∀ c, c = max s.now (x.due + 256 * max 1 (rf s o.die .wdogCtl 0 16)) →
    s.remote.overdue.contains id = false →
    within s c = true →
    Runs (.remoteOverdue id) s fun t =>
        t.now = c ∧
        t.remote.overdue.contains id = true ∧
        SMap.get t.sup.nextEvent o.die 0 = SMap.get (advanceTo s c).sup.nextEvent o.die 0 + 1 ∧
        t.fabric.slots = (advanceTo s c).fabric.slots)

/-- Inbound windows open and close, messages are staged, checked and landed: R273-R286. -/
def Obligations.InboundMessagesLandOrAreRefused : Prop :=
  (∀ (s : State) (d : Die) (msg : RemoteMsg),
    s.present d.toNat = true →
    domUp s d.toNat 46 = true →
    msg.kind ≠ 4 →
    msg.kind ≠ 5 →
    nodeOf s d.toNat ≠ 0x7FFF →
    ((s.remote.staged.filter (fun m => m.die == d.toNat)).map (fun m => m.msg.payload.length)).foldl (· + ·) 0 + msg.payload.length ≤ 2 ^ 22 →
    Runs (.remoteMessageArrive d msg) s fun t =>
        t.remote.staged = s.remote.staged ++ [⟨s.remote.nextMsg + 1, d.toNat, msg, false, [], none, 0, 0, none, none, [], none⟩] ∧
        t.remote.nextMsg = s.remote.nextMsg + 1) ∧
  (∀ (s : State) (d : Die) (msg : RemoteMsg),
    s.present d.toNat = true →
    domUp s d.toNat 46 = true →
    msg.kind ≠ 4 →
    msg.kind ≠ 5 →
    msg.sealedFlag = false →
    nodeOf s d.toNat ≠ 0x7FFF →
    2 ^ 22 < ((s.remote.staged.filter (fun m => m.die == d.toNat)).map (fun m => m.msg.payload.length)).foldl (· + ·) 0 + msg.payload.length →
    Runs (.remoteMessageArrive d msg) s fun t =>
        t.remote.staged = s.remote.staged ∧
        t.out.head? = some (.message d { replyTo msg 5 0 Code.busy 0 with sealedFlag := false })) ∧
  (∀ (s : State) (msg : Nat),
    ∀ m : Staged, stagedOf s msg = some m →
    ∀ ten : Nat, rinTen s m.die m.win = some ten →
    m.checked = false →
    (s.remote.staged.takeWhile (fun k => k.id != msg)).any (fun k => k.die == m.die && k.win == m.win && !k.checked) = false →
    domUp s m.die 46 = true →
    m.win < 1024 →
    nodeOf s m.die ≠ 0x7FFF →
    (msgVerdict s m.die ten m.msg).code = 0 →
    Runs (.remoteMessageStaged msg) s fun t =>
        (stagedOf t msg).map (·.checked) = some true) ∧
  (∀ (s : State) (msg : Nat),
    ∀ m : Staged, stagedOf s msg = some m →
    ∀ ten : Nat, rinTen s m.die m.win = some ten →
    ∀ v, v = msgVerdict s m.die ten m.msg →
    m.checked = false →
    (s.remote.staged.takeWhile (fun k => k.id != msg)).any (fun k => k.die == m.die && k.win == m.win && !k.checked) = false →
    domUp s m.die 46 = true →
    m.win < 1024 →
    nodeOf s m.die ≠ 0x7FFF →
    v.code ≠ 0 →
    m.msg.sealedFlag = false →
    Runs (.remoteMessageStaged msg) s fun t =>
        stagedOf t msg = none ∧
        (v.code = Code.stale → v.detail = 2 → t.out.head? = some (.message (BitVec.ofNat 3 m.die) { replyTo m.msg 5 0 Code.closed 2 with sealedFlag := false }) ∧ rinState t m.die m.win = 2) ∧
        (v.code ≠ Code.stale ∨ v.detail ≠ 2 → t.out.head? = some (.message (BitVec.ofNat 3 m.die) { replyTo m.msg 5 0 v.code v.detail with sealedFlag := false }))) ∧
  (∀ (s : State) (d : Die) (win : Win) (n : BitVec 10) (val : Word),
    s.present d.toNat = true →
    domUp s d.toNat 46 = true →
    bit val 21 = true →
    rinTen s d.toNat n.toNat = some win.toNat →
    rinState s d.toNat n.toNat = 0 →
    openStatus s d.toNat n.toNat win.toNat val = Code.done →
    Runs (.inboundWindowOpen d win n val) s fun t =>
        rinState t d.toNat n.toNat = 1 ∧
        rf t d.toNat (.rinCfg n.toNat) 12 9 = field val 12 9 ∧
        regGet t d.toNat (.rinHead n.toNat) = 0 ∧
        regGet t d.toNat (.rinTail n.toNat) = 0 ∧
        SMap.find t.remote.ringCount (rinKey d.toNat n.toNat) = none) ∧
  (∀ (s : State) (d : Die) (win : Win) (n : BitVec 10) (val : Word),
    s.present d.toNat = true →
    domUp s d.toNat 46 = true →
    bit val 21 = true →
    rinTen s d.toNat n.toNat ≠ some win.toNat →
    Runs (.inboundWindowOpen d win n val) s fun t =>
        rinState t d.toNat n.toNat = rinState s d.toNat n.toNat ∧
        rf t d.toNat (.rinCfg n.toNat) 24 8 = Code.denied) ∧
  (∀ (s : State) (d : Die) (win : Win) (n : BitVec 10) (val : Word),
    s.present d.toNat = true →
    domUp s d.toNat 46 = true →
    bit val 21 = false →
    rinTen s d.toNat n.toNat = some win.toNat →
    rinState s d.toNat n.toNat = 1 →
    field val 12 9 = rf s d.toNat (.rinCfg n.toNat) 12 9 →
    Runs (.inboundWindowClose d win n val) s fun t =>
        rinState t d.toNat n.toNat = 2 ∧
        rf t d.toNat (.rinCfg n.toNat) 21 1 = 0) ∧
  (∀ (s : State) (d : Die) (n : BitVec 10),
    s.present d.toNat = true →
    rinState s d.toNat n.toNat = 2 →
    domUp s d.toNat 46 = true →
    s.remote.staged.any (fun m => m.die == d.toNat && m.win == n.toNat && (messageSlots s m.id).any (fun x => x.kind == .landing m.id)) = false →
    Runs (.inboundCloseComplete d n) s fun t =>
        rinState t d.toNat n.toNat = 0 ∧
        rf t d.toNat (.rinSrc n.toNat) 16 16 = (rf s d.toNat (.rinSrc n.toNat) 16 16 + 1) % 65536 ∧
        rf t d.toNat (.rinCfg n.toNat) 24 8 = Code.done) ∧
  (∀ (s : State) (d : Die) (writer : RinWriter) (n : BitVec 10) (val : Word),
    ∀ ten, ten = ((match writer with | .window w => w.toNat | .core c => coreTag s d.toNat c.toNat)) →
    ∀ z, z = rinSize s d.toNat n.toNat →
    ∀ head, head = rf s d.toNat (.rinHead n.toNat) 0 22 * 256 →
    s.present d.toNat = true →
    domUp s d.toNat 46 = true →
    rinTen s d.toNat n.toNat = some ten →
    (field val 0 22 * 256 + z - head % z) % z ≤ (rf s d.toNat (.rinTail n.toNat) 0 22 * 256 + z - head % z) % z →
    Runs (.rinHeadWrite d writer n val) s fun t =>
        rf t d.toNat (.rinHead n.toNat) 0 22 = field val 0 22 ∧
        rf t d.toNat (.rinCfg n.toNat) 24 8 = Code.done) ∧
  (∀ (s : State) (d : Die) (writer : RinWriter) (n : BitVec 10) (val : Word),
    ∀ ten, ten = ((match writer with | .window w => w.toNat | .core c => coreTag s d.toNat c.toNat)) →
    ∀ z, z = rinSize s d.toNat n.toNat →
    ∀ head, head = rf s d.toNat (.rinHead n.toNat) 0 22 * 256 →
    s.present d.toNat = true →
    domUp s d.toNat 46 = true →
    rinTen s d.toNat n.toNat ≠ some ten →
    (field val 0 22 * 256 + z - head % z) % z ≤ (rf s d.toNat (.rinTail n.toNat) 0 22 * 256 + z - head % z) % z →
    Runs (.rinHeadWrite d writer n val) s fun t =>
        regGet t d.toNat (.rinHead n.toNat) = regGet s d.toNat (.rinHead n.toNat) ∧
        rf t d.toNat (.rinCfg n.toNat) 24 8 = Code.denied)

/-- Digest jobs and ballots take posts and decide: R296-R306. -/
def Obligations.BallotsAndDigestJobsDecide : Prop :=
  (∀ (s : State) (d : Die) (win : Win) (n : BitVec 8) (val : Word),
    s.present d.toNat = true →
    djobTen s d.toNat n.toNat = some win.toNat →
    bit val 23 = true →
    djobNoKey s d.toNat n.toNat = false →
    field val 0 16 ≠ 0xFFFF →
    djobTaken s d.toNat win.toNat n.toNat (field val 0 16) = false →
    Runs (.djobCfgWrite d win n val) s fun t =>
        rf t d.toNat (.djobCfg n.toNat) 23 1 = 1 ∧
        rf t d.toNat (.djobCfg n.toNat) 0 16 = field val 0 16 ∧
        rf t d.toNat (.djobCfg n.toNat) 24 8 = Code.done) ∧
  (∀ (s : State) (d : Die) (win : Win) (n : BitVec 8) (val : Word),
    s.present d.toNat = true →
    djobTen s d.toNat n.toNat = some win.toNat →
    bit val 23 = false →
    Runs (.djobCfgWrite d win n val) s fun t =>
        rf t d.toNat (.djobCfg n.toNat) 23 1 = 0 ∧
        djobNoKey t d.toNat n.toNat = true) ∧
  (∀ (s : State) (d : Die) (win : Win) (n : BitVec 8) (val : Word),
    s.present d.toNat = true →
    djobTen s d.toNat n.toNat ≠ some win.toNat →
    (bit val 23 && (djobNoKey s d.toNat n.toNat || field val 0 16 == 0xFFFF || (djobTen s d.toNat n.toNat).any (fun e => djobTaken s d.toNat e n.toNat (field val 0 16)))) = false →
    Runs (.djobCfgWrite d win n val) s fun t =>
        rf t d.toNat (.djobCfg n.toNat) 24 8 = Code.denied ∧
        rf t d.toNat (.djobCfg n.toNat) 0 24 = rf s d.toNat (.djobCfg n.toNat) 0 24) ∧
  (∀ (s : State) (d : Die) (win : Win) (b : BitVec 8) (val : Word),
    ∀ old, old = copyView s d.toNat (.ballotCfg b.toNat) →
    s.present d.toNat = true →
    win = 0 →
    bit val 23 = false ∨ (field val 16 3 ≠ 0 ∧ s.present (ballotHome val) = true) →
    bit old 23 = false ∨ field val 0 23 = field old 0 23 →
    Runs (.ballotCfgWrite d win b val) s fun t =>
        t.queues.copies = s.queues.copies ++ [⟨d.toNat, (Reg.ballotCfg b.toNat).code, word (field val 0 24), 2, s.frame⟩]) ∧
  (∀ (s : State) (d : Die) (win : Win) (b : BitVec 8) (val : Word),
    s.present d.toNat = true →
    win ≠ 0 →
    bit val 23 = false →
    Runs (.ballotCfgWrite d win b val) s fun t =>
        t.queues = s.queues ∧
        rf t d.toNat (.ballotCfg b.toNat) 24 8 = Code.denied) ∧
  (∀ (s : State) (post : Nat),
    ∀ p : BallotPost, s.replicas.posts.find? (fun p => p.id == post && !p.done) = some p →
    ∀ here, here = ctxDie p.ctx →
    ∀ home, home = ballotHome (ballotCfg s here p.ballot.toNat) →
    ∀ code, code = (postStatus s (if ringShut s here home || isUnsafe s here (.ballotCfg p.ballot.toNat) then here else home) home p) →
    Runs (.ballotPostArrive post) s fun t =>
        t.replicas.posts.any (fun q => q.id == post && q.done && stCode q.status == code) = true ∧
        (code = Code.done → (ballotOf t home p.ballot.toNat).posts = (ballotOf s home p.ballot.toNat).posts ++ [(p.replica.toNat, p.d, p.ctx)]) ∧
        (code ≠ Code.done → t.replicas.ballots = s.replicas.ballots)) ∧
  (∀ (s : State) (post : Nat),
    ∀ p : BallotPost, s.replicas.posts.find? (fun p => p.id == post && p.done) = some p →
    ∀ x, x = ctxOf s p.ctx →
    ∀ clr : Bool, (match currentInstr x with | some (.digest _ v _) => some v | _ => none) = some clr →
    x.opFlight = true →
    x.stop = .no →
    stCode p.status = Code.done →
    Runs (.ballotPostStatusReceive post) s fun t =>
        (ctxOf t p.ctx).opFlight = false ∧
        (ctxOf t p.ctx).ready = true ∧
        (ctxOf t p.ctx).d = (if clr then 0 else x.d) ∧
        (ctxOf t p.ctx).regs = { x.regs with ip := afterIp x, q := true } ∧
        t.replicas.posts.all (fun q => q.id != post) = true) ∧
  (∀ (s : State) (d : Die) (b : BitVec 8),
    ∀ v, v = ballotOf s d.toNat b.toNat →
    s.present d.toNat = true →
    ballotHeld s d.toNat b.toNat = true →
    v.decided = false →
    v.posts.length = ballotReps (ballotCfg s d.toNat b.toNat) →
    Runs (.ballotDecide d b) s fun t =>
        (ballotOf t d.toNat b.toNat).round = v.round + 1 ∧
        (ballotOf t d.toNat b.toNat).verdict = BitVec.ofNat 2 (verdictOf v.posts).1 ∧
        (ballotOf t d.toNat b.toNat).oddCtx = ((verdictOf v.posts).2.getD (0, 0, 0)).2.2 ∧
        (bit (ballotCfg s d.toNat b.toNat) 22 = false → (ballotOf t d.toNat b.toNat).decided = true ∧ (ballotOf t d.toNat b.toNat).posts = v.posts)) ∧
  (∀ (s : State) (d : Die) (b : BitVec 8),
    ∀ v, v = ballotOf s d.toNat b.toNat →
    ∀ w, w = ballotCfg s d.toNat b.toNat →
    ∀ i, i = field w 0 12 →
    ∀ c, c = max s.now v.postAt →
    ∀ m, m = advanceTo s c →
    s.present d.toNat = true →
    ballotHeld s d.toNat b.toNat = true →
    v.decided = true →
    v.verdictWaiting = true →
    within s c = true →
    field (rsReg m d.toNat i) 16 4 = ballotTen w →
    bit (rsReg m d.toNat i) 23 = true →
    Runs (.ballotVerdictRetry d b) s fun t =>
        t.now = c ∧
        ((rsOf s d.toNat i).ready = true → (ballotOf t d.toNat b.toNat).verdictWaiting = true ∧ (ballotOf t d.toNat b.toNat).decided = true ∧ (ballotOf t d.toNat b.toNat).postAt = c + 256) ∧
        ((rsOf s d.toNat i).ready = false → portBShut m (lnBank (rsLine m d.toNat i)) = false → portBFree m (lnBank (rsLine m d.toNat i)) c = true → (ballotOf t d.toNat b.toNat).posts = [] ∧ (ballotOf t d.toNat b.toNat).decided = false ∧ rsOf t d.toNat i = ⟨(rsOf s d.toNat i).seq + 1, true, false, 16⟩)) ∧
  (∀ (s : State) (d : Die) (win : Win) (b : BitVec 8),
    ∀ v, v = ballotOf s d.toNat b.toNat →
    s.present d.toNat = true →
    ballotHeld s d.toNat b.toNat = true →
    win = 0 ∨ win.toNat = ballotTen (ballotCfg s d.toNat b.toNat) →
    v.decided = true →
    Runs (.ballotReopen d win b) s fun t =>
        ballotOf t d.toNat b.toNat = reopen v) ∧
  (∀ (s : State) (d : Die) (b : BitVec 8),
    ∀ v, v = ballotOf s d.toNat b.toNat →
    ∀ c, c = max s.now (v.firstPost + 256 * max 1 (rf s d.toNat .wdogCtl 0 16)) →
    s.present d.toNat = true →
    ballotHeld s d.toNat b.toNat = true →
    v.posts ≠ [] →
    v.decided = false →
    v.stallLogged = false →
    within s c = true →
    Runs (.ballotStall d b) s fun t =>
        t.now = c ∧
        ballotOf t d.toNat b.toNat = { v with stallLogged := true } ∧
        SMap.get t.sup.nextEvent d.toNat 0 = SMap.get (advanceTo s c).sup.nextEvent d.toNat 0 + 1)

/-- Cross-check, scan, hardened registers and barometer record what they find: R310-R321. -/
def Obligations.SelfTestRecordsWhatItFinds : Prop :=
  (∀ (s : State) (d : Die) (kind : BitVec 2) (pair : BitVec 5) (outcome : XchkOutcome),
    s.present d.toNat = true →
    pair.toNat < xchkPairs kind.toNat →
    rf s d.toNat .xchkCtl kind.toNat 1 = 1 →
    xchkSeed s d.toNat ≠ 0 →
    (match xchkDomain kind.toNat pair.toNat with | some m => domUp s d.toNat m | none => true) = true →
    pairIdle s d.toNat kind.toNat pair.toNat = true →
    Runs (.crossCheck d kind pair outcome) s fun t =>
        SMap.get t.replicas.lfsr d.toNat 0 = lfsrStep (SMap.get s.replicas.lfsr d.toNat (BitVec.ofNat 64 (xchkSeed s d.toNat))) ∧
        (outcome = .agree → regGet t d.toNat .xchkStat = regGet s d.toNat .xchkStat) ∧
        (outcome = .transient → bit (regGet t d.toNat .xchkStat) 30 = true ∧ rf t d.toNat .xchkStat 8 2 = kind.toNat ∧ rf t d.toNat .xchkStat 0 5 = pair.toNat) ∧
        (outcome = .persistent → bit (regGet t d.toNat .xchkStat) 31 = true ∧ rf t d.toNat .xchkStat 8 2 = kind.toNat ∧ rf t d.toNat .xchkStat 0 5 = pair.toNat)) ∧
  (∀ (s : State) (src : CmdSrc),
    ∀ n, n = cmdArgF s src 0 0 8 →
    ∀ found, found = patternCheck s src.die →
    given s src 0x51 = true →
    n ≤ 47 →
    src.win = some 0 →
    mayScan s src.die n = true →
    SMap.find s.replicas.scans src.die = none →
    Runs (.scan src) s fun t =>
        cmdOngoing t src = true ∧
        SMap.find t.replicas.scans src.die = some ⟨n, src, found⟩ ∧
        rf t src.die .scanStat 28 1 = 1 ∧
        rf t src.die .scanStat 22 6 = n ∧
        (found = 0 → domUp t src.die n = false) ∧
        (found ≠ 0 → t.power = s.power ∧ t.banks.mem = s.banks.mem)) ∧
  (∀ (s : State) (src : CmdSrc),
    given s src 0x51 = true →
    cmdArgF s src 0 0 8 ≤ 47 →
    src.win ≠ some 0 →
    Runs (.scan src) s fun t =>
        answered t src Code.denied = true ∧
        t.replicas = s.replicas) ∧
  (∀ (s : State) (d : Die) (outcome : ScanOutcome),
    ∀ x : Scan, SMap.find s.replicas.scans d.toNat = some x →
    s.present d.toNat = true →
    (match outcome with | .pass => x.found == 0 | .fail _ => x.found == 0 | .patternBad => x.found == 3 | .noFlash => x.found == 4) = true →
    cmdState s x.src = 2 →
    Runs (.scanComplete d outcome) s fun t =>
        SMap.find t.replicas.scans d.toNat = none ∧
        answered t x.src Code.done = true ∧
        rf t d.toNat .scanStat 29 3 = (match outcome with | .pass => 1 | .fail _ => 2 | .patternBad => 3 | .noFlash => 4) ∧
        rf t d.toNat .scanStat 28 1 = 0) ∧
  (∀ (s : State) (d : Die) (off : Word) (copy : BitVec 2),
    ∀ r : Reg, hardenedAt s d.toNat off = some r →
    s.present d.toNat = true →
    isUnsafe s d.toNat r = false →
    copy ≠ 3 →
    SMap.find s.replicas.strays (key d.toNat r) = none →
    Runs (.hardenFix d off copy) s fun t =>
        SMap.find t.replicas.strays (key d.toNat r) = some (copy, 2 * (s.now / 2) + 2) ∧
        regGet t d.toNat r = regGet s d.toNat r) ∧
  (∀ (s : State) (d : Die) (off : Word),
    ∀ r : Reg, hardenedAt s d.toNat off = some r →
    s.present d.toNat = true →
    isUnsafe s d.toNat r = false →
    Runs (.hardenLost d off) s fun t =>
        isUnsafe t d.toNat r = true ∧
        regRead t d.toNat 0 r = 0 ∧
        SMap.find t.replicas.strays (key d.toNat r) = none) ∧
  (∀ (s : State) (d : Die) (margins : List Nat),
    s.present d.toNat = true →
    SMap.get s.replicas.sampled d.toNat 0 < dayOf s →
    Runs (.barometerSample d margins) s fun t =>
        SMap.get t.replicas.sampled d.toNat 0 = dayOf s ∧
        t.replicas.leftP0.contains d.toNat = false ∧
        (List.range 40).all (fun n => (baroOf t d.toNat n).errors == ((SMap.get s.replicas.baroCorr (domKey d.toNat n) 0, dayOf s) :: (baroOf s d.toNat n).errors).take 32) = true)

/-- Tenancies open and close: R328, R329. -/
def Obligations.TenanciesOpenAndClose : Prop :=
  (∀ (s : State) (src : CmdSrc),
    ∀ n, n = cmdArgF s src 0 0 4 →
    given s src 0x30 = true →
    n ≠ 0 →
    src.win = some 0 →
    lifeCycle s src.die = 2 →
    tenState s src.die n = 0 →
    Runs (.tenOpen src) s fun t =>
        answered t src Code.done = true ∧
        tenState t src.die n = 1 ∧
        t.security = s.security) ∧
  (∀ (s : State) (src : CmdSrc),
    ∀ n, n = cmdArgF s src 0 0 4 →
    given s src 0x30 = true →
    n ≠ 0 →
    src.win = some 0 →
    lifeCycle s src.die ≠ 2 ∨ tenState s src.die n ≠ 0 →
    Runs (.tenOpen src) s fun t =>
        answered t src Code.state = true ∧
        tenState t src.die n = tenState s src.die n) ∧
  (∀ (s : State) (src : CmdSrc),
    ∀ n, n = cmdArgF s src 0 0 4 →
    ∀ k, k = src.die * 16 + n →
    given s src 0x31 = true →
    n ≠ 0 →
    src.win = some 0 →
    lifeCycle s src.die = 2 →
    tenState s src.die n = 1 →
    Runs (.tenClose src) s fun t =>
        ((tenState t src.die n = 2 ∧ (SMap.find t.security.closing k).isSome = true) ∨ (tenState t src.die n = 0 ∧ SMap.find t.security.closing k = none)) ∧
        (closeStep t src.die n ≠ 0 → SMap.find t.security.transport (transportIdx src.die n) = none)) ∧
  (∀ (s : State) (src : CmdSrc),
    ∀ n, n = cmdArgF s src 0 0 4 →
    ongoing s src 0x31 = true →
    closeStep s src.die n = 2 →
    closingBank s src.die n = false →
    Runs (.tenCloseDone src) s fun t =>
        answered t src Code.done = true ∧
        tenState t src.die n = 0 ∧
        SMap.find t.security.closing (src.die * 16 + n) = none)

/-- Keys are loaded and erased, reports and chains are read: R330-R336; the cryptographic functions are computed (log 10). -/
def Obligations.KeysAreLoadedErasedAndAttested : Prop :=
  (∀ (s : State) (src : CmdSrc),
    ∀ d, d = src.die →
    ∀ n, n = cmdTen s src →
    ∀ k, k = cmdArgF s src 0 0 5 →
    ∀ loads, loads = rf s d (.tenStat n) 0 16 →
    given s src 0x32 = true →
    src.win.isSome = true →
    ∀ kek : BitVec 256, SMap.find s.security.transport (transportIdx d n) = some kek →
    sealedOut s d n k = [] →
    sealedIn s d n k (· != 0) = [] →
    Runs (.keyLoad src) s fun t =>
        (kwUnwrap kek (argBytes s src 1 12) = none → regGet t d src.sts = stWord Code.sealFail 1) ∧
        ((kwUnwrap kek (argBytes s src 1 12)).all (fun p => if keyAccepted p k (loads + 1) then answered t src Code.done && SMap.find t.security.keySlots (keyIdx d n k) == some (BitVec.ofNat 256 (leNat (p.take 32))) && rf t d (.keyStat n) k 1 == 1 && rf t d (.tenStat n) 0 16 == (loads + 1) % 65536 && SMap.get t.remote.counters (keyIdx d n k) 0 == 0 else regGet t d src.sts == stWord Code.sealFail 2 && t.security == s.security)) = true) ∧
  (∀ (s : State) (src : CmdSrc),
    given s src 0x32 = true →
    src.win.isSome = true →
    SMap.find s.security.transport (transportIdx src.die (cmdTen s src)) = none →
    Runs (.keyLoad src) s fun t =>
        answered t src Code.state = true ∧
        t.security = s.security) ∧
  (∀ (s : State) (src : CmdSrc),
    ∀ d, d = src.die →
    ∀ n, n = cmdTen s src →
    given s src 0x33 = true →
    src.win.isSome = true →
    Runs (.keyErase src) s fun t =>
        answered t src Code.done = true ∧
        (if cmdArgF s src 0 5 1 == 1 then List.range 32 else [cmdArgF s src 0 0 5]).all (fun k => SMap.find t.security.keySlots (keyIdx d n k) == none && rf t d (.keyStat n) k 1 == 0 && (sealedOut s d n k).all (fun w => rf t d (.rwinCfg w) 23 1 == 0)) = true ∧
        t.security.transport = s.security.transport) ∧
  (∀ (s : State) (src : CmdSrc),
    ∀ d, d = src.die →
    ∀ n, n = cmdTen s src →
    given s src 0x34 = true →
    src.win.isSome = true →
    lifeCycle s d ≠ 3 →
    ∀ page, page = cmdInput s src 144 →
    ∀ zero, zero = ((page.drop 48).all (· == 0)) →
    Runs (.attest src) s fun t =>
        (zero = true → answered t src Code.done = true ∧ pageRead t d n 1 0 456 = reportBody s d n (page.take 48) (List.replicate 96 0) ∧ t.security = s.security) ∧
        (zero = false → isPoint (page.drop 48) = false → answered t src Code.badArg = true ∧ t.security = s.security) ∧
        (zero = false → isPoint (page.drop 48) = true → answered t src Code.done = true ∧ (SMap.find t.security.transport (transportIdx d n)).isSome = true ∧ rf t d (.tenStat n) 29 1 = 1 ∧ rf t d (.tenStat n) 0 16 = 0)) ∧
  (∀ (s : State) (src : CmdSrc),
    ∀ d, d = src.die →
    ∀ off, off = cmdArgF s src 0 0 16 →
    given s src 0x35 = true →
    src.win.isSome = true →
    off < (chainOf s d).length →
    s.security.certBad.contains d = false →
    Runs (.certRead src) s fun t =>
        regGet t d src.sts = stWord Code.done (chainOf s d).length ∧
        pageRead t d (cmdTen s src) 1 0 256 = fit 256 (((chainOf s d).drop off).take 256))

/-- Life-cycle transitions start, erase the keys and end: R337-R340. -/
def Obligations.LifeCycleTransitionsRun : Prop :=
  (∀ (s : State) (src : CmdSrc),
    given s src 0x38 = true →
    src.win = some 0 →
    (List.range 4).all (fun i => rf s src.die .secPolicy (2 * i) 2 != 3) = true →
    lifeCycle s src.die = 0 →
    liveCtx s src.die = false →
    fwScheduled s = false →
    Runs (.lcProvision src) s fun t =>
        SMap.find t.security.lcBusy src.die = some (1, src) ∧
        t.security.keySlots.all (fun e => e.1 / 512 != src.die) = true ∧
        t.security.transport.all (fun e => e.1 / 16 != src.die) = true) ∧
  (∀ (s : State) (src : CmdSrc),
    given s src 0x39 = true →
    src.win = some 0 →
    lifeCycle s src.die = 1 →
    liveCtx s src.die = false →
    fwScheduled s = false →
    Runs (.lcDeploy src) s fun t =>
        SMap.find t.security.lcBusy src.die = some (2, src) ∧
        t.security.keySlots.all (fun e => e.1 / 512 != src.die) = true ∧
        t.security.transport.all (fun e => e.1 / 16 != src.die) = true) ∧
  (∀ (s : State) (src : CmdSrc),
    given s src 0x3A = true →
    src.win = some 0 →
    lifeCycle s src.die = 2 →
    tenanciesFree s src.die = true →
    rf s src.die .lcStat 4 4 < 8 →
    liveCtx s src.die = false →
    fwScheduled s = false →
    Runs (.lcMaintain src) s fun t =>
        SMap.find t.security.lcBusy src.die = some (1, src) ∧
        t.security.keySlots.all (fun e => e.1 / 512 != src.die) = true) ∧
  (∀ (s : State) (src : CmdSrc),
    given s src 0x3B = true →
    src.win = some 0 →
    lifeCycle s src.die = 1 ∨ lifeCycle s src.die = 2 →
    tenanciesFree s src.die = true →
    liveCtx s src.die = false →
    fwScheduled s = false →
    Runs (.lcReturn src) s fun t =>
        SMap.find t.security.lcBusy src.die = some (3, src) ∧
        t.security.keySlots.all (fun e => e.1 / 512 != src.die) = true) ∧
  (∀ (s : State) (src : CmdSrc),
    given s src 0x39 = true →
    src.win = some 0 →
    lifeCycle s src.die ≠ 1 ∨ liveCtx s src.die = true ∨ fwScheduled s = true →
    Runs (.lcDeploy src) s fun t =>
        answered t src Code.state = true ∧
        t.security = s.security) ∧
  (∀ (s : State) (d : Die),
    ∀ p : BitVec 2 × CmdSrc, SMap.find s.security.lcBusy d.toNat = some p →
    s.present d.toNat = true →
    clearing s d.toNat = [] →
    cmdState s p.2 = 2 →
    Runs (.lcFuseProgramDone d) s fun t =>
        answered t p.2 Code.done = true ∧
        lifeCycle t d.toNat = p.1.toNat ∧
        rf t d.toNat .lcStat 4 4 = (if lifeCycle s d.toNat = 2 ∧ p.1 = 1 then (rf s d.toNat .lcStat 4 4 + 1) % 16 else rf s d.toNat .lcStat 4 4) ∧
        SMap.find t.security.lcBusy d.toNat = none)

/-- Tamper sources and ALARM raise the alarm and apply its action: R341-R345. -/
def Obligations.TamperSourcesRaiseTheAlarm : Prop :=
  (∀ (s : State) (d : Die) (source : BitVec 2),
    ∀ k, k = source.toNat →
    ∀ action, action = policyAction s d.toNat k →
    s.present d.toNat = true →
    rf s d.toNat .secAlarm (16 + k) 1 = 0 →
    Runs (.tamperRaise d source) s fun t =>
        rf t d.toNat .secAlarm (16 + k) 1 = 1 ∧
        rf t d.toNat .secAlarm k 1 = 1 ∧
        rf t d.toNat .secAlarm 8 8 = min 255 (rf s d.toNat .secAlarm 8 8 + 1) ∧
        rf t d.toNat .secAlarm 26 2 = action ∧
        rf t d.toNat (.hostIrq 0) 4 1 = 1 ∧
        ((action = 1 ∨ action = 2) → (bootOf s d.toNat).asserted = false → 4 < (bootOf s d.toNat).phase → t.security.keySlots.all (fun e => e.1 / 512 != d.toNat) = true) ∧
        (action = 0 → t.security = s.security) ∧
        ((action = 1 ∨ action = 2) → rf s d.toNat .secPolicy 8 1 = 1 → dieOpen s d.toNat = true → t.security.alarms = s.security.alarms ++ ((openDies s).filter (· != d.toNat)).map (fun e => ⟨e, d.toNat, action, k⟩))) ∧
  (∀ (s : State) (d : Die) (source : BitVec 2),
    s.present d.toNat = true →
    rf s d.toNat .secAlarm (16 + source.toNat) 1 = 1 →
    Runs (.tamperRaise d source) s fun t =>
        t = s) ∧
  (∀ (s : State) (d : Die) (source : BitVec 2),
    s.present d.toNat = true →
    Runs (.tamperEnd d source) s fun t =>
        rf t d.toNat .secAlarm (16 + source.toNat) 1 = 0 ∧
        rf t d.toNat .secAlarm 0 16 = rf s d.toNat .secAlarm 0 16 ∧
        t.security = s.security) ∧
  (∀ (s : State) (src : CmdSrc),
    ∀ d, d = src.die →
    ∀ action, action = cmdArgF s src 0 0 2 →
    given s src 0x40 = true →
    action ≠ 3 →
    src.win = some 0 →
    Runs (.alarm src) s fun t =>
        rf t d .secAlarm 4 1 = 1 ∧
        rf t d .secAlarm 8 8 = min 255 (rf s d .secAlarm 8 8 + 1) ∧
        rf t d (.hostIrq 0) 4 1 = 1 ∧
        (action = 0 → answered t src Code.done = true) ∧
        (action = 1 → (bootOf s d).asserted = false → 4 < (bootOf s d).phase → t.security.keySlots.all (fun e => e.1 / 512 != d) = true)) ∧
  (∀ (s : State) (d : Die) (origin : Die) (action : BitVec 2),
    ∀ w : AlarmWord, s.security.alarms.find? (fun w => w.receiver == d.toNat && w.origin == origin.toNat && w.action == action.toNat) = some w →
    s.present d.toNat = true →
    dieOpen s d.toNat = true →
    Runs (.alarmRingReceive d origin action) s fun t =>
        t.security.alarms = s.security.alarms.erase w ∧
        rf t d.toNat .secAlarm 8 8 = min 255 (rf s d.toNat .secAlarm 8 8 + 1) ∧
        rf t d.toNat .secAlarm 26 2 = action.toNat ∧
        rf t d.toNat .secAlarm 29 3 = origin.toNat ∧
        rf t d.toNat .secAlarm 28 1 = 1)

/-- Power domains go down and up, and brown out: R353-R358, R366, R367; when a domain of 40-47 browns out is the model's choice (log 13). -/
def Obligations.PowerDomainsGoUpAndDown : Prop :=
  (∀ (s : State) (src : CmdSrc),
    ∀ d, d = src.die →
    ∀ n, n = cmdDomain s src →
    given s src 0x48 = true →
    cmdArgF s src 0 8 1 = 0 →
    n ≤ 47 →
    src.win = some 0 →
    domUp s d n = true →
    mayPowerDown s d n = true →
    Runs (.pwrDown src) s fun t =>
        (dom t d n).st = .goingDown ∧
        rf t d (.pwrDom n) 0 1 = 0) ∧
  (∀ (s : State) (src : CmdSrc),
    ∀ d, d = src.die →
    ∀ n, n = cmdDomain s src →
    given s src 0x48 = true →
    cmdArgF s src 0 8 1 = 0 →
    n ≤ 47 →
    src.win = some 0 →
    domUp s d n = false ∨ mayPowerDown s d n = false →
    Runs (.pwrDown src) s fun t =>
        answered t src Code.state = true ∧
        rf t d (.pwrDom n) 24 8 = Code.state ∧
        t.power = s.power) ∧
  (∀ (s : State) (d : Die) (dom_ : BitVec 6),
    ∀ n, n = dom_.toNat →
    s.present d.toNat = true →
    (dom s d.toNat n).st = .goingDown →
    Runs (.pwrDownComplete d dom_) s fun t =>
        (dom t d.toNat n).st = .down ∧
        (n < 48 → rf t d.toNat (.pwrDom n) 24 8 = Code.done) ∧
        t.sup.cmds.all (fun c => !(ongoing t c.1 0x48 && c.1.die == d.toNat && cmdDomain t c.1 == n)) = true) ∧
  (∀ (s : State) (src : CmdSrc),
    ∀ d, d = src.die →
    ∀ n, n = cmdDomain s src →
    given s src 0x48 = true →
    cmdArgF s src 0 8 1 = 1 →
    n ≤ 47 →
    src.win = some 0 →
    (dom s d n).st ≠ .down →
    Runs (.pwrDownForce src) s fun t =>
        (dom t d n).st = .goingDown ∧
        rf t d (.pwrDom n) 0 1 = 1) ∧
  (∀ (s : State) (src : CmdSrc),
    ∀ d, d = src.die →
    ∀ n, n = cmdDomain s src →
    given s src 0x49 = true →
    n ≤ 47 →
    src.win = some 0 →
    (dom s d n).st = .down →
    Runs (.pwrUp src) s fun t =>
        dom t d n = { dom s d n with st := .goingUp } ∧
        cmdOngoing t src = true ∧
        t.regs = s.regs) ∧
  (∀ (s : State) (d : Die) (dom_ : BitVec 6),
    ∀ n, n = dom_.toNat →
    s.present d.toNat = true →
    (dom s d.toNat n).st = .goingUp →
    Runs (.pwrUpComplete d dom_) s fun t =>
        (dom t d.toNat n).st = .up ∧
        (n < 48 → rf t d.toNat (.pwrDom n) 24 8 = Code.done) ∧
        t.sup.cmds.all (fun c => !(ongoing t c.1 0x49 && c.1.die == d.toNat && cmdDomain t c.1 == n)) = true) ∧
  (∀ (s : State) (d : Die) (dom_ : BitVec 6),
    ∀ n, n = dom_.toNat →
    s.present d.toNat = true →
    n < 40 →
    (dom s d.toNat n).st = .up →
    (dom s d.toNat n).low = false →
    rf s d.toNat (.pwrDom n) 22 1 = 1 →
    (domainBanks d.toNat n).all (asleep s) = true →
    retBanks s d.toNat n ≤ 40 →
    dieStopped s d.toNat = false →
    within s (tickFrom s.now) = true →
    Runs (.regulatorLowEntry d dom_) s fun t =>
        t.now = tickFrom s.now ∧
        dom t d.toNat n = { dom s d.toNat n with low := true, returning := none, wakes := 0 }) ∧
  (∀ (s : State) (d : Die) (dom_ : BitVec 6),
    ∀ n, n = dom_.toNat →
    s.present d.toNat = true →
    mayBrownOut s d.toNat n = true →
    Runs (.brownout d dom_) s fun t =>
        (dom t d.toNat n).st = .down ∧
        rf t d.toNat (.pwrDom n) 23 1 = 1)

/-- Performance levels change step by step; DOZE and CLK_SWITCH: R368-R373. -/
def Obligations.PerformanceLevelsChangeInSteps : Prop :=
  (∀ (s : State) (src : CmdSrc),
    ∀ level, level = cmdArgF s src 0 0 3 →
    given s src 0x4A = true →
    level ≤ 3 →
    src.win = some 0 →
    s.power.perf = [] →
    (openDies s).all (fun d => (dieSegs s d).all (drained s)) = true →
    Runs (.perfSet src) s fun t =>
        ((level = levelOf s src.die ∨ openDies s = []) → answered t src Code.done = true ∧ t.power = s.power) ∧
        (level ≠ levelOf s src.die → (openDies s).all (fun d => SMap.find t.power.perf d == some ⟨.pending (s.frame + 4), BitVec.ofNat 2 level, some src, false⟩) = true)) ∧
  (∀ (s : State) (d : Die),
    ∀ p : PerfChange, SMap.find s.power.perf d.toNat = some p →
    ∀ f : Nat, (match p.step with | .pending f => some f | _ => none) = some f →
    s.now = 256 * s.frame →
    s.present d.toNat = true →
    f ≤ s.frame →
    p.own = true ∨ dieOpen s d.toNat = true →
    Runs (.perfChangeStart d) s fun t =>
        SMap.find t.power.perf d.toNat = some { p with step := if p.target.toNat < rf s d.toNat .perfStat 0 2 then .ramp true else .relock true } ∧
        rf t d.toNat .perfStat 31 1 = 1 ∧
        rf t d.toNat .perfStat 4 2 = p.target.toNat ∧
        rf t d.toNat .perfStat 0 2 = rf s d.toNat .perfStat 0 2 ∧
        rf t d.toNat .perfStat 29 2 = (if p.target.toNat < rf s d.toNat .perfStat 0 2 then 1 else 2)) ∧
  (∀ (s : State) (d : Die),
    ∀ p : PerfChange, SMap.find s.power.perf d.toNat = some p →
    s.present d.toNat = true →
    p.step = .ramp true →
    Runs (.perfRampDone d) s fun t =>
        SMap.find t.power.perf d.toNat = some { p with step := .relock false } ∧
        rf t d.toNat .perfStat 29 2 = 2) ∧
  (∀ (s : State) (d : Die),
    ∀ p : PerfChange, SMap.find s.power.perf d.toNat = some p →
    s.present d.toNat = true →
    p.step = .ramp false →
    Runs (.perfRampDone d) s fun t =>
        SMap.find t.power.perf d.toNat = none ∧
        rf t d.toNat .perfStat 29 2 = 0 ∧
        rf t d.toNat .perfStat 0 2 = p.target.toNat ∧
        rf t d.toNat .perfStat 31 1 = 0) ∧
  (∀ (s : State) (d : Die),
    ∀ p : PerfChange, SMap.find s.power.perf d.toNat = some p →
    s.present d.toNat = true →
    p.step = .relock true →
    Runs (.perfRelockDone d) s fun t =>
        SMap.find t.power.perf d.toNat = some { p with step := .ramp false } ∧
        rf t d.toNat .perfStat 29 2 = 1) ∧
  (∀ (s : State) (d : Die),
    ∀ p : PerfChange, SMap.find s.power.perf d.toNat = some p →
    s.present d.toNat = true →
    p.step = .relock false →
    Runs (.perfRelockDone d) s fun t =>
        SMap.find t.power.perf d.toNat = none ∧
        rf t d.toNat .perfStat 29 2 = 0 ∧
        rf t d.toNat .perfStat 0 2 = p.target.toNat ∧
        rf t d.toNat .perfStat 31 1 = 0) ∧
  (∀ (s : State) (src : CmdSrc),
    ∀ d, d = src.die →
    given s src 0x4B = true →
    src.win = some 0 →
    (List.range 8).all (fun i => (dom s d (40 + i)).st == .down) = true →
    SMap.find s.power.perf d = none →
    Runs (.doze src) s fun t =>
        answered t src Code.done = true ∧
        rf t d .perfStat 29 2 = 1 ∧
        (bootOf t d).phase = 8 ∧
        (bootOf t d).ready = false ∧
        (bootOf t d).closing = (bootOf s d).opened) ∧
  (∀ (s : State) (src : CmdSrc),
    ∀ d, d = src.die →
    ∀ level, level = cmdArgF s src 0 0 3 →
    given s src 0x4C = true →
    level ≤ 3 →
    src.win = some 0 →
    rf s d .perfStat 29 2 = 1 →
    SMap.find s.power.perf d = none →
    Runs (.clkSwitch src) s fun t =>
        cmdOngoing t src = true ∧
        SMap.find t.power.perf d = some ⟨.ramp true, BitVec.ofNat 2 level, some src, true⟩ ∧
        rf t d .perfStat 29 2 = 1 ∧
        rf t d .perfStat 4 2 = level)

/-- MARCH starts its domains and each operation tests the next row: R374-R380. -/
def Obligations.MarchesTestRowByRow : Prop :=
  (∀ (s : State) (src : CmdSrc),
    ∀ d, d = src.die →
    ∀ doms, doms = marchDomains (cmdArgF s src 0 0 8) →
    ∀ preserving, preserving = (cmdArgF s src 0 8 2 == 1) →
    given s src 0x50 = true →
    passes (marchChecks s src) = true →
    doms.all (fun n => (domainBanks d n).any (fun b => !retired s b)) = true →
    Runs (.march src) s fun t =>
        cmdOngoing t src = true ∧
        doms.all (fun n => rf t d (.marchStat n) 28 1 == 1 && rf t d (.marchStat n) 27 1 == (if preserving then 1 else 0) && SMap.find t.power.marches (domKey d n) == some ⟨preserving, some src, ((domainBanks d n).filter (fun b => !retired s b)).map (fun b => (b, ⟨0, 0, []⟩))⟩) = true) ∧
  (∀ (s : State) (bank : BankNo) (reads : MarchReads),
    ∀ b, b = bank.toNat →
    s.present (pbDie b) = true →
    ∀ km : Nat × MarchRun, marchOf s b = some km →
    ∀ v : MarchBank, SMap.find km.2.banks b = some v →
    ∀ qr : Nat × Nat, nextPlace s b v.element v.row = some qr →
    ∀ c : Nat, marchCycle s b (elementCycles false v.element) = some c →
    km.2.preserving = false →
    v.element < 5 →
    (pauseOf s b).any (fun p => p.kind == .march) = true →
    reads = .good ∨ v.element = 0 →
    Runs (.marchOperation bank reads) s fun t =>
        t.now = max s.now c ∧
        SMap.find t.power.marches km.1 = some { km.2 with banks := SMap.set km.2.banks b { v with row := qr.1 + 1 } } ∧
        (Mem.readN t.banks.mem (rowAddr b (testRow s b qr.2)) 72 = List.replicate 72 (if v.element = 1 ∨ v.element = 3 then 0xFF else 0))) ∧
  (∀ (s : State) (bank : BankNo) (reads : MarchReads),
    ∀ b, b = bank.toNat →
    s.present (pbDie b) = true →
    ∀ km : Nat × MarchRun, marchOf s b = some km →
    ∀ v : MarchBank, SMap.find km.2.banks b = some v →
    nextPlace s b v.element v.row = none →
    km.2.preserving = false →
    v.element < 5 →
    (pauseOf s b).any (fun p => p.kind == .march) = true →
    Runs (.marchOperation bank reads) s fun t =>
        t.now = s.now ∧
        t.banks = s.banks ∧
        SMap.find t.power.marches km.1 = some { km.2 with banks := SMap.set km.2.banks b ⟨v.element + 1, 0, []⟩ }) ∧
  (∀ (s : State) (bank : BankNo) (reads : MarchReads),
    ∀ b, b = bank.toNat →
    s.present (pbDie b) = true →
    ∀ km : Nat × MarchRun, marchOf s b = some km →
    ∀ v : MarchBank, SMap.find km.2.banks b = some v →
    ∀ qr : Nat × Nat, nextPlace s b 0 v.row = some qr →
    ∀ c : Nat, nextCycle s b 6 s.now 4 = some c →
    km.2.preserving = true →
    passedOver s b qr.2 = false →
    reads = .good →
    Runs (.marchOperation bank reads) s fun t =>
        t.now = max s.now c ∧
        t.banks.mem = (advanceTo s c).banks.mem ∧
        ((nextPlace (advanceTo s c) b 0 (qr.1 + 1)).isSome = true → SMap.find t.power.marches km.1 = some { km.2 with banks := SMap.set km.2.banks b { v with row := qr.1 + 1 } })) ∧
  (∀ (s : State) (bank : BankNo) (reads : MarchReads),
    ∀ b, b = bank.toNat →
    s.present (pbDie b) = true →
    ∀ km : Nat × MarchRun, marchOf s b = some km →
    ∀ v : MarchBank, SMap.find km.2.banks b = some v →
    ∀ qr : Nat × Nat, nextPlace s b v.element v.row = some qr →
    ∀ c : Nat, marchCycle s b (elementCycles false v.element) = some c →
    ∀ i : Nat, freeSpare s b = some i →
    km.2.preserving = false →
    v.element = 1 ∨ v.element = 2 ∨ v.element = 3 ∨ v.element = 4 →
    (pauseOf s b).any (fun p => p.kind == .march) = true →
    reads = .bad →
    qr.2 < 2048 →
    (List.range 4).all (fun n => remapLine s b n != some qr.2) = true →
    Runs (.marchOperation bank reads) s fun t =>
        rf t (pbDie b) (.bankRemap (pbBank b) i) 31 1 = 1 ∧
        rf t (pbDie b) (.bankRemap (pbBank b) i) 0 11 = qr.2 ∧
        (∃ n, s.draws ≤ n ∧ SMap.get t.power.record (pbDie b) [] = SMap.get s.power.record (pbDie b) [] ++ (if Config.flashFails n = true then [] else [.remap (pbBank b) i qr.2])))

/-- BANK_RETIRE, CORE_FENCE and UNFENCE: R382, R389, R403; a bank of a domain that is not UP is retired at once by the model's reading (log 31). -/
def Obligations.RetiredBanksAndFencedCoresStaySo : Prop :=
  (∀ (s : State) (src : CmdSrc),
    given s src 0x52 = true →
    ∀ b : Nat, cmdBank s src = some b →
    src.win = some 0 →
    retired s b = false →
    Runs (.bankRetire src) s fun t =>
        (bankDown s b = Code.done → inPhase1 t b = true) ∧
        (bankDown s b ≠ Code.done → retired t b = true) ∧
        (bankDown s b ≠ Code.done → ∃ n, s.draws ≤ n ∧ SMap.get t.power.record (pbDie b) [] = SMap.get s.power.record (pbDie b) [] ++ (if Config.flashFails n = true then [] else [.retire (pbBank b)]))) ∧
  (∀ (s : State) (src : CmdSrc),
    given s src 0x52 = true →
    ∀ b : Nat, cmdBank s src = some b →
    src.win = some 0 →
    retired s b = true →
    Runs (.bankRetire src) s fun t =>
        answered t src Code.fenced = true ∧
        t.banks = s.banks) ∧
  (∀ (s : State) (src : CmdSrc),
    ∀ d, d = src.die →
    ∀ core, core = cmdArgF s src 0 0 10 →
    given s src 0x53 = true →
    core ≤ 511 →
    src.win = some 0 →
    coreFenced s d core = false →
    Runs (.coreFence src) s fun t =>
        coreFenced t d core = true ∧
        coreTag t d core = 0 ∧
        (∃ n, s.draws ≤ n ∧ SMap.get t.power.record d [] = SMap.get s.power.record d [] ++ (if Config.flashFails n = true then [] else [.fence core]))) ∧
  (∀ (s : State) (src : CmdSrc),
    given s src 0x53 = true →
    cmdArgF s src 0 0 10 ≤ 511 →
    src.win = some 0 →
    coreFenced s src.die (cmdArgF s src 0 0 10) = true →
    Runs (.coreFence src) s fun t =>
        answered t src Code.done = true ∧
        t.power = s.power) ∧
  (∀ (s : State) (src : CmdSrc),
    ∀ m, m = cmdArgF s src 0 0 12 →
    ∀ ident, ident = identOf src.die m →
    given s src 0x54 = true →
    assigned m = true →
    src.win = some 0 →
    masterStatus s src.die m ≠ Code.fenced →
    s.fabric.wdogFenced.contains ident = true →
    Runs (.unfence src) s fun t =>
        answered t src Code.done = true ∧
        t.fabric.wdogFenced = s.fabric.wdogFenced.filter (· != ident))

/-- Command slots run through their states: R395-R400, R405, R415; SEQ 1 and 2 cc a control-clock cycle are the model's reading (log 42). -/
def Obligations.CommandSlotsRunThroughTheirStates : Prop :=
  (∀ (s : State) (src : CmdSrc) (val : Word),
    ∀ n, n = (SMap.get s.sup.nextSeq (seqKey src) 0 + 1) % 65536 →
    s.present src.die = true →
    src.isSide = false →
    slotUp s src = true →
    bit val 29 = true →
    bit val 28 = false →
    cmdState s src = 0 →
    Runs (.cmdGo src val) s fun t =>
        cmdState t src = 1 ∧
        cmdOpcode t src = field val 0 8 ∧
        rf t src.die src.ctl 8 16 = n ∧
        rf t src.die src.ctl 27 1 = field val 27 1 ∧
        t.sup.queued = s.sup.queued ++ [(src, s.now)]) ∧
  (∀ (s : State) (src : CmdSrc) (val : Word),
    s.present src.die = true →
    src.isSide = false →
    slotUp s src = true →
    bit val 29 = true →
    cmdState s src ≠ 0 →
    ∀ w : Nat, src.win = some w →
    Runs (.cmdGo src val) s fun t =>
        rf t src.die (.cmdCnt w) 1 7 = min (rf s src.die (.cmdCnt w) 1 7 + 1) 127 ∧
        cmdState t src = cmdState s src ∧
        t.sup = s.sup) ∧
  (∀ (s : State) (src : CmdSrc) (val : Word),
    s.present src.die = true →
    slotUp s src = true →
    bit val 28 = true →
    bit val 29 = false →
    cmdState s src = 3 →
    Runs (.cmdRelease src val) s fun t =>
        cmdState t src = 0 ∧
        regGet t src.die src.sts = 0 ∧
        (List.range src.results).all (fun i => result t src i == 0) = true ∧
        (List.range src.args).all (fun i => cmdArg t src i == 0) = true ∧
        t.sup = s.sup) ∧
  (∀ (s : State) (src : CmdSrc),
    s.present src.die = true →
    inTurn s src = true →
    malformed s src = false →
    Runs (.cmdDispatch src) s fun t =>
        cmdState t src = 2 ∧
        cmdReady t src (cmdOpcode s src) = true ∧
        t.sup.queued = s.sup.queued.filter (fun c => c.1 != src) ∧
        src.win.all (fun w => SMap.get t.sup.turn src.die 15 == w) = true ∧
        (takesData (cmdOpcode s src) = true → s.sup.inputs.all (fun c => c.1 != src) = true → src.win.all (fun w => cmdInput t src 4096 == pageRead s src.die w 0 0 4096) = true)) ∧
  (∀ (s : State) (src : CmdSrc),
    s.present src.die = true →
    inTurn s src = true →
    malformed s src = true →
    Runs (.cmdDispatch src) s fun t =>
        answered t src Code.badArg = true ∧
        t.sup.queued = s.sup.queued.filter (fun c => c.1 != src)) ∧
  (∀ (s : State) (d : Die) (win : Win) (val : Word),
    ∀ src, src = CmdSrc.side d win →
    s.present d.toNat = true →
    bit val 29 = true →
    bit val 28 = false →
    cmdState s src = 0 →
    Runs (.sideGo d win val) s fun t =>
        cmdOpcode t src = field val 0 8 ∧
        (malformed t src = true → answered t src Code.badArg = true) ∧
        (malformed t src = false → cmdState t src = 2 ∧ t.sup.sideOrder.contains (src, s.now) = true ∧ t.sup.sideOrder.length = s.sup.sideOrder.length + 1)) ∧
  (∀ (s : State) (d : Die),
    ∀ q : CmdSrc × Nat, s.sup.queued.find? (fun c => c.1.die == d.toNat && c.1.win.isSome) = some q →
    ∀ c, c = max s.now (max q.2 (SMap.get s.sup.lastDispatch d.toNat 0) + 2 ^ 21) →
    s.present d.toNat = true →
    s.sup.stalled.contains d.toNat = false →
    (bootOf s d.toNat).asserted = false →
    (bootOf s d.toNat).phase = 8 ∨ (bootOf s d.toNat).phase = 9 →
    within s c = true →
    Runs (.supStall d) s fun t =>
        t.now = c ∧
        t.sup.stalled.contains d.toNat = true ∧
        SMap.get t.sup.nextEvent d.toNat 0 = SMap.get (advanceTo s c).sup.nextEvent d.toNat 0 + 1 ∧
        rf t d.toNat (.hostIrq 0) 5 1 = 1)

/-- ALMANAC, DRAIN_STAT and DIE_RESET answer on the side path: R404-R411, R416. -/
def Obligations.SideCommandsAnswer : Prop :=
  (∀ (s : State) (src : CmdSrc),
    ∀ e, e = cmdArgF s src 0 0 3 →
    given s src 0x60 = true →
    e = src.die →
    Runs (.almanac src) s fun t =>
        answered t src Code.done = true ∧
        SMap.get t.sup.almanacCount e 0 = SMap.get s.sup.almanacCount e 0 + 1 ∧
        pageRead t e (src.win.getD 0) 2 0 (almanacBytes s e (src.win.getD 0)).length = almanacBytes s e (src.win.getD 0)) ∧
  (∀ (s : State) (src : CmdSrc),
    ∀ e, e = cmdArgF s src 0 0 3 →
    given s src 0x60 = true →
    e ≠ src.die →
    dieOpen s e = true →
    dieOpen s src.die = true →
    Runs (.almanac src) s fun t =>
        cmdOngoing t src = true ∧
        t.sup.almanacs = s.sup.almanacs ++ [⟨e, src.die, src.win.getD 0, none⟩]) ∧
  (∀ (s : State) (src : CmdSrc),
    ∀ e, e = cmdArgF s src 0 0 3 →
    given s src 0x60 = true →
    e ≠ src.die →
    s.present e = true →
    dieOpen s e = false ∨ dieOpen s src.die = false →
    Runs (.almanac src) s fun t =>
        answered t src Code.fenced = true) ∧
  (∀ (s : State) (d : Die) (origin : Die) (win : Win),
    s.present d.toNat = true →
    s.present origin.toNat = true →
    dieOpen s d.toNat = true →
    s.sup.almanacs.any (fun a => a.target == d.toNat && a.origin == origin.toNat && a.win == win.toNat && a.data.isNone) = true →
    Runs (.almanacRemoteCapture d origin win) s fun t =>
        SMap.get t.sup.almanacCount d.toNat 0 = SMap.get s.sup.almanacCount d.toNat 0 + 1 ∧
        t.sup.almanacs.any (fun a => a.target == d.toNat && a.origin == origin.toNat && a.win == win.toNat && a.data == some (almanacBytes s d.toNat win.toNat)) = true) ∧
  (∀ (s : State) (d : Die) (win : Win),
    ∀ src, src = CmdSrc.side d win →
    ∀ a : AlmanacWord, s.sup.almanacs.find? (fun a => a.origin == d.toNat && a.win == win.toNat && a.data.isSome) = some a →
    ∀ l : List Byte, a.data = some l →
    ongoing s src 0x60 = true →
    Runs (.almanacReplyReceive d win) s fun t =>
        answered t src Code.done = true ∧
        pageRead t d.toNat win.toNat 2 0 l.length = l) ∧
  (∀ (s : State) (src : CmdSrc),
    ∀ segs, segs = dieSegs s src.die →
    ∀ fz, fz = segs.filter (frozen s) →
    given s src 0x61 = true →
    src.win = some 0 →
    Runs (.drainStat src) s fun t =>
        answered t src Code.done = true ∧
        result t src 0 = word (put 16 16 fz.length + put 0 16 (fz.filter (fun sg => !drained s sg)).length) ∧
        bit (result t src 1) 18 = segs.any (fun sg => bit (regGet s src.die (.segCtl (sg % 65536))) 1) ∧
        t.fabric = s.fabric) ∧
  (∀ (s : State) (src : CmdSrc),
    ∀ kind, kind = cmdArgF s src 0 0 2 →
    given s src 0x62 = true →
    kind ≠ 3 →
    src.win = some 0 →
    Runs (.dieReset src) s fun t =>
        (bootOf t src.die).asserted = true ∧
        (bootOf t src.die).phase = 1 ∧
        (bootOf t src.die).cause = 2 ∧
        (bootOf t src.die).kind = BitVec.ofNat 2 kind ∧
        (bootOf t src.die).resets.toNat = min ((bootOf s src.die).resets.toNat + 1) 0xFFFF ∧
        (bootOf t src.die).opened = false ∧
        t.security.keySlots.all (fun e => e.1 / 512 != src.die) = true ∧
        t.power.record = s.power.record)

/-- POWER_ON, CHIP_RESET, POWER_LOSS and RESET_RELEASE: R416-R419, R333, R385. -/
def Obligations.DieResetsLeaveWhatTheyMust : Prop :=
  (∀ (s : State) (d : Die),
    s.present d.toNat = true →
    Runs (.powerOn d) s fun t =>
        (bootOf t d.toNat).asserted = true ∧
        (bootOf t d.toNat).powered = true ∧
        (bootOf t d.toNat).phase = 1 ∧
        (bootOf t d.toNat).cause = 0 ∧
        (bootOf t d.toNat).resets = 0 ∧
        t.security.keySlots.all (fun e => e.1 / 512 != d.toNat) = true ∧
        (List.range 48).all (fun n => (dom t d.toNat n).st == .down) = true) ∧
  (∀ (s : State) (d : Die),
    s.present d.toNat = true →
    (bootOf s d.toNat).powered = true →
    Runs (.chipReset d) s fun t =>
        (bootOf t d.toNat).asserted = true ∧
        (bootOf t d.toNat).phase = 1 ∧
        (bootOf t d.toNat).cause = 1 ∧
        (bootOf t d.toNat).resets.toNat = min ((bootOf s d.toNat).resets.toNat + 1) 0xFFFF ∧
        (bootOf t d.toNat).opened = false ∧
        t.security.keySlots.all (fun e => e.1 / 512 != d.toNat) = true ∧
        t.power.record = s.power.record ∧
        t.power.fuses = s.power.fuses) ∧
  (∀ (s : State) (d : Die),
    s.present d.toNat = true →
    Runs (.powerLoss d) s fun t =>
        (bootOf t d.toNat).asserted = true ∧
        (bootOf t d.toNat).powered = false ∧
        (bootOf t d.toNat).opened = false ∧
        t.security.keySlots.all (fun e => e.1 / 512 != d.toNat) = true ∧
        t.power.fuses = s.power.fuses) ∧
  (∀ (s : State) (d : Die),
    s.present d.toNat = true →
    (bootOf s d.toNat).asserted = true →
    (bootOf s d.toNat).powered = true →
    Runs (.resetRelease d) s fun t =>
        bootOf t d.toNat = { bootOf s d.toNat with asserted := false, phase := 1 } ∧
        t.power.record = s.power.record)

/-- Start-up goes phase by phase, listens and hears beacons: R419-R426; when a listening window may end is the model's choice (log 38). -/
def Obligations.StartUpGoesPhaseByPhase : Prop :=
  (∀ (s : State) (d : Die) (outcome : BootOutcome),
    ∀ r : BitVec 4, (match outcome with | .fail r => some r | _ => none) = some r →
    s.present d.toNat = true →
    (bootOf s d.toNat).asserted = false →
    mayFail (bootOf s d.toNat).phase r.toNat = true →
    Runs (.bootPhaseComplete d outcome) s fun t =>
        bootOf t d.toNat = { bootOf s d.toNat with phase := 10, fail := r, listening := false }) ∧
  (∀ (s : State) (d : Die) (outcome : BootOutcome),
    s.present d.toNat = true →
    (bootOf s d.toNat).asserted = false →
    outcome = .ok true →
    Runs (.bootPhaseComplete d outcome) s fun t =>
        ((bootOf s d.toNat).phase = 1 → (bootOf t d.toNat).phase = 2) ∧
        ((bootOf s d.toNat).phase = 2 → (bootOf t d.toNat).phase = 3 ∧ (bootOf t d.toNat).listening = true ∧ rf t d.toNat .perfStat 29 2 = 1) ∧
        ((bootOf s d.toNat).phase = 4 → (List.range 48).all (domUp s d.toNat) = true → (bootOf t d.toNat).phase = 5) ∧
        ((bootOf s d.toNat).phase = 5 → marchCalled s d.toNat = true → (bootOf t d.toNat).phase = 6) ∧
        ((bootOf s d.toNat).phase = 5 → marchCalled s d.toNat = false → xcheckCalled s d.toNat = true → (bootOf t d.toNat).phase = 7) ∧
        ((bootOf s d.toNat).phase = 7 → clearing s d.toNat = [] → rf s d.toNat .rstCtl 0 1 = 0 → bit (regGet s d.toNat .xchkStat) 31 = false → (bootOf t d.toNat).phase = 9 ∧ (bootOf t d.toNat).ready = true ∧ (bootOf t d.toNat).listening = true) ∧
        ((bootOf s d.toNat).phase = 7 → clearing s d.toNat = [] → rf s d.toNat .rstCtl 0 1 = 1 → (bootOf t d.toNat).phase = 8)) ∧
  (∀ (s : State) (d : Die) (outcome : BootOutcome),
    ∀ l : BitVec 2, (bootOf s d.toNat).heardLevel = some l →
    s.present d.toNat = true →
    (bootOf s d.toNat).asserted = false →
    (bootOf s d.toNat).phase = 3 →
    outcome = .ok true →
    Runs (.bootPhaseComplete d outcome) s fun t =>
        (bootOf t d.toNat).phase = 4 ∧
        rf t d.toNat .perfStat 0 2 = l.toNat ∧
        rf t d.toNat .perfStat 29 2 = 0) ∧
  (∀ (s : State) (d : Die),
    s.present d.toNat = true →
    (bootOf s d.toNat).asserted = false →
    (bootOf s d.toNat).phase = 3 →
    (bootOf s d.toNat).listening = true →
    openDies s = [] →
    Runs (.beaconListenTimeout d) s fun t =>
        bootOf t d.toNat = { bootOf s d.toNat with listening := false, heardLevel := some 0 }) ∧
  (∀ (s : State) (d : Die) (b : Beacon),
    ∀ v, v = bootOf s d.toNat →
    s.present d.toNat = true →
    beaconTrue s b = true →
    v.asserted = false →
    b.sender.toNat ≠ d.toNat →
    v.listening = true →
    b.changing = false →
    v.opened = false →
    changing s d.toNat = false →
    Runs (.beaconReceive d b) s fun t =>
        (v.phase = 3 → bootOf t d.toNat = { v with listening := false, heardLevel := some b.level }) ∧
        (v.phase ≠ 3 → v.ready = true → b.level.toNat = rf s d.toNat .perfStat 0 2 → bootOf t d.toNat = { v with listening := false, master := false, openAt := some (s.frame + 2) }) ∧
        (v.phase ≠ 3 → v.ready = true → b.level.toNat ≠ rf s d.toNat .perfStat 0 2 → SMap.find t.power.perf d.toNat = some ⟨.pending s.frame, b.level, none, true⟩)) ∧
  (∀ (s : State) (d : Die),
    ∀ v, v = bootOf s d.toNat →
    ∀ c, c = max s.now (v.listenAt + 1024 * (d.toNat + 1)) →
    s.present d.toNat = true →
    v.ready = true →
    v.listening = true →
    v.opened = false →
    openDies s = [] →
    within s c = true →
    Runs (.readyListenTimeout d) s fun t =>
        t.now = c ∧
        bootOf t d.toNat = { v with listening := false, master := true, openAt := some (s.frame + 1) }) ∧
  (∀ (s : State),
    ∀ d : Nat, (openDies s).head? = some d →
    masterDie s = none →
    Runs (.beaconMissing) s fun t =>
        bootOf t d = { bootOf s d with master := true })

/-- Bypasses open and close; JOIN and LEAVE: R424-R430, R442; which absolute frames may become frame 0 is the model's choice (log 38). -/
def Obligations.BypassesOpenAndClose : Prop :=
  (∀ (s : State) (d : Die),
    ∀ n, n = d.toNat →
    ∀ b, b = bootOf s n →
    ∀ f : Nat, b.openAt = some f →
    s.now = 256 * s.frame →
    s.present n = true →
    b.opened = false →
    b.asserted = false →
    f ≤ s.frame →
    b.master = true →
    openDies s = [] →
    s.frame % 16 = 0 →
    Runs (.bypassOpen d) s fun t =>
        bootOf t n = { b with opened := true, openAt := none, openedFrame := s.frame } ∧
        frameCount t = 0) ∧
  (∀ (s : State) (d : Die),
    ∀ n, n = d.toNat →
    ∀ b, b = bootOf s n →
    ∀ f : Nat, b.openAt = some f →
    ∀ m : Nat, masterDie s = some m →
    s.now = 256 * s.frame →
    s.present n = true →
    b.opened = false →
    b.asserted = false →
    f ≤ s.frame →
    b.master = false →
    mayOpen s n = true →
    Runs (.bypassOpen d) s fun t =>
        (activeDigest s n = activeDigest s m → bootOf t n = { b with opened := true, openAt := none, openedFrame := s.frame }) ∧
        (activeDigest s n ≠ activeDigest s m → unsettled s n = false → unsettled s m = false → (bootOf t n).opened = false ∧ (bootOf t n).phase = 8 ∧ (bootOf t n).ready = false ∧ fwState t n = 8)) ∧
  (∀ (s : State) (d : Die),
    ∀ n, n = d.toNat →
    ∀ m : Nat, masterDie s = some m →
    s.present n = true →
    dieOpen s n = true →
    n ≠ m →
    (bootOf s n).openedFrame + 4 ≤ s.frame →
    Runs (.dieAnnounceReceive d) s fun t =>
        (List.range 256).all (fun b => field (regGet t n (.ballotCfg b)) 0 24 == field (regGet s m (.ballotCfg b)) 0 24) = true ∧
        t.boots = s.boots) ∧
  (∀ (s : State) (d : Die) (win : Win) (val : Word),
    ∀ n, n = d.toNat →
    s.present n = true →
    win = 0 →
    bit val 2 = true →
    bit val 3 = false →
    joinRefused s n = false →
    Runs (.rstJoin d win val) s fun t =>
        bootOf t n = { bootOf s n with phase := 9, ready := true, listening := true, openAt := none, listenAt := s.now } ∧
        rf t n .rstCtl 24 8 = Code.done ∧
        rf t n .rstCtl 0 2 = field val 0 2) ∧
  (∀ (s : State) (d : Die) (win : Win) (val : Word),
    ∀ n, n = d.toNat →
    s.present n = true →
    win = 0 →
    bit val 2 = true →
    joinRefused s n = true →
    Runs (.rstJoin d win val) s fun t =>
        rf t n .rstCtl 24 8 = Code.state ∧
        t.boots = s.boots) ∧
  (∀ (s : State) (d : Die) (win : Win) (val : Word),
    ∀ n, n = d.toNat →
    ∀ b, b = bootOf s n →
    s.present n = true →
    win = 0 →
    bit val 3 = true →
    bit val 2 = false →
    leaveRefused s n = false →
    Runs (.rstLeave d win val) s fun t =>
        bootOf t n = { b with phase := 8, ready := false, listening := false, closing := b.opened, openAt := if b.opened then some (s.frame + 1) else none } ∧
        rf t n .rstCtl 24 8 = Code.done) ∧
  (∀ (s : State) (d : Die) (win : Win) (val : Word),
    s.present d.toNat = true →
    win ≠ 0 →
    bit val 3 = true →
    Runs (.rstLeave d win val) s fun t =>
        rf t d.toNat .rstCtl 24 8 = Code.denied ∧
        t.boots = s.boots) ∧
  (∀ (s : State) (d : Die),
    ∀ b, b = bootOf s d.toNat →
    ∀ f : Nat, b.openAt = some f →
    s.now = 256 * s.frame →
    s.present d.toNat = true →
    b.closing = true →
    f ≤ s.frame →
    Runs (.bypassClose d) s fun t =>
        bootOf t d.toNat = { b with opened := false, master := false, closing := false, openAt := none })

/-- Firmware images are staged, verified, queried and discarded: R432-R440; the cryptographic functions are computed (log 10). -/
def Obligations.FirmwareImagesAreStagedAndVerified : Prop :=
  (∀ (s : State) (src : CmdSrc),
    ∀ d, d = src.die →
    ∀ h, h = cmdInput s src 4096 →
    given s src 0x70 = true →
    src.win = some 0 →
    fwState s d ≠ 2 ∧ ¬ (5 ≤ fwState s d ∧ fwState s d ≤ 8) →
    lifeCycle s d ≠ 3 →
    someScheduled s = false →
    Runs (.fwBegin src) s fun t =>
        (firmwareSigned (h.take 4000) (h.drop 4000) = false → regGet t d src.sts = stWord Code.sealFail 1 ∧ t.flash = s.flash) ∧
        (firmwareSigned (h.take 4000) (h.drop 4000) = true → formatOk h s.dies = true → (hdr h 16 1).testBit (packageBit s.package) = true → hdr h 17 1 ≤ siliconRevision → (flashOf s d).activeVersion < hdr h 8 8 → answered t src Code.done = true ∧ fwState t d = 1 ∧ rf t d .fwStat 0 11 = 0 ∧ (flashOf t d).stagedHeader = h ∧ (flashOf t d).activeHeader = (flashOf s d).activeHeader) ∧
        (firmwareSigned (h.take 4000) (h.drop 4000) = true → formatOk h s.dies = true → (hdr h 16 1).testBit (packageBit s.package) = true → hdr h 17 1 ≤ siliconRevision → hdr h 8 8 ≤ (flashOf s d).activeVersion → regGet t d src.sts = stWord Code.state 4 ∧ t.flash = s.flash)) ∧
  (∀ (s : State) (src : CmdSrc),
    ∀ d, d = src.die →
    ∀ f, f = flashOf s d →
    ∀ i, i = cmdArgF s src 0 0 10 →
    ∀ tag, tag = argBytes s src 1 4 →
    ∀ cipher, cipher = cmdInput s src 4096 →
    given s src 0x71 = true →
    src.win = some 0 →
    i < bodyBlocks f.stagedHeader →
    fwState s d = 1 →
    someScheduled s = false →
    Runs (.fwBlock src) s fun t =>
        (openBlock f.stagedHeader i cipher tag = none → regGet t d src.sts = stWord Code.sealFail 2 ∧ t.flash = s.flash) ∧
        (openBlock f.stagedHeader i cipher tag ≠ none → answered t src Code.done = true ∧ SMap.find (flashOf t d).blocks i = some (cipher, tag))) ∧
  (∀ (s : State) (src : CmdSrc),
    ∀ d, d = src.die →
    given s src 0x72 = true →
    src.win = some 0 →
    fwState s d = 1 →
    bodyBlocks (flashOf s d).stagedHeader ≤ rf s d .fwStat 0 11 →
    someScheduled s = false →
    Runs (.fwVerify src) s fun t =>
        cmdOngoing t src = true ∧
        fwState t d = 2 ∧
        t.flash = s.flash) ∧
  (∀ (s : State) (src : CmdSrc),
    ∀ d, d = src.die →
    given s src 0x72 = true →
    src.win = some 0 →
    fwState s d ≠ 1 ∨ rf s d .fwStat 0 11 < bodyBlocks (flashOf s d).stagedHeader →
    Runs (.fwVerify src) s fun t =>
        answered t src Code.state = true ∧
        fwState t d = fwState s d) ∧
  (∀ (s : State) (d : Die),
    ∀ f, f = flashOf s d.toNat →
    s.present d.toNat = true →
    fwState s d.toNat = 2 →
    Runs (.fwVerifyDone d) s fun t =>
        fwState t d.toNat = (match openBody f.stagedHeader f.blocks with | some body => if digestsOk f.stagedHeader body then 3 else 4 | none => 4) ∧
        t.flash = s.flash) ∧
  (∀ (s : State) (src : CmdSrc),
    ∀ d, d = src.die →
    ∀ w, w = src.win.getD 0 →
    ∀ h, h = (flashOf s d).stagedHeader →
    given s src 0x73 = true →
    src.win = some 0 →
    Runs (.fwQuery src) s fun t =>
        answered t src Code.done = true ∧
        result t src 0 = regGet s d .fwStat ∧
        ((fwState s d = 3 ∨ fwState s d = 5 ∨ fwState s d = 6) → pageRead t d w 1 0 32 = fit 32 (h.take 32)) ∧
        (¬ (fwState s d = 3 ∨ fwState s d = 5 ∨ fwState s d = 6) → pageRead t d w 1 0 224 = List.replicate 224 0)) ∧
  (∀ (s : State) (src : CmdSrc),
    ∀ d, d = src.die →
    given s src 0x76 = true →
    src.win = some 0 →
    fwState s d = 1 ∨ fwState s d = 3 ∨ fwState s d = 4 →
    someScheduled s = false →
    Runs (.fwDiscard src) s fun t =>
        answered t src Code.done = true ∧
        fwState t d = 0 ∧
        (flashOf t d).stagedHeader = [] ∧
        (flashOf t d).blocks = [] ∧
        (flashOf t d).activeHeader = (flashOf s d).activeHeader)

/-- Firmware activation is scheduled, called off, polled and run: R440, R441; cancelling with nothing scheduled is the model's reading (log 40). -/
def Obligations.FirmwareActivationIsScheduledPolledAndRun : Prop :=
  (∀ (s : State) (src : CmdSrc),
    ∀ n, n = scheduleTime s src →
    given s src 0x74 = true →
    src.win = some 0 →
    (List.range s.dies).all (fun e => dieOpen s e && fwState s e == 3 && (flashOf s e).stagedHeader == (flashOf s 0).stagedHeader && (SMap.find s.security.lcBusy e).isNone && !changing s e && lifeCycle s e != 3) = true →
    s.pkgTime.toNat + 1000000 ≤ n →
    n ≤ s.pkgTime.toNat + 2592000000000 →
    Runs (.fwSchedule src) s fun t =>
        answered t src Code.done = true ∧
        (List.range s.dies).all (fun e => fwState t e == 5 && armedTime t e == n) = true) ∧
  (∀ (s : State) (src : CmdSrc),
    ∀ n, n = scheduleTime s src →
    given s src 0x74 = true →
    src.win = some 0 →
    (List.range s.dies).all (fun e => dieOpen s e && fwState s e == 3 && (flashOf s e).stagedHeader == (flashOf s 0).stagedHeader && (SMap.find s.security.lcBusy e).isNone && !changing s e && lifeCycle s e != 3) = true →
    n < s.pkgTime.toNat + 1000000 ∨ s.pkgTime.toNat + 2592000000000 < n →
    Runs (.fwSchedule src) s fun t =>
        regGet t src.die src.sts = stWord Code.badArg 5 ∧
        t.flash = s.flash) ∧
  (∀ (s : State) (src : CmdSrc),
    ∀ d, d = src.die →
    ∀ mine, mine = ((List.range s.dies).filter (fun e => fwState s e == 5 && (e == d || (dieOpen s d && dieOpen s e)))) →
    given s src 0x75 = true →
    src.win = some 0 →
    mine ≠ [] →
    mine.all (fun e => s.pkgTime.toNat + 10000 < armedTime s e) = true →
    Runs (.fwCancel src) s fun t =>
        answered t src Code.done = true ∧
        mine.all (fun e => fwState t e == 3 && rf t e .fwStat 24 4 == 4 && (flashOf t e).armed == none) = true) ∧
  (∀ (s : State),
    polledDies s ≠ [] →
    Runs (.fwPoll) s fun t =>
        (polledDies s).all (fun d => fwState t d == (if pollDecision s = 0 then 6 else 3) && (flashOf t d).commit == decide (pollDecision s = 0)) = true ∧
        (pollDecision s ≠ 0 → (polledDies s).all (fun d => rf t d .fwStat 24 4 == pollDecision s) = true)) ∧
  (∀ (s : State),
    ∀ gone, gone = ((List.range s.dies).filter (fun d => fwState s d == 6 && decide (armedTime s d ≤ s.pkgTime.toNat))) →
    gone ≠ [] →
    Runs (.fwActivate) s fun t =>
        gone.all (fun d => (bootOf t d).asserted && (bootOf t d).cause == 2 && !(bootOf t d).opened) = true)

/-! ### Steps, reset and invariants -/

/-- A step takes the front command: exec of it on the state with the rest of the queue. -/
def Obligations.StepTakesTheFrontCommand : Prop :=
  ∀ (c : Instr) (rest : List Instr) (s : State), s.pending = c :: rest → step s = exec c { s with pending := rest }

/-- With an empty queue the block idles one cycle (log 3): package time moves on by a free step (log 12), one cc elapses unless a
relock stops the clocks (R371), and the frame ends with its 256th cc (R91). -/
def Obligations.EmptyQueueIdlesOneCycle : Prop :=
  ∀ s : State, s.pending = [] →
    ∃ t n, step s = .next t ∧ t.pending = [] ∧ s.draws ≤ n ∧ t.draws = n + 1 ∧
      t.pkgTime = s.pkgTime + BitVec.ofNat 64 (Config.packageTimeStep n) ∧
      (rootStopped s = true → t.now = s.now ∧ t.frame = s.frame ∧ n = s.draws) ∧
      (rootStopped s = false → t.now = s.now + 1 ∧ t.frame = if s.now + 1 = frameEnd s then s.frame + 1 else s.frame)

/-- State.reset: what the spec gives (reset asserted, every domain DOWN, every bank of tenancy 0 and the supervisor, every
context IDLE, every tenancy but 0 FREE, every slot FREE), and the model's own choices (memory with nothing listed, log 7; frame
0, log 5; no domain powered and no key held follow from R418 and R333). -/
def Obligations.ResetLeavesEveryDieHeld : Prop :=
  State.reset.pending = [] ∧ State.reset.banks.mem = [] ∧ Claims.clockInv State.reset ∧ Mem.wf State.reset.banks.mem = true ∧
  Claims.rises State.reset.fabric.counters = true ∧ Claims.resetInv State.reset ∧
  State.reset.security.keySlots = [] ∧
  ∀ d : Nat, d < 8 →
    (bootOf State.reset d).asserted = true ∧ (bootOf State.reset d).phase = 1 ∧
    (∀ n, (dom State.reset d n).st = .down) ∧
    (∀ b, ownOf State.reset (d * 8192 + b) = 0x840) ∧
    tenState State.reset d 0 = 1 ∧ (∀ n, 0 < n → n < 16 → tenState State.reset d n = 0) ∧
    (∀ w n, cmdState State.reset (.slot (BitVec.ofNat 3 d) w n) = 0) ∧
    (∀ c : CtxId, (ctxOf State.reset c).st = .idle)

/-- Invariant: the clock and the frame count agree (R91; the event-driven clock is the model's, log 1), and no step takes time, the
frame count or a free draw back. -/
def Obligations.EveryStepKeepsTheClock : Prop :=
  ∀ s t : State, step s = .next t →
    (Claims.clockInv s → Claims.clockInv t) ∧ s.now ≤ t.now ∧ s.frame ≤ t.frame ∧ s.draws ≤ t.draws

/-- Invariant: memory keeps its canonical form, and the counters stand in rising order of key. COUNTER_SNAPSHOT's statement rests on
the second. -/
def Obligations.EveryStepKeepsTheCanonicalForms : Prop :=
  ∀ s t : State, step s = .next t →
    (Mem.wf s.banks.mem = true → Mem.wf t.banks.mem = true) ∧
    (Claims.rises s.fabric.counters = true → Claims.rises t.fabric.counters = true)

/-- Invariant (R116): the queue of a signal lane never holds more than 128 tokens, whatever sends, moves or drops them; the numbers of
tokens are distinct and have been given out. -/
def Obligations.NoSignalLaneHoldsMoreThan128Tokens : Prop :=
  ∀ s t : State, Claims.laneInv s → step s = .next t → Claims.laneInv t

/-- Invariant: a die held in reset takes no part in the ring (R418, R430). -/
def Obligations.DieHeldInResetIsNeverOpen : Prop :=
  ∀ s t : State, Claims.resetInv s → step s = .next t → Claims.resetInv t

/-- Every command whose dies are present answers a next state, and one that names an absent die faults (R1, log 4). No command is
refused. -/
def Obligations.EveryCommandOfPresentDiesCompletes : Prop :=
  ∀ (c : Instr) (s : State),
    ((Claims.namedDies c).all s.present = true → ∃ t, exec c s = .next t) ∧
    ((Claims.namedDies c).all s.present = false → exec c s = .fault .absentDie)

/-! ### Frames -/

/-- What no command but those of the table changes: a part that `touches` does not list for a command reads after it as in the state
that the command starts from, which is the one before it, or that one after some cycles have passed; the passing of cycles changes
the parts of `timeParts` alone. The queue and the package type are in neither list. -/
def Obligations.EveryCommandKeepsWhatItDoesNotTouch : Prop :=
  (∀ (c : Instr) (s t : State), exec c s = .next t → ∃ m, Claims.startsFrom c s m ∧ ∀ p, p ∉ Claims.touches c → part t p = part m p) ∧
  (∀ (s : State) (k : Nat) (p : StatePart), p ∉ Claims.timeParts → part (advanceTo s k) p = part s p)

/-- The registers that a command of the table may change, by die and register: every other register reads as in the state that the
command starts from. -/
def Obligations.RegistersNotNamedStayUnchanged : Prop :=
  ∀ (c : Instr) (s t : State) (l : List Nat), Claims.mayWriteRegs s c = some l → exec c s = .next t →
    ∃ m, Claims.startsFrom c s m ∧ ∀ d r, key d r ∉ l → regGet t d r = regGet m d r

/-- The rows that are written in a bank's array, computed as the model computes them; every byte outside them reads as before. First
the array access of a slot or a flush, which is what writes memory as cycles pass: counting cycles and presenting requests write
none. Then the commands that work in an array themselves, from the state that they start from. A march may also copy a failing line
into a spare row of its bank, so its statement leaves out the whole bank. -/
def Obligations.BytesOutsideTheRowAreKept : Prop :=
  (∀ (s : State) (a : Acc) (x : Nat), (∀ l ∈ Claims.accLines s a, Claims.outside x (rowAddr (lnBank l) (rowOf s l)) 72) →
    Mem.read (applyAcc s a).banks.mem x = Mem.read s.banks.mem x) ∧
  (∀ (s : State) (k : Nat), (passTo s k).banks.mem = s.banks.mem ∧ (presentAll s).banks.mem = s.banks.mem) ∧
  (∀ (bank : BankNo) (s t : State), exec (.weedZeroRow bank) s = .next t → ∃ m, Claims.startsFrom (.weedZeroRow bank) s m ∧
    match SMap.find s.banks.zeroing bank.toNat with
    | none => t.banks.mem = s.banks.mem
    | some n => ∀ a, (∀ r ∈ [rowOf m (bank.toNat * 2048 + n), n, 2048 + n], Claims.outside a (rowAddr bank.toNat r) 72) →
        Mem.read t.banks.mem a = Mem.read m.banks.mem a) ∧
  (∀ (entry : Nat) (s t : State), exec (.mergeFlush entry) s = .next t → ∃ m, Claims.startsFrom (.mergeFlush entry) s m ∧
    t.banks.mem = m.banks.mem) ∧
  (∀ (folio : FolioNo) (s t : State), exec (.sealParityWrite folio) s = .next t → ∃ m, Claims.startsFrom (.sealParityWrite folio) s m ∧
    match (sealCtxOf s folio.toNat).bind (·.parity) with
    | none => t.banks.mem = s.banks.mem
    | some k => ∀ a, Claims.outside a (rowAddr (lnBank (foLine folio.toNat + k)) (rowOf m (foLine folio.toNat + k))) 72 →
        Mem.read t.banks.mem a = Mem.read m.banks.mem a) ∧
  (∀ (bank : BankNo) (n : BitVec 2) (s t : State), exec (.remapCopy bank n) s = .next t → ∃ m, Claims.startsFrom (.remapCopy bank n) s m ∧
    ∀ a, Claims.outside a (rowAddr bank.toNat (2048 + n.toNat)) 72 → Mem.read t.banks.mem a = Mem.read m.banks.mem a) ∧
  (∀ (d : Die) (s t : State), exec (.rawOpExecute d) s = .next t → ∃ m, Claims.startsFrom (.rawOpExecute d) s m ∧
    match ((SMap.find s.banks.rawOps d.toNat).getD []).head? with
    | none => t.banks.mem = s.banks.mem
    | some q => ∀ a, Claims.outside a (rowAddr (lnBank q.line) (rowOf m q.line)) (max 72 q.row.length) →
        Mem.read t.banks.mem a = Mem.read m.banks.mem a) ∧
  (∀ (bank : BankNo) (reads : MarchReads) (s t : State), exec (.marchOperation bank reads) s = .next t →
    ∃ m, Claims.startsFrom (.marchOperation bank reads) s m ∧
      ∀ a, Claims.outside a (rowAddr bank.toNat 0) (2052 * 72) → Mem.read t.banks.mem a = Mem.read m.banks.mem a) ∧
  (∀ (op : Nat) (s t : State) (o : QOp) (k : Nat × State) (pl : Nat) (rmw : Bool),
    s.queues.ops.find? (fun o => o.id == op && !o.done) = some o → ringShut s o.issuer.die o.kind.die = false →
    domUp s o.kind.die 47 = true → Claims.opTurn s o = some k → o.kind.portB s o.ten.toNat o.issuer.notice = some (pl, rmw) →
    lineAccs k.2 pl = [] → exec (.queueEngineOp op) s = .next t →
    ∀ a, Claims.outside a (rowAddr (lnBank pl) (rowOf k.2 pl)) 72 → Mem.read t.banks.mem a = Mem.read k.2.banks.mem a)

/-- The commands of the Issuer column of R401 that are the host window's of tenancy 0 alone: issued by any other slot they return
DENIED, or BAD_ARG where their arguments are bad (R11), and nothing but that answer changes. -/
def Obligations.OnlyWindowZeroRulesTheDie : Prop :=
  ∀ (c : Instr) (s : State) (src : CmdSrc) (op : Nat), Claims.zeroCommand s c = some (src, op) →
    Claims.given s src op = true → src.win ≠ some 0 →
    Claims.Runs c s fun t => (Claims.answered t src Code.denied || Claims.answered t src Code.badArg) = true ∧
      ∀ p, p ∉ Claims.endParts → part t p = part s p

/-! ### Words -/

/-- R139: bit j of check byte i is the XOR of all 8 bits of data byte 8i + j. -/
def Obligations.ByteCheckBitsAreEvenParity : Prop :=
  ∀ (data : List Byte) (i j : Nat), j < 8 →
    (byteCheck data i).toNat.testBit j
      = (List.range 8).foldl (fun acc k => acc ^^ (data.getD (8 * i + j) 0).toNat.testBit k) false

/-- R10: the fields of a status word. -/
def Obligations.StatusWordHoldsItsFields : Prop :=
  ∀ (code detail : Nat) (corrected late already : Bool), code < 256 → detail < 65536 →
    let w := stWord code detail corrected late already
    field w 16 16 = detail ∧ field w 11 5 = 0 ∧ bit w 10 = corrected ∧ bit w 9 = late ∧ bit w 8 = already ∧ field w 0 8 = code

/-- R162: MERGE_STAT of a cluster whose domain is UP reads the entries held in [6:0] to the host window of tenancy 0, and 0 to any
other. -/
def Obligations.MergeStatReadsTheEntriesHeld : Prop :=
  ∀ (s : State) (d : Die) (win : Win) (off : Word) (k : Nat), s.present d.toNat = true →
    isPage off.toNat = false → Reg.decode s.dies win.toNat off.toNat = some (.mergeStat k) →
    domUp s d.toNat (xbarDomain k) = true → (mergeOfCluster s d.toNat k).length ≤ 64 →
    Claims.Runs (.registerPairRead d win off) s fun t => ∃ v : Word, t.out = .regRead d win off v :: s.out ∧
      field v 7 25 = 0 ∧ field v 0 7 = if win = 0 then (mergeOfCluster s d.toNat k).length else 0

/-- R288: what one end of a sealed path seals the other opens. A message that a die seals with a key and that reaches an inbound window
whose key is the same one gives its payload back, under the header that it carries. -/
def Obligations.SealedMessagesOpenAtTheirPeer : Prop :=
  ∀ (s s' : State) (d t k : Nat) (m m' : RemoteMsg), sealMsg s d t k m = some (s', m') →
    ∀ (r : State) (e u : Nat), keyOf r e u (rf r e (.rinCfg m.dwin.toNat) 12 5) = keyOf s d t k →
      openMsg r e u m' = some m.payload ∧ m'.header = { m with sealedFlag := true }.header ∧
      m'.payload.length = m.payload.length ∧ m'.iv.length = 12 ∧ m'.tag.length = 16 ∧
      SMap.get s'.remote.counters (keyIdx d t k) 0 = SMap.get s.remote.counters (keyIdx d t k) 0 + 1

/-- R450: writing ones clears those bits of a register field but for the ones that the hardware has set in the same control-clock cycle,
and leaves every bit that is written 0 and every bit outside the field. -/
def Obligations.WrittenOnesClearWhatHardwareHasNotSetNow : Prop :=
  ∀ (s : State) (d : Nat) (r : Reg) (lo n v i : Nat), lo + n ≤ 32 → i < 32 →
    bit (regGet (clearByOnes s d r lo n v) d r) i
      = (bit (regGet s d r) i && !(lo ≤ i && i < lo + n && v.testBit (i - lo)
          && !(SMap.find s.sup.w1cSet (w1cKey d r i)).any (fun c => c / 2 == s.now / 2)))
end

