-- ==== Sys2Proof/Laws/State.lean ====
section
/-! SUPPORT. What each update of a part of State leaves: one lemma per field per update, true by definition. -/

namespace Sys2Proof.Laws

open Sys2Proof Sys2Proof.Machine

/-! ### Updates of `banks` -/

@[simp] theorem onBanks_package (s : State) (f : BankSt → BankSt) : (s.onBanks f).package = s.package := rfl
@[simp] theorem onBanks_now (s : State) (f : BankSt → BankSt) : (s.onBanks f).now = s.now := rfl
@[simp] theorem onBanks_frame (s : State) (f : BankSt → BankSt) : (s.onBanks f).frame = s.frame := rfl
@[simp] theorem onBanks_frameBase (s : State) (f : BankSt → BankSt) : (s.onBanks f).frameBase = s.frameBase := rfl
@[simp] theorem onBanks_pkgTime (s : State) (f : BankSt → BankSt) : (s.onBanks f).pkgTime = s.pkgTime := rfl
@[simp] theorem onBanks_draws (s : State) (f : BankSt → BankSt) : (s.onBanks f).draws = s.draws := rfl
@[simp] theorem onBanks_regs (s : State) (f : BankSt → BankSt) : (s.onBanks f).regs = s.regs := rfl
@[simp] theorem onBanks_pages (s : State) (f : BankSt → BankSt) : (s.onBanks f).pages = s.pages := rfl
@[simp] theorem onBanks_pairLo (s : State) (f : BankSt → BankSt) : (s.onBanks f).pairLo = s.pairLo := rfl
@[simp] theorem onBanks_pairHi (s : State) (f : BankSt → BankSt) : (s.onBanks f).pairHi = s.pairHi := rfl
@[simp] theorem onBanks_banks (s : State) (f : BankSt → BankSt) : (s.onBanks f).banks = f s.banks := rfl
@[simp] theorem onBanks_fabric (s : State) (f : BankSt → BankSt) : (s.onBanks f).fabric = s.fabric := rfl
@[simp] theorem onBanks_streams (s : State) (f : BankSt → BankSt) : (s.onBanks f).streams = s.streams := rfl
@[simp] theorem onBanks_queues (s : State) (f : BankSt → BankSt) : (s.onBanks f).queues = s.queues := rfl
@[simp] theorem onBanks_remote (s : State) (f : BankSt → BankSt) : (s.onBanks f).remote = s.remote := rfl
@[simp] theorem onBanks_replicas (s : State) (f : BankSt → BankSt) : (s.onBanks f).replicas = s.replicas := rfl
@[simp] theorem onBanks_security (s : State) (f : BankSt → BankSt) : (s.onBanks f).security = s.security := rfl
@[simp] theorem onBanks_power (s : State) (f : BankSt → BankSt) : (s.onBanks f).power = s.power := rfl
@[simp] theorem onBanks_flash (s : State) (f : BankSt → BankSt) : (s.onBanks f).flash = s.flash := rfl
@[simp] theorem onBanks_boots (s : State) (f : BankSt → BankSt) : (s.onBanks f).boots = s.boots := rfl
@[simp] theorem onBanks_sup (s : State) (f : BankSt → BankSt) : (s.onBanks f).sup = s.sup := rfl
@[simp] theorem onBanks_out (s : State) (f : BankSt → BankSt) : (s.onBanks f).out = s.out := rfl
@[simp] theorem onBanks_pending (s : State) (f : BankSt → BankSt) : (s.onBanks f).pending = s.pending := rfl

/-! ### Updates of `fabric` -/

@[simp] theorem onFabric_package (s : State) (f : FabricSt → FabricSt) : (s.onFabric f).package = s.package := rfl
@[simp] theorem onFabric_now (s : State) (f : FabricSt → FabricSt) : (s.onFabric f).now = s.now := rfl
@[simp] theorem onFabric_frame (s : State) (f : FabricSt → FabricSt) : (s.onFabric f).frame = s.frame := rfl
@[simp] theorem onFabric_frameBase (s : State) (f : FabricSt → FabricSt) : (s.onFabric f).frameBase = s.frameBase := rfl
@[simp] theorem onFabric_pkgTime (s : State) (f : FabricSt → FabricSt) : (s.onFabric f).pkgTime = s.pkgTime := rfl
@[simp] theorem onFabric_draws (s : State) (f : FabricSt → FabricSt) : (s.onFabric f).draws = s.draws := rfl
@[simp] theorem onFabric_regs (s : State) (f : FabricSt → FabricSt) : (s.onFabric f).regs = s.regs := rfl
@[simp] theorem onFabric_pages (s : State) (f : FabricSt → FabricSt) : (s.onFabric f).pages = s.pages := rfl
@[simp] theorem onFabric_pairLo (s : State) (f : FabricSt → FabricSt) : (s.onFabric f).pairLo = s.pairLo := rfl
@[simp] theorem onFabric_pairHi (s : State) (f : FabricSt → FabricSt) : (s.onFabric f).pairHi = s.pairHi := rfl
@[simp] theorem onFabric_banks (s : State) (f : FabricSt → FabricSt) : (s.onFabric f).banks = s.banks := rfl
@[simp] theorem onFabric_fabric (s : State) (f : FabricSt → FabricSt) : (s.onFabric f).fabric = f s.fabric := rfl
@[simp] theorem onFabric_streams (s : State) (f : FabricSt → FabricSt) : (s.onFabric f).streams = s.streams := rfl
@[simp] theorem onFabric_queues (s : State) (f : FabricSt → FabricSt) : (s.onFabric f).queues = s.queues := rfl
@[simp] theorem onFabric_remote (s : State) (f : FabricSt → FabricSt) : (s.onFabric f).remote = s.remote := rfl
@[simp] theorem onFabric_replicas (s : State) (f : FabricSt → FabricSt) : (s.onFabric f).replicas = s.replicas := rfl
@[simp] theorem onFabric_security (s : State) (f : FabricSt → FabricSt) : (s.onFabric f).security = s.security := rfl
@[simp] theorem onFabric_power (s : State) (f : FabricSt → FabricSt) : (s.onFabric f).power = s.power := rfl
@[simp] theorem onFabric_flash (s : State) (f : FabricSt → FabricSt) : (s.onFabric f).flash = s.flash := rfl
@[simp] theorem onFabric_boots (s : State) (f : FabricSt → FabricSt) : (s.onFabric f).boots = s.boots := rfl
@[simp] theorem onFabric_sup (s : State) (f : FabricSt → FabricSt) : (s.onFabric f).sup = s.sup := rfl
@[simp] theorem onFabric_out (s : State) (f : FabricSt → FabricSt) : (s.onFabric f).out = s.out := rfl
@[simp] theorem onFabric_pending (s : State) (f : FabricSt → FabricSt) : (s.onFabric f).pending = s.pending := rfl

/-! ### Updates of `streams` -/

@[simp] theorem onStreams_package (s : State) (f : StreamSt → StreamSt) : (s.onStreams f).package = s.package := rfl
@[simp] theorem onStreams_now (s : State) (f : StreamSt → StreamSt) : (s.onStreams f).now = s.now := rfl
@[simp] theorem onStreams_frame (s : State) (f : StreamSt → StreamSt) : (s.onStreams f).frame = s.frame := rfl
@[simp] theorem onStreams_frameBase (s : State) (f : StreamSt → StreamSt) : (s.onStreams f).frameBase = s.frameBase := rfl
@[simp] theorem onStreams_pkgTime (s : State) (f : StreamSt → StreamSt) : (s.onStreams f).pkgTime = s.pkgTime := rfl
@[simp] theorem onStreams_draws (s : State) (f : StreamSt → StreamSt) : (s.onStreams f).draws = s.draws := rfl
@[simp] theorem onStreams_regs (s : State) (f : StreamSt → StreamSt) : (s.onStreams f).regs = s.regs := rfl
@[simp] theorem onStreams_pages (s : State) (f : StreamSt → StreamSt) : (s.onStreams f).pages = s.pages := rfl
@[simp] theorem onStreams_pairLo (s : State) (f : StreamSt → StreamSt) : (s.onStreams f).pairLo = s.pairLo := rfl
@[simp] theorem onStreams_pairHi (s : State) (f : StreamSt → StreamSt) : (s.onStreams f).pairHi = s.pairHi := rfl
@[simp] theorem onStreams_banks (s : State) (f : StreamSt → StreamSt) : (s.onStreams f).banks = s.banks := rfl
@[simp] theorem onStreams_fabric (s : State) (f : StreamSt → StreamSt) : (s.onStreams f).fabric = s.fabric := rfl
@[simp] theorem onStreams_streams (s : State) (f : StreamSt → StreamSt) : (s.onStreams f).streams = f s.streams := rfl
@[simp] theorem onStreams_queues (s : State) (f : StreamSt → StreamSt) : (s.onStreams f).queues = s.queues := rfl
@[simp] theorem onStreams_remote (s : State) (f : StreamSt → StreamSt) : (s.onStreams f).remote = s.remote := rfl
@[simp] theorem onStreams_replicas (s : State) (f : StreamSt → StreamSt) : (s.onStreams f).replicas = s.replicas := rfl
@[simp] theorem onStreams_security (s : State) (f : StreamSt → StreamSt) : (s.onStreams f).security = s.security := rfl
@[simp] theorem onStreams_power (s : State) (f : StreamSt → StreamSt) : (s.onStreams f).power = s.power := rfl
@[simp] theorem onStreams_flash (s : State) (f : StreamSt → StreamSt) : (s.onStreams f).flash = s.flash := rfl
@[simp] theorem onStreams_boots (s : State) (f : StreamSt → StreamSt) : (s.onStreams f).boots = s.boots := rfl
@[simp] theorem onStreams_sup (s : State) (f : StreamSt → StreamSt) : (s.onStreams f).sup = s.sup := rfl
@[simp] theorem onStreams_out (s : State) (f : StreamSt → StreamSt) : (s.onStreams f).out = s.out := rfl
@[simp] theorem onStreams_pending (s : State) (f : StreamSt → StreamSt) : (s.onStreams f).pending = s.pending := rfl

/-! ### Updates of `queues` -/

@[simp] theorem onQueues_package (s : State) (f : QueueSt → QueueSt) : (s.onQueues f).package = s.package := rfl
@[simp] theorem onQueues_now (s : State) (f : QueueSt → QueueSt) : (s.onQueues f).now = s.now := rfl
@[simp] theorem onQueues_frame (s : State) (f : QueueSt → QueueSt) : (s.onQueues f).frame = s.frame := rfl
@[simp] theorem onQueues_frameBase (s : State) (f : QueueSt → QueueSt) : (s.onQueues f).frameBase = s.frameBase := rfl
@[simp] theorem onQueues_pkgTime (s : State) (f : QueueSt → QueueSt) : (s.onQueues f).pkgTime = s.pkgTime := rfl
@[simp] theorem onQueues_draws (s : State) (f : QueueSt → QueueSt) : (s.onQueues f).draws = s.draws := rfl
@[simp] theorem onQueues_regs (s : State) (f : QueueSt → QueueSt) : (s.onQueues f).regs = s.regs := rfl
@[simp] theorem onQueues_pages (s : State) (f : QueueSt → QueueSt) : (s.onQueues f).pages = s.pages := rfl
@[simp] theorem onQueues_pairLo (s : State) (f : QueueSt → QueueSt) : (s.onQueues f).pairLo = s.pairLo := rfl
@[simp] theorem onQueues_pairHi (s : State) (f : QueueSt → QueueSt) : (s.onQueues f).pairHi = s.pairHi := rfl
@[simp] theorem onQueues_banks (s : State) (f : QueueSt → QueueSt) : (s.onQueues f).banks = s.banks := rfl
@[simp] theorem onQueues_fabric (s : State) (f : QueueSt → QueueSt) : (s.onQueues f).fabric = s.fabric := rfl
@[simp] theorem onQueues_streams (s : State) (f : QueueSt → QueueSt) : (s.onQueues f).streams = s.streams := rfl
@[simp] theorem onQueues_queues (s : State) (f : QueueSt → QueueSt) : (s.onQueues f).queues = f s.queues := rfl
@[simp] theorem onQueues_remote (s : State) (f : QueueSt → QueueSt) : (s.onQueues f).remote = s.remote := rfl
@[simp] theorem onQueues_replicas (s : State) (f : QueueSt → QueueSt) : (s.onQueues f).replicas = s.replicas := rfl
@[simp] theorem onQueues_security (s : State) (f : QueueSt → QueueSt) : (s.onQueues f).security = s.security := rfl
@[simp] theorem onQueues_power (s : State) (f : QueueSt → QueueSt) : (s.onQueues f).power = s.power := rfl
@[simp] theorem onQueues_flash (s : State) (f : QueueSt → QueueSt) : (s.onQueues f).flash = s.flash := rfl
@[simp] theorem onQueues_boots (s : State) (f : QueueSt → QueueSt) : (s.onQueues f).boots = s.boots := rfl
@[simp] theorem onQueues_sup (s : State) (f : QueueSt → QueueSt) : (s.onQueues f).sup = s.sup := rfl
@[simp] theorem onQueues_out (s : State) (f : QueueSt → QueueSt) : (s.onQueues f).out = s.out := rfl
@[simp] theorem onQueues_pending (s : State) (f : QueueSt → QueueSt) : (s.onQueues f).pending = s.pending := rfl

/-! ### Updates of `remote` -/

@[simp] theorem onRemote_package (s : State) (f : RemoteSt → RemoteSt) : (s.onRemote f).package = s.package := rfl
@[simp] theorem onRemote_now (s : State) (f : RemoteSt → RemoteSt) : (s.onRemote f).now = s.now := rfl
@[simp] theorem onRemote_frame (s : State) (f : RemoteSt → RemoteSt) : (s.onRemote f).frame = s.frame := rfl
@[simp] theorem onRemote_frameBase (s : State) (f : RemoteSt → RemoteSt) : (s.onRemote f).frameBase = s.frameBase := rfl
@[simp] theorem onRemote_pkgTime (s : State) (f : RemoteSt → RemoteSt) : (s.onRemote f).pkgTime = s.pkgTime := rfl
@[simp] theorem onRemote_draws (s : State) (f : RemoteSt → RemoteSt) : (s.onRemote f).draws = s.draws := rfl
@[simp] theorem onRemote_regs (s : State) (f : RemoteSt → RemoteSt) : (s.onRemote f).regs = s.regs := rfl
@[simp] theorem onRemote_pages (s : State) (f : RemoteSt → RemoteSt) : (s.onRemote f).pages = s.pages := rfl
@[simp] theorem onRemote_pairLo (s : State) (f : RemoteSt → RemoteSt) : (s.onRemote f).pairLo = s.pairLo := rfl
@[simp] theorem onRemote_pairHi (s : State) (f : RemoteSt → RemoteSt) : (s.onRemote f).pairHi = s.pairHi := rfl
@[simp] theorem onRemote_banks (s : State) (f : RemoteSt → RemoteSt) : (s.onRemote f).banks = s.banks := rfl
@[simp] theorem onRemote_fabric (s : State) (f : RemoteSt → RemoteSt) : (s.onRemote f).fabric = s.fabric := rfl
@[simp] theorem onRemote_streams (s : State) (f : RemoteSt → RemoteSt) : (s.onRemote f).streams = s.streams := rfl
@[simp] theorem onRemote_queues (s : State) (f : RemoteSt → RemoteSt) : (s.onRemote f).queues = s.queues := rfl
@[simp] theorem onRemote_remote (s : State) (f : RemoteSt → RemoteSt) : (s.onRemote f).remote = f s.remote := rfl
@[simp] theorem onRemote_replicas (s : State) (f : RemoteSt → RemoteSt) : (s.onRemote f).replicas = s.replicas := rfl
@[simp] theorem onRemote_security (s : State) (f : RemoteSt → RemoteSt) : (s.onRemote f).security = s.security := rfl
@[simp] theorem onRemote_power (s : State) (f : RemoteSt → RemoteSt) : (s.onRemote f).power = s.power := rfl
@[simp] theorem onRemote_flash (s : State) (f : RemoteSt → RemoteSt) : (s.onRemote f).flash = s.flash := rfl
@[simp] theorem onRemote_boots (s : State) (f : RemoteSt → RemoteSt) : (s.onRemote f).boots = s.boots := rfl
@[simp] theorem onRemote_sup (s : State) (f : RemoteSt → RemoteSt) : (s.onRemote f).sup = s.sup := rfl
@[simp] theorem onRemote_out (s : State) (f : RemoteSt → RemoteSt) : (s.onRemote f).out = s.out := rfl
@[simp] theorem onRemote_pending (s : State) (f : RemoteSt → RemoteSt) : (s.onRemote f).pending = s.pending := rfl

/-! ### Updates of `replicas` -/

@[simp] theorem onReplicas_package (s : State) (f : ReplicaSt → ReplicaSt) : (s.onReplicas f).package = s.package := rfl
@[simp] theorem onReplicas_now (s : State) (f : ReplicaSt → ReplicaSt) : (s.onReplicas f).now = s.now := rfl
@[simp] theorem onReplicas_frame (s : State) (f : ReplicaSt → ReplicaSt) : (s.onReplicas f).frame = s.frame := rfl
@[simp] theorem onReplicas_frameBase (s : State) (f : ReplicaSt → ReplicaSt) : (s.onReplicas f).frameBase = s.frameBase := rfl
@[simp] theorem onReplicas_pkgTime (s : State) (f : ReplicaSt → ReplicaSt) : (s.onReplicas f).pkgTime = s.pkgTime := rfl
@[simp] theorem onReplicas_draws (s : State) (f : ReplicaSt → ReplicaSt) : (s.onReplicas f).draws = s.draws := rfl
@[simp] theorem onReplicas_regs (s : State) (f : ReplicaSt → ReplicaSt) : (s.onReplicas f).regs = s.regs := rfl
@[simp] theorem onReplicas_pages (s : State) (f : ReplicaSt → ReplicaSt) : (s.onReplicas f).pages = s.pages := rfl
@[simp] theorem onReplicas_pairLo (s : State) (f : ReplicaSt → ReplicaSt) : (s.onReplicas f).pairLo = s.pairLo := rfl
@[simp] theorem onReplicas_pairHi (s : State) (f : ReplicaSt → ReplicaSt) : (s.onReplicas f).pairHi = s.pairHi := rfl
@[simp] theorem onReplicas_banks (s : State) (f : ReplicaSt → ReplicaSt) : (s.onReplicas f).banks = s.banks := rfl
@[simp] theorem onReplicas_fabric (s : State) (f : ReplicaSt → ReplicaSt) : (s.onReplicas f).fabric = s.fabric := rfl
@[simp] theorem onReplicas_streams (s : State) (f : ReplicaSt → ReplicaSt) : (s.onReplicas f).streams = s.streams := rfl
@[simp] theorem onReplicas_queues (s : State) (f : ReplicaSt → ReplicaSt) : (s.onReplicas f).queues = s.queues := rfl
@[simp] theorem onReplicas_remote (s : State) (f : ReplicaSt → ReplicaSt) : (s.onReplicas f).remote = s.remote := rfl
@[simp] theorem onReplicas_replicas (s : State) (f : ReplicaSt → ReplicaSt) : (s.onReplicas f).replicas = f s.replicas := rfl
@[simp] theorem onReplicas_security (s : State) (f : ReplicaSt → ReplicaSt) : (s.onReplicas f).security = s.security := rfl
@[simp] theorem onReplicas_power (s : State) (f : ReplicaSt → ReplicaSt) : (s.onReplicas f).power = s.power := rfl
@[simp] theorem onReplicas_flash (s : State) (f : ReplicaSt → ReplicaSt) : (s.onReplicas f).flash = s.flash := rfl
@[simp] theorem onReplicas_boots (s : State) (f : ReplicaSt → ReplicaSt) : (s.onReplicas f).boots = s.boots := rfl
@[simp] theorem onReplicas_sup (s : State) (f : ReplicaSt → ReplicaSt) : (s.onReplicas f).sup = s.sup := rfl
@[simp] theorem onReplicas_out (s : State) (f : ReplicaSt → ReplicaSt) : (s.onReplicas f).out = s.out := rfl
@[simp] theorem onReplicas_pending (s : State) (f : ReplicaSt → ReplicaSt) : (s.onReplicas f).pending = s.pending := rfl

/-! ### Updates of `security` -/

@[simp] theorem onSecurity_package (s : State) (f : SecuritySt → SecuritySt) : (s.onSecurity f).package = s.package := rfl
@[simp] theorem onSecurity_now (s : State) (f : SecuritySt → SecuritySt) : (s.onSecurity f).now = s.now := rfl
@[simp] theorem onSecurity_frame (s : State) (f : SecuritySt → SecuritySt) : (s.onSecurity f).frame = s.frame := rfl
@[simp] theorem onSecurity_frameBase (s : State) (f : SecuritySt → SecuritySt) : (s.onSecurity f).frameBase = s.frameBase := rfl
@[simp] theorem onSecurity_pkgTime (s : State) (f : SecuritySt → SecuritySt) : (s.onSecurity f).pkgTime = s.pkgTime := rfl
@[simp] theorem onSecurity_draws (s : State) (f : SecuritySt → SecuritySt) : (s.onSecurity f).draws = s.draws := rfl
@[simp] theorem onSecurity_regs (s : State) (f : SecuritySt → SecuritySt) : (s.onSecurity f).regs = s.regs := rfl
@[simp] theorem onSecurity_pages (s : State) (f : SecuritySt → SecuritySt) : (s.onSecurity f).pages = s.pages := rfl
@[simp] theorem onSecurity_pairLo (s : State) (f : SecuritySt → SecuritySt) : (s.onSecurity f).pairLo = s.pairLo := rfl
@[simp] theorem onSecurity_pairHi (s : State) (f : SecuritySt → SecuritySt) : (s.onSecurity f).pairHi = s.pairHi := rfl
@[simp] theorem onSecurity_banks (s : State) (f : SecuritySt → SecuritySt) : (s.onSecurity f).banks = s.banks := rfl
@[simp] theorem onSecurity_fabric (s : State) (f : SecuritySt → SecuritySt) : (s.onSecurity f).fabric = s.fabric := rfl
@[simp] theorem onSecurity_streams (s : State) (f : SecuritySt → SecuritySt) : (s.onSecurity f).streams = s.streams := rfl
@[simp] theorem onSecurity_queues (s : State) (f : SecuritySt → SecuritySt) : (s.onSecurity f).queues = s.queues := rfl
@[simp] theorem onSecurity_remote (s : State) (f : SecuritySt → SecuritySt) : (s.onSecurity f).remote = s.remote := rfl
@[simp] theorem onSecurity_replicas (s : State) (f : SecuritySt → SecuritySt) : (s.onSecurity f).replicas = s.replicas := rfl
@[simp] theorem onSecurity_security (s : State) (f : SecuritySt → SecuritySt) : (s.onSecurity f).security = f s.security := rfl
@[simp] theorem onSecurity_power (s : State) (f : SecuritySt → SecuritySt) : (s.onSecurity f).power = s.power := rfl
@[simp] theorem onSecurity_flash (s : State) (f : SecuritySt → SecuritySt) : (s.onSecurity f).flash = s.flash := rfl
@[simp] theorem onSecurity_boots (s : State) (f : SecuritySt → SecuritySt) : (s.onSecurity f).boots = s.boots := rfl
@[simp] theorem onSecurity_sup (s : State) (f : SecuritySt → SecuritySt) : (s.onSecurity f).sup = s.sup := rfl
@[simp] theorem onSecurity_out (s : State) (f : SecuritySt → SecuritySt) : (s.onSecurity f).out = s.out := rfl
@[simp] theorem onSecurity_pending (s : State) (f : SecuritySt → SecuritySt) : (s.onSecurity f).pending = s.pending := rfl

/-! ### Updates of `power` -/

@[simp] theorem onPower_package (s : State) (f : PowerSt → PowerSt) : (s.onPower f).package = s.package := rfl
@[simp] theorem onPower_now (s : State) (f : PowerSt → PowerSt) : (s.onPower f).now = s.now := rfl
@[simp] theorem onPower_frame (s : State) (f : PowerSt → PowerSt) : (s.onPower f).frame = s.frame := rfl
@[simp] theorem onPower_frameBase (s : State) (f : PowerSt → PowerSt) : (s.onPower f).frameBase = s.frameBase := rfl
@[simp] theorem onPower_pkgTime (s : State) (f : PowerSt → PowerSt) : (s.onPower f).pkgTime = s.pkgTime := rfl
@[simp] theorem onPower_draws (s : State) (f : PowerSt → PowerSt) : (s.onPower f).draws = s.draws := rfl
@[simp] theorem onPower_regs (s : State) (f : PowerSt → PowerSt) : (s.onPower f).regs = s.regs := rfl
@[simp] theorem onPower_pages (s : State) (f : PowerSt → PowerSt) : (s.onPower f).pages = s.pages := rfl
@[simp] theorem onPower_pairLo (s : State) (f : PowerSt → PowerSt) : (s.onPower f).pairLo = s.pairLo := rfl
@[simp] theorem onPower_pairHi (s : State) (f : PowerSt → PowerSt) : (s.onPower f).pairHi = s.pairHi := rfl
@[simp] theorem onPower_banks (s : State) (f : PowerSt → PowerSt) : (s.onPower f).banks = s.banks := rfl
@[simp] theorem onPower_fabric (s : State) (f : PowerSt → PowerSt) : (s.onPower f).fabric = s.fabric := rfl
@[simp] theorem onPower_streams (s : State) (f : PowerSt → PowerSt) : (s.onPower f).streams = s.streams := rfl
@[simp] theorem onPower_queues (s : State) (f : PowerSt → PowerSt) : (s.onPower f).queues = s.queues := rfl
@[simp] theorem onPower_remote (s : State) (f : PowerSt → PowerSt) : (s.onPower f).remote = s.remote := rfl
@[simp] theorem onPower_replicas (s : State) (f : PowerSt → PowerSt) : (s.onPower f).replicas = s.replicas := rfl
@[simp] theorem onPower_security (s : State) (f : PowerSt → PowerSt) : (s.onPower f).security = s.security := rfl
@[simp] theorem onPower_power (s : State) (f : PowerSt → PowerSt) : (s.onPower f).power = f s.power := rfl
@[simp] theorem onPower_flash (s : State) (f : PowerSt → PowerSt) : (s.onPower f).flash = s.flash := rfl
@[simp] theorem onPower_boots (s : State) (f : PowerSt → PowerSt) : (s.onPower f).boots = s.boots := rfl
@[simp] theorem onPower_sup (s : State) (f : PowerSt → PowerSt) : (s.onPower f).sup = s.sup := rfl
@[simp] theorem onPower_out (s : State) (f : PowerSt → PowerSt) : (s.onPower f).out = s.out := rfl
@[simp] theorem onPower_pending (s : State) (f : PowerSt → PowerSt) : (s.onPower f).pending = s.pending := rfl

/-! ### Updates of `sup` -/

@[simp] theorem onSup_package (s : State) (f : SupSt → SupSt) : (s.onSup f).package = s.package := rfl
@[simp] theorem onSup_now (s : State) (f : SupSt → SupSt) : (s.onSup f).now = s.now := rfl
@[simp] theorem onSup_frame (s : State) (f : SupSt → SupSt) : (s.onSup f).frame = s.frame := rfl
@[simp] theorem onSup_frameBase (s : State) (f : SupSt → SupSt) : (s.onSup f).frameBase = s.frameBase := rfl
@[simp] theorem onSup_pkgTime (s : State) (f : SupSt → SupSt) : (s.onSup f).pkgTime = s.pkgTime := rfl
@[simp] theorem onSup_draws (s : State) (f : SupSt → SupSt) : (s.onSup f).draws = s.draws := rfl
@[simp] theorem onSup_regs (s : State) (f : SupSt → SupSt) : (s.onSup f).regs = s.regs := rfl
@[simp] theorem onSup_pages (s : State) (f : SupSt → SupSt) : (s.onSup f).pages = s.pages := rfl
@[simp] theorem onSup_pairLo (s : State) (f : SupSt → SupSt) : (s.onSup f).pairLo = s.pairLo := rfl
@[simp] theorem onSup_pairHi (s : State) (f : SupSt → SupSt) : (s.onSup f).pairHi = s.pairHi := rfl
@[simp] theorem onSup_banks (s : State) (f : SupSt → SupSt) : (s.onSup f).banks = s.banks := rfl
@[simp] theorem onSup_fabric (s : State) (f : SupSt → SupSt) : (s.onSup f).fabric = s.fabric := rfl
@[simp] theorem onSup_streams (s : State) (f : SupSt → SupSt) : (s.onSup f).streams = s.streams := rfl
@[simp] theorem onSup_queues (s : State) (f : SupSt → SupSt) : (s.onSup f).queues = s.queues := rfl
@[simp] theorem onSup_remote (s : State) (f : SupSt → SupSt) : (s.onSup f).remote = s.remote := rfl
@[simp] theorem onSup_replicas (s : State) (f : SupSt → SupSt) : (s.onSup f).replicas = s.replicas := rfl
@[simp] theorem onSup_security (s : State) (f : SupSt → SupSt) : (s.onSup f).security = s.security := rfl
@[simp] theorem onSup_power (s : State) (f : SupSt → SupSt) : (s.onSup f).power = s.power := rfl
@[simp] theorem onSup_flash (s : State) (f : SupSt → SupSt) : (s.onSup f).flash = s.flash := rfl
@[simp] theorem onSup_boots (s : State) (f : SupSt → SupSt) : (s.onSup f).boots = s.boots := rfl
@[simp] theorem onSup_sup (s : State) (f : SupSt → SupSt) : (s.onSup f).sup = f s.sup := rfl
@[simp] theorem onSup_out (s : State) (f : SupSt → SupSt) : (s.onSup f).out = s.out := rfl
@[simp] theorem onSup_pending (s : State) (f : SupSt → SupSt) : (s.onSup f).pending = s.pending := rfl

/-! ### A free draw and an answer -/

@[simp] theorem draw_package (s : State) : s.draw.package = s.package := rfl
@[simp] theorem draw_now (s : State) : s.draw.now = s.now := rfl
@[simp] theorem draw_frame (s : State) : s.draw.frame = s.frame := rfl
@[simp] theorem draw_frameBase (s : State) : s.draw.frameBase = s.frameBase := rfl
@[simp] theorem draw_pkgTime (s : State) : s.draw.pkgTime = s.pkgTime := rfl
@[simp] theorem draw_draws (s : State) : s.draw.draws = s.draws + 1 := rfl
@[simp] theorem draw_regs (s : State) : s.draw.regs = s.regs := rfl
@[simp] theorem draw_pages (s : State) : s.draw.pages = s.pages := rfl
@[simp] theorem draw_pairLo (s : State) : s.draw.pairLo = s.pairLo := rfl
@[simp] theorem draw_pairHi (s : State) : s.draw.pairHi = s.pairHi := rfl
@[simp] theorem draw_banks (s : State) : s.draw.banks = s.banks := rfl
@[simp] theorem draw_fabric (s : State) : s.draw.fabric = s.fabric := rfl
@[simp] theorem draw_streams (s : State) : s.draw.streams = s.streams := rfl
@[simp] theorem draw_queues (s : State) : s.draw.queues = s.queues := rfl
@[simp] theorem draw_remote (s : State) : s.draw.remote = s.remote := rfl
@[simp] theorem draw_replicas (s : State) : s.draw.replicas = s.replicas := rfl
@[simp] theorem draw_security (s : State) : s.draw.security = s.security := rfl
@[simp] theorem draw_power (s : State) : s.draw.power = s.power := rfl
@[simp] theorem draw_flash (s : State) : s.draw.flash = s.flash := rfl
@[simp] theorem draw_boots (s : State) : s.draw.boots = s.boots := rfl
@[simp] theorem draw_sup (s : State) : s.draw.sup = s.sup := rfl
@[simp] theorem draw_out (s : State) : s.draw.out = s.out := rfl
@[simp] theorem draw_pending (s : State) : s.draw.pending = s.pending := rfl
@[simp] theorem emitOut_package (s : State) (o : Output) : (s.emitOut o).package = s.package := rfl
@[simp] theorem emitOut_now (s : State) (o : Output) : (s.emitOut o).now = s.now := rfl
@[simp] theorem emitOut_frame (s : State) (o : Output) : (s.emitOut o).frame = s.frame := rfl
@[simp] theorem emitOut_frameBase (s : State) (o : Output) : (s.emitOut o).frameBase = s.frameBase := rfl
@[simp] theorem emitOut_pkgTime (s : State) (o : Output) : (s.emitOut o).pkgTime = s.pkgTime := rfl
@[simp] theorem emitOut_draws (s : State) (o : Output) : (s.emitOut o).draws = s.draws := rfl
@[simp] theorem emitOut_regs (s : State) (o : Output) : (s.emitOut o).regs = s.regs := rfl
@[simp] theorem emitOut_pages (s : State) (o : Output) : (s.emitOut o).pages = s.pages := rfl
@[simp] theorem emitOut_pairLo (s : State) (o : Output) : (s.emitOut o).pairLo = s.pairLo := rfl
@[simp] theorem emitOut_pairHi (s : State) (o : Output) : (s.emitOut o).pairHi = s.pairHi := rfl
@[simp] theorem emitOut_banks (s : State) (o : Output) : (s.emitOut o).banks = s.banks := rfl
@[simp] theorem emitOut_fabric (s : State) (o : Output) : (s.emitOut o).fabric = s.fabric := rfl
@[simp] theorem emitOut_streams (s : State) (o : Output) : (s.emitOut o).streams = s.streams := rfl
@[simp] theorem emitOut_queues (s : State) (o : Output) : (s.emitOut o).queues = s.queues := rfl
@[simp] theorem emitOut_remote (s : State) (o : Output) : (s.emitOut o).remote = s.remote := rfl
@[simp] theorem emitOut_replicas (s : State) (o : Output) : (s.emitOut o).replicas = s.replicas := rfl
@[simp] theorem emitOut_security (s : State) (o : Output) : (s.emitOut o).security = s.security := rfl
@[simp] theorem emitOut_power (s : State) (o : Output) : (s.emitOut o).power = s.power := rfl
@[simp] theorem emitOut_flash (s : State) (o : Output) : (s.emitOut o).flash = s.flash := rfl
@[simp] theorem emitOut_boots (s : State) (o : Output) : (s.emitOut o).boots = s.boots := rfl
@[simp] theorem emitOut_sup (s : State) (o : Output) : (s.emitOut o).sup = s.sup := rfl
@[simp] theorem emitOut_out (s : State) (o : Output) : (s.emitOut o).out = o :: s.out := rfl
@[simp] theorem emitOut_pending (s : State) (o : Output) : (s.emitOut o).pending = s.pending := rfl

end Sys2Proof.Laws
end

