-- ==== Sys2Proof/Laws/Parts.lean ====
section
/-! SUPPORT. How updates of State leave its parts alone. Each lemma `<function>_part` of the files of Laws says that the function leaves
alone every part but the ones it lists. -/

namespace Sys2Proof.Laws

open Sys2Proof Sys2Proof.Machine


@[simp] theorem part_ite {c : Prop} [Decidable c] (a b : State) (p : StatePart) :
    part (if c then a else b) p = if c then part a p else part b p := by split <;> rfl

@[simp] theorem foldl_part {α : Type} (p : StatePart) (f : State → α → State) (h : ∀ s a, part (f s a) p = part s p) (l : List α) :
    ∀ s, part (l.foldl f s) p = part s p := by
  induction l with
  | nil => intro s; rfl
  | cons a l ih => intro s; rw [List.foldl_cons, ih, h]

@[simp] theorem foldl_fst_part {α β : Type} (p : StatePart) (f : State × β → α → State × β) (h : ∀ s a, part (f s a).1 p = part s.1 p)
    (l : List α) : ∀ s, part (l.foldl f s).1 p = part s.1 p := by
  induction l with
  | nil => intro s; rfl
  | cons a l ih => intro s; rw [List.foldl_cons, ih, h]

@[simp] theorem set_boots_part (p : StatePart) (s : State) (v0 : SMap BootSt) (h0 : p ≠ .boots) :
    part { s with boots := v0 } p = part s p := by
  cases p <;> first | rfl | contradiction
@[simp] theorem set_draws_part (p : StatePart) (s : State) (v0 : Nat) (h0 : p ≠ .draws) :
    part { s with draws := v0 } p = part s p := by
  cases p <;> first | rfl | contradiction
@[simp] theorem set_flash_part (p : StatePart) (s : State) (v0 : SMap Flash) (h0 : p ≠ .flash) :
    part { s with flash := v0 } p = part s p := by
  cases p <;> first | rfl | contradiction
@[simp] theorem set_frame_part (p : StatePart) (s : State) (v0 : Nat) (h0 : p ≠ .frame) :
    part { s with frame := v0 } p = part s p := by
  cases p <;> first | rfl | contradiction
@[simp] theorem set_frameBase_part (p : StatePart) (s : State) (v0 : Nat) (h0 : p ≠ .frameBase) :
    part { s with frameBase := v0 } p = part s p := by
  cases p <;> first | rfl | contradiction
@[simp] theorem set_now_part (p : StatePart) (s : State) (v0 : Nat) (h0 : p ≠ .now) :
    part { s with now := v0 } p = part s p := by
  cases p <;> first | rfl | contradiction
@[simp] theorem set_out_part (p : StatePart) (s : State) (v0 : List Output) (h0 : p ≠ .out) :
    part { s with out := v0 } p = part s p := by
  cases p <;> first | rfl | contradiction
@[simp] theorem set_pages_part (p : StatePart) (s : State) (v0 : SMap Byte) (h0 : p ≠ .pages) :
    part { s with pages := v0 } p = part s p := by
  cases p <;> first | rfl | contradiction
@[simp] theorem set_pages_pairLo_pairHi_part (p : StatePart) (s : State) (v0 : SMap Byte) (v1 : SMap Word) (v2 : SMap Word) (h0 : p ≠ .pages) (h1 : p ≠ .pairLo) (h2 : p ≠ .pairHi) :
    part { s with pages := v0, pairLo := v1, pairHi := v2 } p = part s p := by
  cases p <;> first | rfl | contradiction
@[simp] theorem set_pairHi_part (p : StatePart) (s : State) (v0 : SMap Word) (h0 : p ≠ .pairHi) :
    part { s with pairHi := v0 } p = part s p := by
  cases p <;> first | rfl | contradiction
@[simp] theorem set_pairLo_part (p : StatePart) (s : State) (v0 : SMap Word) (h0 : p ≠ .pairLo) :
    part { s with pairLo := v0 } p = part s p := by
  cases p <;> first | rfl | contradiction
@[simp] theorem set_pending_part (p : StatePart) (s : State) (v0 : List Instr) (h0 : p ≠ .pending) :
    part { s with pending := v0 } p = part s p := by
  cases p <;> first | rfl | contradiction
@[simp] theorem set_pkgTime_draws_part (p : StatePart) (s : State) (v0 : BitVec 64) (v1 : Nat) (h0 : p ≠ .pkgTime) (h1 : p ≠ .draws) :
    part { s with pkgTime := v0, draws := v1 } p = part s p := by
  cases p <;> first | rfl | contradiction
@[simp] theorem set_regs_part (p : StatePart) (s : State) (v0 : SMap Word) (h0 : p ≠ .regs) :
    part { s with regs := v0 } p = part s p := by
  cases p <;> first | rfl | contradiction
@[simp] theorem onBanks_cacheLru_part (p : StatePart) (s : State) (v0 : BankSt → SMap Nat) (h0 : p ≠ .banksCacheLru) :
    part (s.onBanks (fun k => { k with cacheLru := v0 k })) p = part s p := by
  cases p <;> first | rfl | contradiction
@[simp] theorem onBanks_cacheWays_part (p : StatePart) (s : State) (v0 : BankSt → SMap CacheWay) (h0 : p ≠ .banksCacheWays) :
    part (s.onBanks (fun k => { k with cacheWays := v0 k })) p = part s p := by
  cases p <;> first | rfl | contradiction
@[simp] theorem onBanks_cacheWays_cacheLru_part (p : StatePart) (s : State) (v0 : BankSt → SMap CacheWay) (v1 : BankSt → SMap Nat) (h0 : p ≠ .banksCacheWays) (h1 : p ≠ .banksCacheLru) :
    part (s.onBanks (fun k => { k with cacheWays := v0 k, cacheLru := v1 k })) p = part s p := by
  cases p <;> first | rfl | contradiction
@[simp] theorem onBanks_classMap_sealMap_part (p : StatePart) (s : State) (v0 : BankSt → SMap Protection) (v1 : BankSt → SMap SealState) (h0 : p ≠ .banksClassMap) (h1 : p ≠ .banksSealMap) :
    part (s.onBanks (fun k => { k with classMap := v0 k, sealMap := v1 k })) p = part s p := by
  cases p <;> first | rfl | contradiction
@[simp] theorem onBanks_collations_part (p : StatePart) (s : State) (v0 : BankSt → List Collation) (h0 : p ≠ .banksCollations) :
    part (s.onBanks (fun k => { k with collations := v0 k })) p = part s p := by
  cases p <;> first | rfl | contradiction
@[simp] theorem onBanks_folioClears_part (p : StatePart) (s : State) (v0 : BankSt → List FolioChange) (h0 : p ≠ .banksFolioClears) :
    part (s.onBanks (fun k => { k with folioClears := v0 k })) p = part s p := by
  cases p <;> first | rfl | contradiction
@[simp] theorem onBanks_lastActive_part (p : StatePart) (s : State) (v0 : BankSt → SMap Nat) (h0 : p ≠ .banksLastActive) :
    part (s.onBanks (fun k => { k with lastActive := v0 k })) p = part s p := by
  cases p <;> first | rfl | contradiction
@[simp] theorem onBanks_lost_part (p : StatePart) (s : State) (v0 : BankSt → List LostMerge) (h0 : p ≠ .banksLost) :
    part (s.onBanks (fun k => { k with lost := v0 k })) p = part s p := by
  cases p <;> first | rfl | contradiction
@[simp] theorem onBanks_mem_part (p : StatePart) (s : State) (v0 : BankSt → List Host.Cell) (h0 : p ≠ .banksMem) :
    part (s.onBanks (fun k => { k with mem := v0 k })) p = part s p := by
  cases p <;> first | rfl | contradiction
@[simp] theorem onBanks_mem_remapCopies_part (p : StatePart) (s : State) (v0 : BankSt → List Host.Cell) (v1 : BankSt → SMap Nat) (h0 : p ≠ .banksMem) (h1 : p ≠ .banksRemapCopies) :
    part (s.onBanks (fun k => { k with mem := v0 k, remapCopies := v1 k })) p = part s p := by
  cases p <;> first | rfl | contradiction
@[simp] theorem onBanks_mem_valid_part (p : StatePart) (s : State) (v0 : BankSt → List Host.Cell) (v1 : BankSt → SMap Bool) (h0 : p ≠ .banksMem) (h1 : p ≠ .banksValid) :
    part (s.onBanks (fun k => { k with mem := v0 k, valid := v1 k })) p = part s p := by
  cases p <;> first | rfl | contradiction
@[simp] theorem onBanks_merge_part (p : StatePart) (s : State) (v0 : BankSt → List MergeEntry) (h0 : p ≠ .banksMerge) :
    part (s.onBanks (fun k => { k with merge := v0 k })) p = part s p := by
  cases p <;> first | rfl | contradiction
@[simp] theorem onBanks_pauses_part (p : StatePart) (s : State) (v0 : BankSt → SMap PauseRec) (h0 : p ≠ .banksPauses) :
    part (s.onBanks (fun k => { k with pauses := v0 k })) p = part s p := by
  cases p <;> first | rfl | contradiction
@[simp] theorem onBanks_rawOps_part (p : StatePart) (s : State) (v0 : BankSt → SMap (List RawReq)) (h0 : p ≠ .banksRawOps) :
    part (s.onBanks (fun k => { k with rawOps := v0 k })) p = part s p := by
  cases p <;> first | rfl | contradiction
@[simp] theorem onBanks_remapCopies_part (p : StatePart) (s : State) (v0 : BankSt → SMap Nat) (h0 : p ≠ .banksRemapCopies) :
    part (s.onBanks (fun k => { k with remapCopies := v0 k })) p = part s p := by
  cases p <;> first | rfl | contradiction
@[simp] theorem onBanks_sealMap_part (p : StatePart) (s : State) (v0 : BankSt → SMap SealState) (h0 : p ≠ .banksSealMap) :
    part (s.onBanks (fun k => { k with sealMap := v0 k })) p = part s p := by
  cases p <;> first | rfl | contradiction
@[simp] theorem onBanks_seals_part (p : StatePart) (s : State) (v0 : BankSt → List SealCtx) (h0 : p ≠ .banksSeals) :
    part (s.onBanks (fun k => { k with seals := v0 k })) p = part s p := by
  cases p <;> first | rfl | contradiction
@[simp] theorem onBanks_tags_part (p : StatePart) (s : State) (v0 : BankSt → SMap Word) (h0 : p ≠ .banksTags) :
    part (s.onBanks (fun k => { k with tags := v0 k })) p = part s p := by
  cases p <;> first | rfl | contradiction
@[simp] theorem onBanks_valid_part (p : StatePart) (s : State) (v0 : BankSt → SMap Bool) (h0 : p ≠ .banksValid) :
    part (s.onBanks (fun k => { k with valid := v0 k })) p = part s p := by
  cases p <;> first | rfl | contradiction
@[simp] theorem onBanks_valid_classMap_part (p : StatePart) (s : State) (v0 : BankSt → SMap Bool) (v1 : BankSt → SMap Protection) (h0 : p ≠ .banksValid) (h1 : p ≠ .banksClassMap) :
    part (s.onBanks (fun k => { k with valid := v0 k, classMap := v1 k })) p = part s p := by
  cases p <;> first | rfl | contradiction
@[simp] theorem onBanks_valid_classMap_sealMap_tags_pauses_zeroing_folioClears_remapCopies_rawOps_lastActive_merge_collations_seals_cacheWays_cacheLru_lost_part (p : StatePart) (s : State) (v0 : BankSt → SMap Bool) (v1 : BankSt → SMap Protection) (v2 : BankSt → SMap SealState) (v3 : BankSt → SMap Word) (v4 : BankSt → SMap PauseRec) (v5 : BankSt → SMap Nat) (v6 : BankSt → List FolioChange) (v7 : BankSt → SMap Nat) (v8 : BankSt → SMap (List RawReq)) (v9 : BankSt → SMap Nat) (v10 : BankSt → List MergeEntry) (v11 : BankSt → List Collation) (v12 : BankSt → List SealCtx) (v13 : BankSt → SMap CacheWay) (v14 : BankSt → SMap Nat) (v15 : BankSt → List LostMerge) (h0 : p ≠ .banksValid) (h1 : p ≠ .banksClassMap) (h2 : p ≠ .banksSealMap) (h3 : p ≠ .banksTags) (h4 : p ≠ .banksPauses) (h5 : p ≠ .banksZeroing) (h6 : p ≠ .banksFolioClears) (h7 : p ≠ .banksRemapCopies) (h8 : p ≠ .banksRawOps) (h9 : p ≠ .banksLastActive) (h10 : p ≠ .banksMerge) (h11 : p ≠ .banksCollations) (h12 : p ≠ .banksSeals) (h13 : p ≠ .banksCacheWays) (h14 : p ≠ .banksCacheLru) (h15 : p ≠ .banksLost) :
    part (s.onBanks (fun k => { k with valid := v0 k, classMap := v1 k, sealMap := v2 k, tags := v3 k, pauses := v4 k, zeroing := v5 k, folioClears := v6 k, remapCopies := v7 k, rawOps := v8 k, lastActive := v9 k, merge := v10 k, collations := v11 k, seals := v12 k, cacheWays := v13 k, cacheLru := v14 k, lost := v15 k })) p = part s p := by
  cases p <;> first | rfl | contradiction
@[simp] theorem onBanks_valid_tags_pauses_zeroing_remapCopies_part (p : StatePart) (s : State) (v0 : BankSt → SMap Bool) (v1 : BankSt → SMap Word) (v2 : BankSt → SMap PauseRec) (v3 : BankSt → SMap Nat) (v4 : BankSt → SMap Nat) (h0 : p ≠ .banksValid) (h1 : p ≠ .banksTags) (h2 : p ≠ .banksPauses) (h3 : p ≠ .banksZeroing) (h4 : p ≠ .banksRemapCopies) :
    part (s.onBanks (fun k => { k with valid := v0 k, tags := v1 k, pauses := v2 k, zeroing := v3 k, remapCopies := v4 k })) p = part s p := by
  cases p <;> first | rfl | contradiction
@[simp] theorem onBanks_zeroing_part (p : StatePart) (s : State) (v0 : BankSt → SMap Nat) (h0 : p ≠ .banksZeroing) :
    part (s.onBanks (fun k => { k with zeroing := v0 k })) p = part s p := by
  cases p <;> first | rfl | contradiction
@[simp] theorem onFabric_accs_part (p : StatePart) (s : State) (v0 : FabricSt → List Acc) (h0 : p ≠ .fabricAccs) :
    part (s.onFabric (fun k => { k with accs := v0 k })) p = part s p := by
  cases p <;> first | rfl | contradiction
@[simp] theorem onFabric_booked_part (p : StatePart) (s : State) (v0 : FabricSt → List Booking) (h0 : p ≠ .fabricBooked) :
    part (s.onFabric (fun k => { k with booked := v0 k })) p = part s p := by
  cases p <;> first | rfl | contradiction
@[simp] theorem onFabric_booked_holds_part (p : StatePart) (s : State) (v0 : FabricSt → List Booking) (v1 : FabricSt → List Hold) (h0 : p ≠ .fabricBooked) (h1 : p ≠ .fabricHolds) :
    part (s.onFabric (fun k => { k with booked := v0 k, holds := v1 k })) p = part s p := by
  cases p <;> first | rfl | contradiction
@[simp] theorem onFabric_booked_planResv_plan_part (p : StatePart) (s : State) (v0 : FabricSt → List Booking) (v1 : FabricSt → List PlanResv) (v2 : FabricSt → PlanSt) (h0 : p ≠ .fabricBooked) (h1 : p ≠ .fabricPlanResv) (h2 : p ≠ .fabricPlan) :
    part (s.onFabric (fun k => { k with booked := v0 k, planResv := v1 k, plan := v2 k })) p = part s p := by
  cases p <;> first | rfl | contradiction
@[simp] theorem onFabric_budgets_window_part (p : StatePart) (s : State) (v0 : FabricSt → SMap Nat) (v1 : FabricSt → Nat) (h0 : p ≠ .fabricBudgets) (h1 : p ≠ .fabricWindow) :
    part (s.onFabric (fun k => { k with budgets := v0 k, window := v1 k })) p = part s p := by
  cases p <;> first | rfl | contradiction
@[simp] theorem onFabric_clearWanted_part (p : StatePart) (s : State) (v0 : FabricSt → List Nat) (h0 : p ≠ .fabricClearWanted) :
    part (s.onFabric (fun k => { k with clearWanted := v0 k })) p = part s p := by
  cases p <;> first | rfl | contradiction
@[simp] theorem onFabric_counters_part (p : StatePart) (s : State) (v0 : FabricSt → SMap Nat) (h0 : p ≠ .fabricCounters) :
    part (s.onFabric (fun k => { k with counters := v0 k })) p = part s p := by
  cases p <;> first | rfl | contradiction
@[simp] theorem onFabric_decided_part (p : StatePart) (s : State) (v0 : FabricSt → SMap Nat) (h0 : p ≠ .fabricDecided) :
    part (s.onFabric (fun k => { k with decided := v0 k })) p = part s p := by
  cases p <;> first | rfl | contradiction
@[simp] theorem onFabric_guestPending_part (p : StatePart) (s : State) (v0 : FabricSt → List GuestPending) (h0 : p ≠ .fabricGuestPending) :
    part (s.onFabric (fun k => { k with guestPending := v0 k })) p = part s p := by
  cases p <;> first | rfl | contradiction
@[simp] theorem onFabric_guests_part (p : StatePart) (s : State) (v0 : FabricSt → SMap (Word × Word)) (h0 : p ≠ .fabricGuests) :
    part (s.onFabric (fun k => { k with guests := v0 k })) p = part s p := by
  cases p <;> first | rfl | contradiction
@[simp] theorem onFabric_guests_guestPending_guestCount_guestNext_part (p : StatePart) (s : State) (v0 : FabricSt → SMap (Word × Word)) (v1 : FabricSt → List GuestPending) (v2 : FabricSt → SMap Nat) (v3 : FabricSt → SMap Nat) (h0 : p ≠ .fabricGuests) (h1 : p ≠ .fabricGuestPending) (h2 : p ≠ .fabricGuestCount) (h3 : p ≠ .fabricGuestNext) :
    part (s.onFabric (fun k => { k with guests := v0 k, guestPending := v1 k, guestCount := v2 k, guestNext := v3 k })) p = part s p := by
  cases p <;> first | rfl | contradiction
@[simp] theorem onFabric_holds_part (p : StatePart) (s : State) (v0 : FabricSt → List Hold) (h0 : p ≠ .fabricHolds) :
    part (s.onFabric (fun k => { k with holds := v0 k })) p = part s p := by
  cases p <;> first | rfl | contradiction
@[simp] theorem onFabric_holds_accs_planResv_rotation_tenures_budgets_usedNext_usedIn_guests_guestPending_guestCount_guestNext_wdogFenced_squalls_squallSeen_squallNow_counters_snaps_decided_snapWanted_clearWanted_locks_part (p : StatePart) (s : State) (v0 : FabricSt → List Hold) (v1 : FabricSt → List Acc) (v2 : FabricSt → List PlanResv) (v3 : FabricSt → SMap (List Nat)) (v4 : FabricSt → SMap Tenure) (v5 : FabricSt → SMap Nat) (v6 : FabricSt → SMap Nat) (v7 : FabricSt → SMap Nat) (v8 : FabricSt → SMap (Word × Word)) (v9 : FabricSt → List GuestPending) (v10 : FabricSt → SMap Nat) (v11 : FabricSt → SMap Nat) (v12 : FabricSt → List Nat) (v13 : FabricSt → SMap (List (BitVec 64))) (v14 : FabricSt → SMap Nat) (v15 : FabricSt → SMap SquallNow) (v16 : FabricSt → SMap Nat) (v17 : FabricSt → SMap Nat) (v18 : FabricSt → SMap Nat) (v19 : FabricSt → List Nat) (v20 : FabricSt → List Nat) (v21 : FabricSt → List LineLock) (h0 : p ≠ .fabricHolds) (h1 : p ≠ .fabricAccs) (h2 : p ≠ .fabricPlanResv) (h3 : p ≠ .fabricRotation) (h4 : p ≠ .fabricTenures) (h5 : p ≠ .fabricBudgets) (h6 : p ≠ .fabricUsedNext) (h7 : p ≠ .fabricUsedIn) (h8 : p ≠ .fabricGuests) (h9 : p ≠ .fabricGuestPending) (h10 : p ≠ .fabricGuestCount) (h11 : p ≠ .fabricGuestNext) (h12 : p ≠ .fabricWdogFenced) (h13 : p ≠ .fabricSqualls) (h14 : p ≠ .fabricSquallSeen) (h15 : p ≠ .fabricSquallNow) (h16 : p ≠ .fabricCounters) (h17 : p ≠ .fabricSnaps) (h18 : p ≠ .fabricDecided) (h19 : p ≠ .fabricSnapWanted) (h20 : p ≠ .fabricClearWanted) (h21 : p ≠ .fabricLocks) :
    part (s.onFabric (fun k => { k with holds := v0 k, accs := v1 k, planResv := v2 k, rotation := v3 k, tenures := v4 k, budgets := v5 k, usedNext := v6 k, usedIn := v7 k, guests := v8 k, guestPending := v9 k, guestCount := v10 k, guestNext := v11 k, wdogFenced := v12 k, squalls := v13 k, squallSeen := v14 k, squallNow := v15 k, counters := v16 k, snaps := v17 k, decided := v18 k, snapWanted := v19 k, clearWanted := v20 k, locks := v21 k })) p = part s p := by
  cases p <;> first | rfl | contradiction
@[simp] theorem onFabric_joint_part (p : StatePart) (s : State) (v0 : FabricSt → Option Joint) (h0 : p ≠ .fabricJoint) :
    part (s.onFabric (fun k => { k with joint := v0 k })) p = part s p := by
  cases p <;> first | rfl | contradiction
@[simp] theorem onFabric_locks_part (p : StatePart) (s : State) (v0 : FabricSt → List LineLock) (h0 : p ≠ .fabricLocks) :
    part (s.onFabric (fun k => { k with locks := v0 k })) p = part s p := by
  cases p <;> first | rfl | contradiction
@[simp] theorem onFabric_plan_part (p : StatePart) (s : State) (v0 : FabricSt → PlanSt) (h0 : p ≠ .fabricPlan) :
    part (s.onFabric (fun k => { k with plan := v0 k })) p = part s p := by
  cases p <;> first | rfl | contradiction
@[simp] theorem onFabric_planResv_part (p : StatePart) (s : State) (v0 : FabricSt → List PlanResv) (h0 : p ≠ .fabricPlanResv) :
    part (s.onFabric (fun k => { k with planResv := v0 k })) p = part s p := by
  cases p <;> first | rfl | contradiction
@[simp] theorem onFabric_rotation_part (p : StatePart) (s : State) (v0 : FabricSt → SMap (List Nat)) (h0 : p ≠ .fabricRotation) :
    part (s.onFabric (fun k => { k with rotation := v0 k })) p = part s p := by
  cases p <;> first | rfl | contradiction
@[simp] theorem onFabric_slots_part (p : StatePart) (s : State) (v0 : FabricSt → List Slot) (h0 : p ≠ .fabricSlots) :
    part (s.onFabric (fun k => { k with slots := v0 k })) p = part s p := by
  cases p <;> first | rfl | contradiction
@[simp] theorem onFabric_slots_nextSlot_part (p : StatePart) (s : State) (v0 : FabricSt → List Slot) (v1 : FabricSt → Nat) (h0 : p ≠ .fabricSlots) (h1 : p ≠ .fabricNextSlot) :
    part (s.onFabric (fun k => { k with slots := v0 k, nextSlot := v1 k })) p = part s p := by
  cases p <;> first | rfl | contradiction
@[simp] theorem onFabric_slots_plan_part (p : StatePart) (s : State) (v0 : FabricSt → List Slot) (v1 : FabricSt → PlanSt) (h0 : p ≠ .fabricSlots) (h1 : p ≠ .fabricPlan) :
    part (s.onFabric (fun k => { k with slots := v0 k, plan := v1 k })) p = part s p := by
  cases p <;> first | rfl | contradiction
@[simp] theorem onFabric_slots_plan_guestCount_guestNext_part (p : StatePart) (s : State) (v0 : FabricSt → List Slot) (v1 : FabricSt → PlanSt) (v2 : FabricSt → SMap Nat) (v3 : FabricSt → SMap Nat) (h0 : p ≠ .fabricSlots) (h1 : p ≠ .fabricPlan) (h2 : p ≠ .fabricGuestCount) (h3 : p ≠ .fabricGuestNext) :
    part (s.onFabric (fun k => { k with slots := v0 k, plan := v1 k, guestCount := v2 k, guestNext := v3 k })) p = part s p := by
  cases p <;> first | rfl | contradiction
@[simp] theorem onFabric_snapWanted_part (p : StatePart) (s : State) (v0 : FabricSt → List Nat) (h0 : p ≠ .fabricSnapWanted) :
    part (s.onFabric (fun k => { k with snapWanted := v0 k })) p = part s p := by
  cases p <;> first | rfl | contradiction
@[simp] theorem onFabric_snapWanted_clearWanted_part (p : StatePart) (s : State) (v0 : FabricSt → List Nat) (v1 : FabricSt → List Nat) (h0 : p ≠ .fabricSnapWanted) (h1 : p ≠ .fabricClearWanted) :
    part (s.onFabric (fun k => { k with snapWanted := v0 k, clearWanted := v1 k })) p = part s p := by
  cases p <;> first | rfl | contradiction
@[simp] theorem onFabric_snaps_part (p : StatePart) (s : State) (v0 : FabricSt → SMap Nat) (h0 : p ≠ .fabricSnaps) :
    part (s.onFabric (fun k => { k with snaps := v0 k })) p = part s p := by
  cases p <;> first | rfl | contradiction
@[simp] theorem onFabric_squallNow_part (p : StatePart) (s : State) (v0 : FabricSt → SMap SquallNow) (h0 : p ≠ .fabricSquallNow) :
    part (s.onFabric (fun k => { k with squallNow := v0 k })) p = part s p := by
  cases p <;> first | rfl | contradiction
@[simp] theorem onFabric_squallSeen_part (p : StatePart) (s : State) (v0 : FabricSt → SMap Nat) (h0 : p ≠ .fabricSquallSeen) :
    part (s.onFabric (fun k => { k with squallSeen := v0 k })) p = part s p := by
  cases p <;> first | rfl | contradiction
@[simp] theorem onFabric_squalls_part (p : StatePart) (s : State) (v0 : FabricSt → SMap (List (BitVec 64))) (h0 : p ≠ .fabricSqualls) :
    part (s.onFabric (fun k => { k with squalls := v0 k })) p = part s p := by
  cases p <;> first | rfl | contradiction
@[simp] theorem onFabric_squalls_squallNow_part (p : StatePart) (s : State) (v0 : FabricSt → SMap (List (BitVec 64))) (v1 : FabricSt → SMap SquallNow) (h0 : p ≠ .fabricSqualls) (h1 : p ≠ .fabricSquallNow) :
    part (s.onFabric (fun k => { k with squalls := v0 k, squallNow := v1 k })) p = part s p := by
  cases p <;> first | rfl | contradiction
@[simp] theorem onFabric_tenures_part (p : StatePart) (s : State) (v0 : FabricSt → SMap Tenure) (h0 : p ≠ .fabricTenures) :
    part (s.onFabric (fun k => { k with tenures := v0 k })) p = part s p := by
  cases p <;> first | rfl | contradiction
@[simp] theorem onFabric_tenures_wdogFenced_part (p : StatePart) (s : State) (v0 : FabricSt → SMap Tenure) (v1 : FabricSt → List Nat) (h0 : p ≠ .fabricTenures) (h1 : p ≠ .fabricWdogFenced) :
    part (s.onFabric (fun k => { k with tenures := v0 k, wdogFenced := v1 k })) p = part s p := by
  cases p <;> first | rfl | contradiction
@[simp] theorem onFabric_usedCc_usedIn_part (p : StatePart) (s : State) (v0 : FabricSt → Nat) (v1 : FabricSt → SMap Nat) (h0 : p ≠ .fabricUsedCc) (h1 : p ≠ .fabricUsedIn) :
    part (s.onFabric (fun k => { k with usedCc := v0 k, usedIn := v1 k })) p = part s p := by
  cases p <;> first | rfl | contradiction
@[simp] theorem onFabric_usedNext_part (p : StatePart) (s : State) (v0 : FabricSt → SMap Nat) (h0 : p ≠ .fabricUsedNext) :
    part (s.onFabric (fun k => { k with usedNext := v0 k })) p = part s p := by
  cases p <;> first | rfl | contradiction
@[simp] theorem onFabric_wdogFenced_part (p : StatePart) (s : State) (v0 : FabricSt → List Nat) (h0 : p ≠ .fabricWdogFenced) :
    part (s.onFabric (fun k => { k with wdogFenced := v0 k })) p = part s p := by
  cases p <;> first | rfl | contradiction
@[simp] theorem onPower_doms_part (p : StatePart) (s : State) (v0 : PowerSt → SMap Dom) (h0 : p ≠ .powerDoms) :
    part (s.onPower (fun k => { k with doms := v0 k })) p = part s p := by
  cases p <;> first | rfl | contradiction
@[simp] theorem onPower_doms_marches_marchDoms_stopped_part (p : StatePart) (s : State) (v0 : PowerSt → SMap Dom) (v1 : PowerSt → SMap MarchRun) (v2 : PowerSt → List (CmdSrc × Nat)) (v3 : PowerSt → SMap Nat) (h0 : p ≠ .powerDoms) (h1 : p ≠ .powerMarches) (h2 : p ≠ .powerMarchDoms) (h3 : p ≠ .powerStopped) :
    part (s.onPower (fun k => { k with doms := v0 k, marches := v1 k, marchDoms := v2 k, stopped := v3 k })) p = part s p := by
  cases p <;> first | rfl | contradiction
@[simp] theorem onPower_marches_part (p : StatePart) (s : State) (v0 : PowerSt → SMap MarchRun) (h0 : p ≠ .powerMarches) :
    part (s.onPower (fun k => { k with marches := v0 k })) p = part s p := by
  cases p <;> first | rfl | contradiction
@[simp] theorem onPower_marches_marchDoms_part (p : StatePart) (s : State) (v0 : PowerSt → SMap MarchRun) (v1 : PowerSt → List (CmdSrc × Nat)) (h0 : p ≠ .powerMarches) (h1 : p ≠ .powerMarchDoms) :
    part (s.onPower (fun k => { k with marches := v0 k, marchDoms := v1 k })) p = part s p := by
  cases p <;> first | rfl | contradiction
@[simp] theorem onPower_perf_part (p : StatePart) (s : State) (v0 : PowerSt → SMap PerfChange) (h0 : p ≠ .powerPerf) :
    part (s.onPower (fun k => { k with perf := v0 k })) p = part s p := by
  cases p <;> first | rfl | contradiction
@[simp] theorem onPower_record_part (p : StatePart) (s : State) (v0 : PowerSt → SMap (List RepairEntry)) (h0 : p ≠ .powerRecord) :
    part (s.onPower (fun k => { k with record := v0 k })) p = part s p := by
  cases p <;> first | rfl | contradiction
@[simp] theorem onPower_stopped_part (p : StatePart) (s : State) (v0 : PowerSt → SMap Nat) (h0 : p ≠ .powerStopped) :
    part (s.onPower (fun k => { k with stopped := v0 k })) p = part s p := by
  cases p <;> first | rfl | contradiction
@[simp] theorem onQueues_comb_part (p : StatePart) (s : State) (v0 : QueueSt → SMap CombQ) (h0 : p ≠ .queuesComb) :
    part (s.onQueues (fun k => { k with comb := v0 k })) p = part s p := by
  cases p <;> first | rfl | contradiction
@[simp] theorem onQueues_copies_part (p : StatePart) (s : State) (v0 : QueueSt → List CopyPending) (h0 : p ≠ .queuesCopies) :
    part (s.onQueues (fun k => { k with copies := v0 k })) p = part s p := by
  cases p <;> first | rfl | contradiction
@[simp] theorem onQueues_ops_part (p : StatePart) (s : State) (v0 : QueueSt → List QOp) (h0 : p ≠ .queuesOps) :
    part (s.onQueues (fun k => { k with ops := v0 k })) p = part s p := by
  cases p <;> first | rfl | contradiction
@[simp] theorem onQueues_ops_nextOp_part (p : StatePart) (s : State) (v0 : QueueSt → List QOp) (v1 : QueueSt → Nat) (h0 : p ≠ .queuesOps) (h1 : p ≠ .queuesNextOp) :
    part (s.onQueues (fun k => { k with ops := v0 k, nextOp := v1 k })) p = part s p := by
  cases p <;> first | rfl | contradiction
@[simp] theorem onQueues_portB_part (p : StatePart) (s : State) (v0 : QueueSt → List (Nat × Nat)) (h0 : p ≠ .queuesPortB) :
    part (s.onQueues (fun k => { k with portB := v0 k })) p = part s p := by
  cases p <;> first | rfl | contradiction
@[simp] theorem onQueues_results_part (p : StatePart) (s : State) (v0 : QueueSt → SMap ResSlot) (h0 : p ≠ .queuesResults) :
    part (s.onQueues (fun k => { k with results := v0 k })) p = part s p := by
  cases p <;> first | rfl | contradiction
@[simp] theorem onQueues_served_part (p : StatePart) (s : State) (v0 : QueueSt → List (Nat × Nat × Nat)) (h0 : p ≠ .queuesServed) :
    part (s.onQueues (fun k => { k with served := v0 k })) p = part s p := by
  cases p <;> first | rfl | contradiction
@[simp] theorem onQueues_slipq_part (p : StatePart) (s : State) (v0 : QueueSt → SMap SlipQ) (h0 : p ≠ .queuesSlipq) :
    part (s.onQueues (fun k => { k with slipq := v0 k })) p = part s p := by
  cases p <;> first | rfl | contradiction
@[simp] theorem onQueues_slipq_comb_results_ops_copies_part (p : StatePart) (s : State) (v0 : QueueSt → SMap SlipQ) (v1 : QueueSt → SMap CombQ) (v2 : QueueSt → SMap ResSlot) (v3 : QueueSt → List QOp) (v4 : QueueSt → List CopyPending) (h0 : p ≠ .queuesSlipq) (h1 : p ≠ .queuesComb) (h2 : p ≠ .queuesResults) (h3 : p ≠ .queuesOps) (h4 : p ≠ .queuesCopies) :
    part (s.onQueues (fun k => { k with slipq := v0 k, comb := v1 k, results := v2 k, ops := v3 k, copies := v4 k })) p = part s p := by
  cases p <;> first | rfl | contradiction
@[simp] theorem onRemote_counters_part (p : StatePart) (s : State) (v0 : RemoteSt → SMap Nat) (h0 : p ≠ .remoteCounters) :
    part (s.onRemote (fun k => { k with counters := v0 k })) p = part s p := by
  cases p <;> first | rfl | contradiction
@[simp] theorem onRemote_outMsgs_part (p : StatePart) (s : State) (v0 : RemoteSt → List OutMsg) (h0 : p ≠ .remoteOutMsgs) :
    part (s.onRemote (fun k => { k with outMsgs := v0 k })) p = part s p := by
  cases p <;> first | rfl | contradiction
@[simp] theorem onRemote_outMsgs_overdue_part (p : StatePart) (s : State) (v0 : RemoteSt → List OutMsg) (v1 : RemoteSt → List Nat) (h0 : p ≠ .remoteOutMsgs) (h1 : p ≠ .remoteOverdue) :
    part (s.onRemote (fun k => { k with outMsgs := v0 k, overdue := v1 k })) p = part s p := by
  cases p <;> first | rfl | contradiction
@[simp] theorem onRemote_outStage_part (p : StatePart) (s : State) (v0 : RemoteSt → List OutStage) (h0 : p ≠ .remoteOutStage) :
    part (s.onRemote (fun k => { k with outStage := v0 k })) p = part s p := by
  cases p <;> first | rfl | contradiction
@[simp] theorem onRemote_overdue_part (p : StatePart) (s : State) (v0 : RemoteSt → List Nat) (h0 : p ≠ .remoteOverdue) :
    part (s.onRemote (fun k => { k with overdue := v0 k })) p = part s p := by
  cases p <;> first | rfl | contradiction
@[simp] theorem onRemote_ringCount_part (p : StatePart) (s : State) (v0 : RemoteSt → SMap Nat) (h0 : p ≠ .remoteRingCount) :
    part (s.onRemote (fun k => { k with ringCount := v0 k })) p = part s p := by
  cases p <;> first | rfl | contradiction
@[simp] theorem onRemote_staged_part (p : StatePart) (s : State) (v0 : RemoteSt → List Staged) (h0 : p ≠ .remoteStaged) :
    part (s.onRemote (fun k => { k with staged := v0 k })) p = part s p := by
  cases p <;> first | rfl | contradiction
@[simp] theorem onRemote_staged_nextMsg_part (p : StatePart) (s : State) (v0 : RemoteSt → List Staged) (v1 : RemoteSt → Nat) (h0 : p ≠ .remoteStaged) (h1 : p ≠ .remoteNextMsg) :
    part (s.onRemote (fun k => { k with staged := v0 k, nextMsg := v1 k })) p = part s p := by
  cases p <;> first | rfl | contradiction
@[simp] theorem onRemote_syncs_part (p : StatePart) (s : State) (v0 : RemoteSt → List SyncRec) (h0 : p ≠ .remoteSyncs) :
    part (s.onRemote (fun k => { k with syncs := v0 k })) p = part s p := by
  cases p <;> first | rfl | contradiction
@[simp] theorem onRemote_translator_part (p : StatePart) (s : State) (v0 : RemoteSt → List Descriptor) (h0 : p ≠ .remoteTranslator) :
    part (s.onRemote (fun k => { k with translator := v0 k })) p = part s p := by
  cases p <;> first | rfl | contradiction
@[simp] theorem onRemote_translator_syncs_staged_ringCount_outStage_outMsgs_overdue_counters_part (p : StatePart) (s : State) (v0 : RemoteSt → List Descriptor) (v1 : RemoteSt → List SyncRec) (v2 : RemoteSt → List Staged) (v3 : RemoteSt → SMap Nat) (v4 : RemoteSt → List OutStage) (v5 : RemoteSt → List OutMsg) (v6 : RemoteSt → List Nat) (v7 : RemoteSt → SMap Nat) (h0 : p ≠ .remoteTranslator) (h1 : p ≠ .remoteSyncs) (h2 : p ≠ .remoteStaged) (h3 : p ≠ .remoteRingCount) (h4 : p ≠ .remoteOutStage) (h5 : p ≠ .remoteOutMsgs) (h6 : p ≠ .remoteOverdue) (h7 : p ≠ .remoteCounters) :
    part (s.onRemote (fun k => { k with translator := v0 k, syncs := v1 k, staged := v2 k, ringCount := v3 k, outStage := v4 k, outMsgs := v5 k, overdue := v6 k, counters := v7 k })) p = part s p := by
  cases p <;> first | rfl | contradiction
@[simp] theorem onReplicas_ballots_part (p : StatePart) (s : State) (v0 : ReplicaSt → SMap Ballot) (h0 : p ≠ .replicasBallots) :
    part (s.onReplicas (fun k => { k with ballots := v0 k })) p = part s p := by
  cases p <;> first | rfl | contradiction
@[simp] theorem onReplicas_ballots_posts_lfsr_scans_wrappers_unsafeRegs_strays_part (p : StatePart) (s : State) (v0 : ReplicaSt → SMap Ballot) (v1 : ReplicaSt → List BallotPost) (v2 : ReplicaSt → SMap (BitVec 64)) (v3 : ReplicaSt → SMap Scan) (v4 : ReplicaSt → SMap Wrapper) (v5 : ReplicaSt → SMap Bool) (v6 : ReplicaSt → SMap (BitVec 2 × Nat)) (h0 : p ≠ .replicasBallots) (h1 : p ≠ .replicasPosts) (h2 : p ≠ .replicasLfsr) (h3 : p ≠ .replicasScans) (h4 : p ≠ .replicasWrappers) (h5 : p ≠ .replicasUnsafeRegs) (h6 : p ≠ .replicasStrays) :
    part (s.onReplicas (fun k => { k with ballots := v0 k, posts := v1 k, lfsr := v2 k, scans := v3 k, wrappers := v4 k, unsafeRegs := v5 k, strays := v6 k })) p = part s p := by
  cases p <;> first | rfl | contradiction
@[simp] theorem onReplicas_baro_baroCorr_part (p : StatePart) (s : State) (v0 : ReplicaSt → SMap Baro) (v1 : ReplicaSt → SMap Nat) (h0 : p ≠ .replicasBaro) (h1 : p ≠ .replicasBaroCorr) :
    part (s.onReplicas (fun k => { k with baro := v0 k, baroCorr := v1 k })) p = part s p := by
  cases p <;> first | rfl | contradiction
@[simp] theorem onReplicas_baroCorr_part (p : StatePart) (s : State) (v0 : ReplicaSt → SMap Nat) (h0 : p ≠ .replicasBaroCorr) :
    part (s.onReplicas (fun k => { k with baroCorr := v0 k })) p = part s p := by
  cases p <;> first | rfl | contradiction
@[simp] theorem onReplicas_leftP0_part (p : StatePart) (s : State) (v0 : ReplicaSt → List Nat) (h0 : p ≠ .replicasLeftP0) :
    part (s.onReplicas (fun k => { k with leftP0 := v0 k })) p = part s p := by
  cases p <;> first | rfl | contradiction
@[simp] theorem onReplicas_leftP0_sampled_part (p : StatePart) (s : State) (v0 : ReplicaSt → List Nat) (v1 : ReplicaSt → SMap Nat) (h0 : p ≠ .replicasLeftP0) (h1 : p ≠ .replicasSampled) :
    part (s.onReplicas (fun k => { k with leftP0 := v0 k, sampled := v1 k })) p = part s p := by
  cases p <;> first | rfl | contradiction
@[simp] theorem onReplicas_lfsr_part (p : StatePart) (s : State) (v0 : ReplicaSt → SMap (BitVec 64)) (h0 : p ≠ .replicasLfsr) :
    part (s.onReplicas (fun k => { k with lfsr := v0 k })) p = part s p := by
  cases p <;> first | rfl | contradiction
@[simp] theorem onReplicas_posts_part (p : StatePart) (s : State) (v0 : ReplicaSt → List BallotPost) (h0 : p ≠ .replicasPosts) :
    part (s.onReplicas (fun k => { k with posts := v0 k })) p = part s p := by
  cases p <;> first | rfl | contradiction
@[simp] theorem onReplicas_posts_nextPost_part (p : StatePart) (s : State) (v0 : ReplicaSt → List BallotPost) (v1 : ReplicaSt → Nat) (h0 : p ≠ .replicasPosts) (h1 : p ≠ .replicasNextPost) :
    part (s.onReplicas (fun k => { k with posts := v0 k, nextPost := v1 k })) p = part s p := by
  cases p <;> first | rfl | contradiction
@[simp] theorem onReplicas_scans_part (p : StatePart) (s : State) (v0 : ReplicaSt → SMap Scan) (h0 : p ≠ .replicasScans) :
    part (s.onReplicas (fun k => { k with scans := v0 k })) p = part s p := by
  cases p <;> first | rfl | contradiction
@[simp] theorem onReplicas_strays_part (p : StatePart) (s : State) (v0 : ReplicaSt → SMap (BitVec 2 × Nat)) (h0 : p ≠ .replicasStrays) :
    part (s.onReplicas (fun k => { k with strays := v0 k })) p = part s p := by
  cases p <;> first | rfl | contradiction
@[simp] theorem onReplicas_unsafeRegs_part (p : StatePart) (s : State) (v0 : ReplicaSt → SMap Bool) (h0 : p ≠ .replicasUnsafeRegs) :
    part (s.onReplicas (fun k => { k with unsafeRegs := v0 k })) p = part s p := by
  cases p <;> first | rfl | contradiction
@[simp] theorem onReplicas_unsafeRegs_strays_part (p : StatePart) (s : State) (v0 : ReplicaSt → SMap Bool) (v1 : ReplicaSt → SMap (BitVec 2 × Nat)) (h0 : p ≠ .replicasUnsafeRegs) (h1 : p ≠ .replicasStrays) :
    part (s.onReplicas (fun k => { k with unsafeRegs := v0 k, strays := v1 k })) p = part s p := by
  cases p <;> first | rfl | contradiction
@[simp] theorem onReplicas_wrappers_part (p : StatePart) (s : State) (v0 : ReplicaSt → SMap Wrapper) (h0 : p ≠ .replicasWrappers) :
    part (s.onReplicas (fun k => { k with wrappers := v0 k })) p = part s p := by
  cases p <;> first | rfl | contradiction
@[simp] theorem onSecurity_alarms_part (p : StatePart) (s : State) (v0 : SecuritySt → List AlarmWord) (h0 : p ≠ .securityAlarms) :
    part (s.onSecurity (fun k => { k with alarms := v0 k })) p = part s p := by
  cases p <;> first | rfl | contradiction
@[simp] theorem onSecurity_certBad_part (p : StatePart) (s : State) (v0 : SecuritySt → List Nat) (h0 : p ≠ .securityCertBad) :
    part (s.onSecurity (fun k => { k with certBad := v0 k })) p = part s p := by
  cases p <;> first | rfl | contradiction
@[simp] theorem onSecurity_closing_part (p : StatePart) (s : State) (v0 : SecuritySt → SMap Nat) (h0 : p ≠ .securityClosing) :
    part (s.onSecurity (fun k => { k with closing := v0 k })) p = part s p := by
  cases p <;> first | rfl | contradiction
@[simp] theorem onSecurity_denialSeen_part (p : StatePart) (s : State) (v0 : SecuritySt → SMap Nat) (h0 : p ≠ .securityDenialSeen) :
    part (s.onSecurity (fun k => { k with denialSeen := v0 k })) p = part s p := by
  cases p <;> first | rfl | contradiction
@[simp] theorem onSecurity_keySlots_part (p : StatePart) (s : State) (v0 : SecuritySt → SMap (BitVec 256)) (h0 : p ≠ .securityKeySlots) :
    part (s.onSecurity (fun k => { k with keySlots := v0 k })) p = part s p := by
  cases p <;> first | rfl | contradiction
@[simp] theorem onSecurity_keySlots_transport_lcBusy_denialSeen_closing_alarms_part (p : StatePart) (s : State) (v0 : SecuritySt → SMap (BitVec 256)) (v1 : SecuritySt → SMap (BitVec 256)) (v2 : SecuritySt → SMap (BitVec 2 × CmdSrc)) (v3 : SecuritySt → SMap Nat) (v4 : SecuritySt → SMap Nat) (v5 : SecuritySt → List AlarmWord) (h0 : p ≠ .securityKeySlots) (h1 : p ≠ .securityTransport) (h2 : p ≠ .securityLcBusy) (h3 : p ≠ .securityDenialSeen) (h4 : p ≠ .securityClosing) (h5 : p ≠ .securityAlarms) :
    part (s.onSecurity (fun k => { k with keySlots := v0 k, transport := v1 k, lcBusy := v2 k, denialSeen := v3 k, closing := v4 k, alarms := v5 k })) p = part s p := by
  cases p <;> first | rfl | contradiction
@[simp] theorem onSecurity_lcBusy_part (p : StatePart) (s : State) (v0 : SecuritySt → SMap (BitVec 2 × CmdSrc)) (h0 : p ≠ .securityLcBusy) :
    part (s.onSecurity (fun k => { k with lcBusy := v0 k })) p = part s p := by
  cases p <;> first | rfl | contradiction
@[simp] theorem onSecurity_transport_part (p : StatePart) (s : State) (v0 : SecuritySt → SMap (BitVec 256)) (h0 : p ≠ .securityTransport) :
    part (s.onSecurity (fun k => { k with transport := v0 k })) p = part s p := by
  cases p <;> first | rfl | contradiction
@[simp] theorem onStreams_aborts_part (p : StatePart) (s : State) (v0 : StreamSt → List TaskAbort) (h0 : p ≠ .streamsAborts) :
    part (s.onStreams (fun k => { k with aborts := v0 k })) p = part s p := by
  cases p <;> first | rfl | contradiction
@[simp] theorem onStreams_barrierCount_part (p : StatePart) (s : State) (v0 : StreamSt → SMap Nat) (h0 : p ≠ .streamsBarrierCount) :
    part (s.onStreams (fun k => { k with barrierCount := v0 k })) p = part s p := by
  cases p <;> first | rfl | contradiction
@[simp] theorem onStreams_barrierCount_barrierRoot_part (p : StatePart) (s : State) (v0 : StreamSt → SMap Nat) (v1 : StreamSt → SMap (BitVec 8)) (h0 : p ≠ .streamsBarrierCount) (h1 : p ≠ .streamsBarrierRoot) :
    part (s.onStreams (fun k => { k with barrierCount := v0 k, barrierRoot := v1 k })) p = part s p := by
  cases p <;> first | rfl | contradiction
@[simp] theorem onStreams_barrierRoot_part (p : StatePart) (s : State) (v0 : StreamSt → SMap (BitVec 8)) (h0 : p ≠ .streamsBarrierRoot) :
    part (s.onStreams (fun k => { k with barrierRoot := v0 k })) p = part s p := by
  cases p <;> first | rfl | contradiction
@[simp] theorem onStreams_ctxs_part (p : StatePart) (s : State) (v0 : StreamSt → SMap Ctx) (h0 : p ≠ .streamsCtxs) :
    part (s.onStreams (fun k => { k with ctxs := v0 k })) p = part s p := by
  cases p <;> first | rfl | contradiction
@[simp] theorem onStreams_ctxs_tokens_part (p : StatePart) (s : State) (v0 : StreamSt → SMap Ctx) (v1 : StreamSt → List Token) (h0 : p ≠ .streamsCtxs) (h1 : p ≠ .streamsTokens) :
    part (s.onStreams (fun k => { k with ctxs := v0 k, tokens := v1 k })) p = part s p := by
  cases p <;> first | rfl | contradiction
@[simp] theorem onStreams_ctxs_tokens_barrierCount_barrierRoot_tiles_aborts_part (p : StatePart) (s : State) (v0 : StreamSt → SMap Ctx) (v1 : StreamSt → List Token) (v2 : StreamSt → SMap Nat) (v3 : StreamSt → SMap (BitVec 8)) (v4 : StreamSt → List Tile) (v5 : StreamSt → List TaskAbort) (h0 : p ≠ .streamsCtxs) (h1 : p ≠ .streamsTokens) (h2 : p ≠ .streamsBarrierCount) (h3 : p ≠ .streamsBarrierRoot) (h4 : p ≠ .streamsTiles) (h5 : p ≠ .streamsAborts) :
    part (s.onStreams (fun k => { k with ctxs := v0 k, tokens := v1 k, barrierCount := v2 k, barrierRoot := v3 k, tiles := v4 k, aborts := v5 k })) p = part s p := by
  cases p <;> first | rfl | contradiction
@[simp] theorem onStreams_tiles_part (p : StatePart) (s : State) (v0 : StreamSt → List Tile) (h0 : p ≠ .streamsTiles) :
    part (s.onStreams (fun k => { k with tiles := v0 k })) p = part s p := by
  cases p <;> first | rfl | contradiction
@[simp] theorem onStreams_tiles_nextTile_part (p : StatePart) (s : State) (v0 : StreamSt → List Tile) (v1 : StreamSt → Nat) (h0 : p ≠ .streamsTiles) (h1 : p ≠ .streamsNextTile) :
    part (s.onStreams (fun k => { k with tiles := v0 k, nextTile := v1 k })) p = part s p := by
  cases p <;> first | rfl | contradiction
@[simp] theorem onStreams_tokens_part (p : StatePart) (s : State) (v0 : StreamSt → List Token) (h0 : p ≠ .streamsTokens) :
    part (s.onStreams (fun k => { k with tokens := v0 k })) p = part s p := by
  cases p <;> first | rfl | contradiction
@[simp] theorem onStreams_tokens_nextToken_part (p : StatePart) (s : State) (v0 : StreamSt → List Token) (v1 : StreamSt → Nat) (h0 : p ≠ .streamsTokens) (h1 : p ≠ .streamsNextToken) :
    part (s.onStreams (fun k => { k with tokens := v0 k, nextToken := v1 k })) p = part s p := by
  cases p <;> first | rfl | contradiction
@[simp] theorem onSup_allocs_part (p : StatePart) (s : State) (v0 : SupSt → List AllocHold) (h0 : p ≠ .supAllocs) :
    part (s.onSup (fun k => { k with allocs := v0 k })) p = part s p := by
  cases p <;> first | rfl | contradiction
@[simp] theorem onSup_almanacCount_part (p : StatePart) (s : State) (v0 : SupSt → SMap Nat) (h0 : p ≠ .supAlmanacCount) :
    part (s.onSup (fun k => { k with almanacCount := v0 k })) p = part s p := by
  cases p <;> first | rfl | contradiction
@[simp] theorem onSup_almanacs_part (p : StatePart) (s : State) (v0 : SupSt → List AlmanacWord) (h0 : p ≠ .supAlmanacs) :
    part (s.onSup (fun k => { k with almanacs := v0 k })) p = part s p := by
  cases p <;> first | rfl | contradiction
@[simp] theorem onSup_catCorrected_part (p : StatePart) (s : State) (v0 : SupSt → SMap Nat) (h0 : p ≠ .supCatCorrected) :
    part (s.onSup (fun k => { k with catCorrected := v0 k })) p = part s p := by
  cases p <;> first | rfl | contradiction
@[simp] theorem onSup_catFreed_part (p : StatePart) (s : State) (v0 : SupSt → SMap Nat) (h0 : p ≠ .supCatFreed) :
    part (s.onSup (fun k => { k with catFreed := v0 k })) p = part s p := by
  cases p <;> first | rfl | contradiction
@[simp] theorem onSup_catReported_part (p : StatePart) (s : State) (v0 : SupSt → List Nat) (h0 : p ≠ .supCatReported) :
    part (s.onSup (fun k => { k with catReported := v0 k })) p = part s p := by
  cases p <;> first | rfl | contradiction
@[simp] theorem onSup_catUpsets_catCorrected_catReported_part (p : StatePart) (s : State) (v0 : SupSt → SMap Nat) (v1 : SupSt → SMap Nat) (v2 : SupSt → List Nat) (h0 : p ≠ .supCatUpsets) (h1 : p ≠ .supCatCorrected) (h2 : p ≠ .supCatReported) :
    part (s.onSup (fun k => { k with catUpsets := v0 k, catCorrected := v1 k, catReported := v2 k })) p = part s p := by
  cases p <;> first | rfl | contradiction
@[simp] theorem onSup_catUpsets_catReported_part (p : StatePart) (s : State) (v0 : SupSt → SMap Nat) (v1 : SupSt → List Nat) (h0 : p ≠ .supCatUpsets) (h1 : p ≠ .supCatReported) :
    part (s.onSup (fun k => { k with catUpsets := v0 k, catReported := v1 k })) p = part s p := by
  cases p <;> first | rfl | contradiction
@[simp] theorem onSup_cmds_part (p : StatePart) (s : State) (v0 : SupSt → List (CmdSrc × CmdProgress)) (h0 : p ≠ .supCmds) :
    part (s.onSup (fun k => { k with cmds := v0 k })) p = part s p := by
  cases p <;> first | rfl | contradiction
@[simp] theorem onSup_cmds_inputs_allocs_part (p : StatePart) (s : State) (v0 : SupSt → List (CmdSrc × CmdProgress)) (v1 : SupSt → List (CmdSrc × List (BitVec 8))) (v2 : SupSt → List AllocHold) (h0 : p ≠ .supCmds) (h1 : p ≠ .supInputs) (h2 : p ≠ .supAllocs) :
    part (s.onSup (fun k => { k with cmds := v0 k, inputs := v1 k, allocs := v2 k })) p = part s p := by
  cases p <;> first | rfl | contradiction
@[simp] theorem onSup_cmds_sideOrder_part (p : StatePart) (s : State) (v0 : SupSt → List (CmdSrc × CmdProgress)) (v1 : SupSt → List (CmdSrc × Nat)) (h0 : p ≠ .supCmds) (h1 : p ≠ .supSideOrder) :
    part (s.onSup (fun k => { k with cmds := v0 k, sideOrder := v1 k })) p = part s p := by
  cases p <;> first | rfl | contradiction
@[simp] theorem onSup_cmds_turn_stalled_queued_lastDispatch_inputs_part (p : StatePart) (s : State) (v0 : SupSt → List (CmdSrc × CmdProgress)) (v1 : SupSt → SMap Nat) (v2 : SupSt → List Nat) (v3 : SupSt → List (CmdSrc × Nat)) (v4 : SupSt → SMap Nat) (v5 : SupSt → List (CmdSrc × List (BitVec 8))) (h0 : p ≠ .supCmds) (h1 : p ≠ .supTurn) (h2 : p ≠ .supStalled) (h3 : p ≠ .supQueued) (h4 : p ≠ .supLastDispatch) (h5 : p ≠ .supInputs) :
    part (s.onSup (fun k => { k with cmds := v0 k, turn := v1 k, stalled := v2 k, queued := v3 k, lastDispatch := v4 k, inputs := v5 k })) p = part s p := by
  cases p <;> first | rfl | contradiction
@[simp] theorem onSup_eventNow_part (p : StatePart) (s : State) (v0 : SupSt → SMap EventNow) (h0 : p ≠ .supEventNow) :
    part (s.onSup (fun k => { k with eventNow := v0 k })) p = part s p := by
  cases p <;> first | rfl | contradiction
@[simp] theorem onSup_events_part (p : StatePart) (s : State) (v0 : SupSt → SMap (List Event)) (h0 : p ≠ .supEvents) :
    part (s.onSup (fun k => { k with events := v0 k })) p = part s p := by
  cases p <;> first | rfl | contradiction
@[simp] theorem onSup_events_eventNow_part (p : StatePart) (s : State) (v0 : SupSt → SMap (List Event)) (v1 : SupSt → SMap EventNow) (h0 : p ≠ .supEvents) (h1 : p ≠ .supEventNow) :
    part (s.onSup (fun k => { k with events := v0 k, eventNow := v1 k })) p = part s p := by
  cases p <;> first | rfl | contradiction
@[simp] theorem onSup_events_nextEvent_part (p : StatePart) (s : State) (v0 : SupSt → SMap (List Event)) (v1 : SupSt → SMap Nat) (h0 : p ≠ .supEvents) (h1 : p ≠ .supNextEvent) :
    part (s.onSup (fun k => { k with events := v0 k, nextEvent := v1 k })) p = part s p := by
  cases p <;> first | rfl | contradiction
@[simp] theorem onSup_events_nextEvent_cmds_nextSeq_turn_sideOrder_almanacs_almanacCount_stalled_queued_lastDispatch_inputs_catFreed_eventNow_allocs_catUpsets_catCorrected_catReported_part (p : StatePart) (s : State) (v0 : SupSt → SMap (List Event)) (v1 : SupSt → SMap Nat) (v2 : SupSt → List (CmdSrc × CmdProgress)) (v3 : SupSt → SMap Nat) (v4 : SupSt → SMap Nat) (v5 : SupSt → List (CmdSrc × Nat)) (v6 : SupSt → List AlmanacWord) (v7 : SupSt → SMap Nat) (v8 : SupSt → List Nat) (v9 : SupSt → List (CmdSrc × Nat)) (v10 : SupSt → SMap Nat) (v11 : SupSt → List (CmdSrc × List (BitVec 8))) (v12 : SupSt → SMap Nat) (v13 : SupSt → SMap EventNow) (v14 : SupSt → List AllocHold) (v15 : SupSt → SMap Nat) (v16 : SupSt → SMap Nat) (v17 : SupSt → List Nat) (h0 : p ≠ .supEvents) (h1 : p ≠ .supNextEvent) (h2 : p ≠ .supCmds) (h3 : p ≠ .supNextSeq) (h4 : p ≠ .supTurn) (h5 : p ≠ .supSideOrder) (h6 : p ≠ .supAlmanacs) (h7 : p ≠ .supAlmanacCount) (h8 : p ≠ .supStalled) (h9 : p ≠ .supQueued) (h10 : p ≠ .supLastDispatch) (h11 : p ≠ .supInputs) (h12 : p ≠ .supCatFreed) (h13 : p ≠ .supEventNow) (h14 : p ≠ .supAllocs) (h15 : p ≠ .supCatUpsets) (h16 : p ≠ .supCatCorrected) (h17 : p ≠ .supCatReported) :
    part (s.onSup (fun k => { k with events := v0 k, nextEvent := v1 k, cmds := v2 k, nextSeq := v3 k, turn := v4 k, sideOrder := v5 k, almanacs := v6 k, almanacCount := v7 k, stalled := v8 k, queued := v9 k, lastDispatch := v10 k, inputs := v11 k, catFreed := v12 k, eventNow := v13 k, allocs := v14 k, catUpsets := v15 k, catCorrected := v16 k, catReported := v17 k })) p = part s p := by
  cases p <;> first | rfl | contradiction
@[simp] theorem onSup_lastDispatch_part (p : StatePart) (s : State) (v0 : SupSt → SMap Nat) (h0 : p ≠ .supLastDispatch) :
    part (s.onSup (fun k => { k with lastDispatch := v0 k })) p = part s p := by
  cases p <;> first | rfl | contradiction
@[simp] theorem onSup_nextEvent_part (p : StatePart) (s : State) (v0 : SupSt → SMap Nat) (h0 : p ≠ .supNextEvent) :
    part (s.onSup (fun k => { k with nextEvent := v0 k })) p = part s p := by
  cases p <;> first | rfl | contradiction
@[simp] theorem onSup_nextSeq_queued_part (p : StatePart) (s : State) (v0 : SupSt → SMap Nat) (v1 : SupSt → List (CmdSrc × Nat)) (h0 : p ≠ .supNextSeq) (h1 : p ≠ .supQueued) :
    part (s.onSup (fun k => { k with nextSeq := v0 k, queued := v1 k })) p = part s p := by
  cases p <;> first | rfl | contradiction
@[simp] theorem onSup_sideOrder_part (p : StatePart) (s : State) (v0 : SupSt → List (CmdSrc × Nat)) (h0 : p ≠ .supSideOrder) :
    part (s.onSup (fun k => { k with sideOrder := v0 k })) p = part s p := by
  cases p <;> first | rfl | contradiction
@[simp] theorem onSup_stalled_part (p : StatePart) (s : State) (v0 : SupSt → List Nat) (h0 : p ≠ .supStalled) :
    part (s.onSup (fun k => { k with stalled := v0 k })) p = part s p := by
  cases p <;> first | rfl | contradiction
@[simp] theorem onSup_w1cSet_part (p : StatePart) (s : State) (v0 : SupSt → SMap Nat) (h0 : p ≠ .supW1cSet) :
    part (s.onSup (fun k => { k with w1cSet := v0 k })) p = part s p := by
  cases p <;> first | rfl | contradiction

end Sys2Proof.Laws
end

