-- ==== Sys2Proof/Laws/PartsOps.lean ====
section
/-! SUPPORT. What the register, line and command operations leave alone: one lemma per function, for every part of State but the ones it lists. -/

namespace Sys2Proof.Laws

open Sys2Proof Sys2Proof.Machine

/-! ### Ops -/

@[simp] theorem State_draw_part (p : StatePart) (h : p ∉ ([.draws] : List StatePart)) (a0 : Sys2Proof.Machine.State) :
    part (State.draw a0) p = part a0 p := by
  simp at h
  unfold State.draw
  repeat' split
  all_goals simp [h]

@[simp] theorem State_emitOut_part (p : StatePart) (h : p ∉ ([.out] : List StatePart)) (a0 : Sys2Proof.Machine.State) (a1 : Sys2Proof.Machine.Output) :
    part (State.emitOut a0 a1) p = part a0 p := by
  simp at h
  unfold State.emitOut
  repeat' split
  all_goals simp [h]

@[simp] theorem regSet_part (p : StatePart) (h : p ∉ ([.regs] : List StatePart)) (a0 : Sys2Proof.Machine.State) (a1 : Nat) (a2 : Sys2Proof.Machine.Reg) (a3 : Sys2Proof.Word) :
    part (regSet a0 a1 a2 a3) p = part a0 p := by
  simp at h
  unfold regSet
  repeat' split
  all_goals simp [h]

@[simp] theorem regField_part (p : StatePart) (h : p ∉ ([.regs] : List StatePart)) (a0 : Sys2Proof.Machine.State) (a1 : Nat) (a2 : Sys2Proof.Machine.Reg) (a3 : Nat) (a4 : Nat) (a5 : Nat) :
    part (regField a0 a1 a2 a3 a4 a5) p = part a0 p := by
  simp at h
  unfold regField
  repeat' split
  all_goals simp [h]

@[simp] theorem regReset_part (p : StatePart) (h : p ∉ ([.regs] : List StatePart)) (a0 : Sys2Proof.Machine.State) (a1 : Nat) (a2 : Sys2Proof.Machine.Reg) :
    part (regReset a0 a1 a2) p = part a0 p := by
  simp at h
  unfold regReset
  repeat' split
  all_goals simp [h]

@[simp] theorem regResetIf_part (p : StatePart) (h : p ∉ ([.regs] : List StatePart)) (a0 : Sys2Proof.Machine.State) (a1 : Nat) (a2 : Sys2Proof.Machine.Reg → Bool) :
    part (regResetIf a0 a1 a2) p = part a0 p := by
  simp at h
  unfold regResetIf
  repeat' split
  all_goals simp [h]

@[simp] theorem pageWrite_part (p : StatePart) (h : p ∉ ([.pages] : List StatePart)) (a0 : Sys2Proof.Machine.State) (a1 : Nat) (a2 : Nat) (a3 : Nat) (a4 : Nat) (a5 : List Sys2Proof.Byte) :
    part (pageWrite a0 a1 a2 a3 a4 a5) p = part a0 p := by
  simp at h
  unfold pageWrite
  repeat' split
  all_goals simp [h]

@[simp] theorem domSet_part (p : StatePart) (h : p ∉ ([.powerDoms] : List StatePart)) (a0 : Sys2Proof.Machine.State) (a1 : Nat) (a2 : Nat) (a3 : Sys2Proof.Machine.Dom) :
    part (domSet a0 a1 a2 a3) p = part a0 p := by
  simp at h
  unfold domSet
  repeat' split
  all_goals simp [h]

@[simp] theorem bootSet_part (p : StatePart) (h : p ∉ ([.boots] : List StatePart)) (a0 : Sys2Proof.Machine.State) (a1 : Nat) (a2 : Sys2Proof.Machine.BootSt → Sys2Proof.Machine.BootSt) :
    part (bootSet a0 a1 a2) p = part a0 p := by
  simp at h
  unfold bootSet
  repeat' split
  all_goals simp [h]

@[simp] theorem logEvent_part (p : StatePart) (h : p ∉ ([.regs, .supEventNow, .supEvents, .supNextEvent] : List StatePart)) (a0 : Sys2Proof.Machine.State) (a1 : Nat) (a2 : Sys2Proof.Machine.Event) :
    part (logEvent a0 a1 a2) p = part a0 p := by
  simp at h
  unfold logEvent
  repeat' split
  all_goals simp [h]

@[simp] theorem logRefused_part (p : StatePart) (h : p ∉ ([.regs, .supEventNow, .supEvents, .supNextEvent] : List StatePart)) (a0 : Sys2Proof.Machine.State) (a1 : Nat) (a2 : Sys2Proof.Machine.Reg) (a3 : Nat) (a4 : Option Nat) :
    part (logRefused a0 a1 a2 a3 a4) p = part a0 p := by
  simp at h
  unfold logRefused
  repeat' split
  all_goals simp [h]

@[simp] theorem hardSetBit_part (p : StatePart) (h : p ∉ ([.regs, .supW1cSet] : List StatePart)) (a0 : Sys2Proof.Machine.State) (a1 : Nat) (a2 : Sys2Proof.Machine.Reg) (a3 : Nat) :
    part (hardSetBit a0 a1 a2 a3) p = part a0 p := by
  simp at h
  unfold hardSetBit
  repeat' split
  all_goals simp [h]

@[simp] theorem clearByOnes_part (p : StatePart) (h : p ∉ ([.regs] : List StatePart)) (a0 : Sys2Proof.Machine.State) (a1 : Nat) (a2 : Sys2Proof.Machine.Reg) (a3 : Nat) (a4 : Nat) (a5 : Nat) :
    part (clearByOnes a0 a1 a2 a3 a4 a5) p = part a0 p := by
  simp at h
  unfold clearByOnes
  repeat' split
  all_goals simp [h]

@[simp] theorem setIrq_part (p : StatePart) (h : p ∉ ([.regs, .supW1cSet] : List StatePart)) (a0 : Sys2Proof.Machine.State) (a1 : Nat) (a2 : Nat) (a3 : Nat) :
    part (setIrq a0 a1 a2 a3) p = part a0 p := by
  simp at h
  unfold setIrq
  repeat' split
  all_goals simp [h]

@[simp] theorem ctrAdd_part (p : StatePart) (h : p ∉ ([.fabricCounters] : List StatePart)) (a0 : Sys2Proof.Machine.State) (a1 : Nat) (a2 : Sys2Proof.Machine.Reg) (a3 : Nat) :
    part (ctrAdd a0 a1 a2 a3) p = part a0 p := by
  simp at h
  unfold ctrAdd
  repeat' split
  all_goals simp [h]

@[simp] theorem segCount_part (p : StatePart) (h : p ∉ ([.fabricCounters] : List StatePart)) (a0 : Sys2Proof.Machine.State) (a1 : Nat) (a2 : Nat) (a3 : Nat) :
    part (segCount a0 a1 a2 a3) p = part a0 p := by
  simp at h
  unfold segCount
  repeat' split
  all_goals simp [h]

@[simp] theorem masterCount_part (p : StatePart) (h : p ∉ ([.fabricCounters] : List StatePart)) (a0 : Sys2Proof.Machine.State) (a1 : Nat) (a2 : Nat) :
    part (masterCount a0 a1 a2) p = part a0 p := by
  simp at h
  unfold masterCount
  repeat' split
  all_goals simp [h]

@[simp] theorem countLate_part (p : StatePart) (h : p ∉ ([.fabricCounters] : List StatePart)) (a0 : Sys2Proof.Machine.State) (a1 : Nat) (a2 : Sys2Proof.Word) :
    part (countLate a0 a1 a2) p = part a0 p := by
  simp at h
  unfold countLate
  repeat' split
  all_goals simp [h]

@[simp] theorem clusterCount_part (p : StatePart) (h : p ∉ ([.fabricCounters] : List StatePart)) (a0 : Sys2Proof.Machine.State) (a1 : Nat) (a2 : Nat) (a3 : Nat) (a4 : Nat) :
    part (clusterCount a0 a1 a2 a3 a4) p = part a0 p := by
  simp at h
  unfold clusterCount
  repeat' split
  all_goals simp [h]

@[simp] theorem dieCount_part (p : StatePart) (h : p ∉ ([.fabricCounters] : List StatePart)) (a0 : Sys2Proof.Machine.State) (a1 : Nat) (a2 : Nat) :
    part (dieCount a0 a1 a2) p = part a0 p := by
  simp at h
  unfold dieCount
  repeat' split
  all_goals simp [h]

/-! ### Lines -/

@[simp] theorem putRow_part (p : StatePart) (h : p ∉ ([.banksMem, .banksValid] : List StatePart)) (a0 : Sys2Proof.Machine.State) (a1 : Nat) (a2 : List Sys2Proof.Byte) :
    part (putRow a0 a1 a2) p = part a0 p := by
  simp at h
  unfold putRow
  repeat' split
  all_goals simp [h]

@[simp] theorem setSeal_part (p : StatePart) (h : p ∉ ([.banksSealMap] : List StatePart)) (a0 : Sys2Proof.Machine.State) (a1 : Nat) (a2 : Sys2Proof.Machine.SealState) :
    part (setSeal a0 a1 a2) p = part a0 p := by
  simp at h
  unfold setSeal
  repeat' split
  all_goals simp [h]

@[simp] theorem dropCollations_part (p : StatePart) (h : p ∉ ([.banksCollations, .fabricSlots] : List StatePart)) (a0 : Sys2Proof.Machine.State) (a1 : Nat → Bool) :
    part (dropCollations a0 a1) p = part a0 p := by
  simp at h
  unfold dropCollations
  repeat' split
  all_goals simp [h]

@[simp] theorem mergeMod_part (p : StatePart) (h : p ∉ ([.banksMerge] : List StatePart)) (a0 : Sys2Proof.Machine.State) (a1 : Nat) (a2 : Sys2Proof.Machine.MergeEntry → Sys2Proof.Machine.MergeEntry) :
    part (mergeMod a0 a1 a2) p = part a0 p := by
  simp at h
  unfold mergeMod
  repeat' split
  all_goals simp [h]

@[simp] theorem mergeDiscard_part (p : StatePart) (h : p ∉ ([.banksMerge, .regs, .supEventNow, .supEvents, .supNextEvent] : List StatePart)) (a0 : Sys2Proof.Machine.State) (a1 : Sys2Proof.Machine.MergeEntry → Bool) :
    part (mergeDiscard a0 a1) p = part a0 p := by
  simp at h
  unfold mergeDiscard
  repeat' split
  all_goals simp [h]

@[simp] theorem noteLost_part (p : StatePart) (h : p ∉ ([.banksLost] : List StatePart)) (a0 : Sys2Proof.Machine.State) (a1 : Sys2Proof.Machine.LostOp) (a2 : Nat) (a3 : Option Sys2Proof.Win) :
    part (noteLost a0 a1 a2 a3) p = part a0 p := by
  simp at h
  unfold noteLost
  repeat' split
  all_goals simp [h]

@[simp] theorem mergeDiscardFor_part (p : StatePart) (h : p ∉ ([.banksLost, .banksMerge, .regs, .supEventNow, .supEvents, .supNextEvent] : List StatePart)) (a0 : Sys2Proof.Machine.State) (a1 : Option Sys2Proof.Machine.LostOp) (a2 : Sys2Proof.Machine.MergeEntry → Bool) :
    part (mergeDiscardFor a0 a1 a2) p = part a0 p := by
  simp at h
  unfold mergeDiscardFor
  repeat' split
  all_goals simp [h]

@[simp] theorem logLost_part (p : StatePart) (h : p ∉ ([.banksLost, .regs, .supEventNow, .supEvents, .supNextEvent] : List StatePart)) (a0 : Sys2Proof.Machine.State) (a1 : Sys2Proof.Machine.LostOp) :
    part (logLost a0 a1) p = part a0 p := by
  simp at h
  unfold logLost
  repeat' split
  all_goals simp [h]

@[simp] theorem recordFindings_part (p : StatePart) (h : p ∉ ([.regs, .replicasBaroCorr, .supEventNow, .supEvents, .supNextEvent] : List StatePart)) (a0 : Sys2Proof.Machine.State) (a1 : Nat) (a2 : Nat) (a3 : List Sys2Proof.Machine.LineRead) (a4 : Nat) (a5 : Nat) :
    part (recordFindings a0 a1 a2 a3 a4 a5) p = part a0 p := by
  simp at h
  unfold recordFindings
  repeat' (first | (simp [h]; done) | split | (intro _) | (refine (foldl_part p _ ?_ _ _).trans ?_; intro s a) | (dsimp only; split) | (simp [h]; split) | simp [h])

@[simp] theorem readOver_part (p : StatePart) (h : p ∉ ([.fabricCounters, .regs, .replicasBaroCorr, .supEventNow, .supEvents, .supNextEvent] : List StatePart)) (a0 : Sys2Proof.Machine.State) (a1 : Nat) (a2 : Nat) (a3 : Nat) (a4 : Nat) (a5 : List Sys2Proof.Machine.LineRead) :
    part (readOver a0 a1 a2 a3 a4 a5).1 p = part a0 p := by
  simp at h
  unfold readOver
  repeat' split
  all_goals simp [h]

@[simp] theorem readBlock_part (p : StatePart) (h : p ∉ ([.fabricCounters, .regs, .replicasBaroCorr, .supEventNow, .supEvents, .supNextEvent] : List StatePart)) (a0 : Sys2Proof.Machine.State) (a1 : Nat) (a2 : Nat) (a3 : Nat) (a4 : Nat) :
    part (readBlock a0 a1 a2 a3 a4).1 p = part a0 p := by
  simp at h
  unfold readBlock
  repeat' (first | (simp [h]; done) | split | (dsimp only; split))

@[simp] theorem writeLine_part (p : StatePart) (h : p ∉ ([.banksMem, .banksMerge, .banksValid] : List StatePart)) (a0 : Sys2Proof.Machine.State) (a1 : Nat) (a2 : List Bool) (a3 : List Sys2Proof.Byte) (a4 : Bool) :
    part (writeLine a0 a1 a2 a3 a4) p = part a0 p := by
  simp at h
  unfold writeLine
  repeat' split
  all_goals simp [h]

@[simp] theorem placeLine_part (p : StatePart) (h : p ∉ ([.banksMerge, .fabricCounters] : List StatePart)) (a0 : Sys2Proof.Machine.State) (a1 : Nat) (a2 : Nat) (a3 : Nat) (a4 : List Bool) :
    part (placeLine a0 a1 a2 a3 a4).1 p = part a0 p := by
  simp at h
  unfold placeLine
  repeat' split
  all_goals simp [h]

@[simp] theorem writeWholeLine_part (p : StatePart) (h : p ∉ ([.banksMem, .banksValid] : List StatePart)) (a0 : Sys2Proof.Machine.State) (a1 : Nat) (a2 : List Sys2Proof.Byte) :
    part (writeWholeLine a0 a1 a2) p = part a0 p := by
  simp at h
  unfold writeWholeLine
  repeat' split
  all_goals simp [h]

@[simp] theorem flushEntry_part (p : StatePart) (h : p ∉ ([.banksMem, .banksMerge, .banksValid, .fabricCounters, .regs, .replicasBaroCorr, .supEventNow, .supEvents, .supNextEvent] : List StatePart)) (a0 : Sys2Proof.Machine.State) (a1 : Sys2Proof.Machine.MergeEntry) :
    part (flushEntry a0 a1) p = part a0 p := by
  simp at h
  unfold flushEntry
  repeat' split
  all_goals simp [h]

@[simp] theorem releaseSeal_part (p : StatePart) (h : p ∉ ([.banksSealMap, .banksSeals, .regs, .supEventNow, .supEvents, .supNextEvent] : List StatePart)) (a0 : Sys2Proof.Machine.State) (a1 : Sys2Proof.Machine.SealCtx) :
    part (releaseSeal a0 a1) p = part a0 p := by
  simp at h
  unfold releaseSeal
  repeat' split
  all_goals simp [h]

@[simp] theorem releaseSeals_part (p : StatePart) (h : p ∉ ([.banksSealMap, .banksSeals, .regs, .supEventNow, .supEvents, .supNextEvent] : List StatePart)) (a0 : Sys2Proof.Machine.State) (a1 : Sys2Proof.Machine.SealCtx → Bool) (a2 : Bool) :
    part (releaseSeals a0 a1 a2) p = part a0 p := by
  simp at h
  unfold releaseSeals
  repeat' split
  all_goals simp [h]

@[simp] theorem setBankPower_part (p : StatePart) (h : p ∉ ([.regs] : List StatePart)) (a0 : Sys2Proof.Machine.State) (a1 : Nat) (a2 : Nat) :
    part (setBankPower a0 a1 a2) p = part a0 p := by
  simp at h
  unfold setBankPower
  repeat' split
  all_goals simp [h]

@[simp] theorem touchBank_part (p : StatePart) (h : p ∉ ([.banksLastActive, .regs] : List StatePart)) (a0 : Sys2Proof.Machine.State) (a1 : Nat) :
    part (touchBank a0 a1) p = part a0 p := by
  simp at h
  unfold touchBank
  repeat' split
  all_goals simp [h]

@[simp] theorem touchBankTo_part (p : StatePart) (h : p ∉ ([.banksLastActive, .regs] : List StatePart)) (a0 : Sys2Proof.Machine.State) (a1 : Nat) (a2 : Nat) :
    part (touchBankTo a0 a1 a2) p = part a0 p := by
  simp at h
  unfold touchBankTo
  repeat' split
  all_goals simp [h]

@[simp] theorem setPause_part (p : StatePart) (h : p ∉ ([.banksPauses] : List StatePart)) (a0 : Sys2Proof.Machine.State) (a1 : Nat) (a2 : Sys2Proof.Machine.PauseRec) :
    part (setPause a0 a1 a2) p = part a0 p := by
  simp at h
  unfold setPause
  repeat' split
  all_goals simp [h]

@[simp] theorem endPause_part (p : StatePart) (h : p ∉ ([.banksPauses] : List StatePart)) (a0 : Sys2Proof.Machine.State) (a1 : Nat) :
    part (endPause a0 a1) p = part a0 p := by
  simp at h
  unfold endPause
  repeat' split
  all_goals simp [h]

@[simp] theorem clearValid_part (p : StatePart) (h : p ∉ ([.banksValid] : List StatePart)) (a0 : Sys2Proof.Machine.State) (a1 : Nat) :
    part (clearValid a0 a1) p = part a0 p := by
  simp at h
  unfold clearValid
  repeat' split
  all_goals simp [h]

@[simp] theorem noteWake_part (p : StatePart) (h : p ∉ ([.powerDoms] : List StatePart)) (a0 : Sys2Proof.Machine.State) (a1 : Nat) :
    part (noteWake a0 a1) p = part a0 p := by
  simp at h
  unfold noteWake
  repeat' (first | (simp [h]; done) | split | (dsimp only; split))

@[simp] theorem startWake_part (p : StatePart) (h : p ∉ ([.banksLastActive, .banksPauses, .banksValid, .powerDoms, .regs] : List StatePart)) (a0 : Sys2Proof.Machine.State) (a1 : Nat) (a2 : List Sys2Proof.Machine.Pause) :
    part (startWake a0 a1 a2) p = part a0 p := by
  simp at h
  unfold startWake
  repeat' split
  all_goals simp [h]

/-! ### Access -/

@[simp] theorem useEntry_part (p : StatePart) (h : p ∉ ([.regs, .supCatCorrected, .supCatReported, .supEventNow, .supEvents, .supNextEvent] : List StatePart)) (a0 : Sys2Proof.Machine.State) (a1 : Nat) :
    part (useEntry a0 a1) p = part a0 p := by
  simp at h
  unfold useEntry
  repeat' (first | (simp [h]; done) | split | (dsimp only; split))

@[simp] theorem noteDenied_part (p : StatePart) (h : p ∉ ([.regs, .securityDenialSeen, .supEventNow, .supEvents, .supNextEvent] : List StatePart)) (a0 : Sys2Proof.Machine.State) (a1 : Nat) (a2 : Nat) (a3 : Nat) (a4 : Sys2Proof.Machine.Verdict) (a5 : Nat) (a6 : Nat) :
    part (noteDenied a0 a1 a2 a3 a4 a5 a6) p = part a0 p := by
  simp at h
  unfold noteDenied
  repeat' split
  all_goals simp [h]

/-! ### Cmd -/

@[simp] theorem cmdCount_part (p : StatePart) (h : p ∉ ([.regs] : List StatePart)) (a0 : Sys2Proof.Machine.State) (a1 : Nat) (a2 : Nat) (a3 : Nat) (a4 : Nat) :
    part (cmdCount a0 a1 a2 a3 a4) p = part a0 p := by
  simp at h
  unfold cmdCount
  repeat' split
  all_goals simp [h]

@[simp] theorem cmdRefusedCount_part (p : StatePart) (h : p ∉ ([.regs, .supEventNow, .supEvents, .supNextEvent] : List StatePart)) (a0 : Sys2Proof.Machine.State) (a1 : Sys2Proof.CmdSrc) (a2 : Nat) :
    part (cmdRefusedCount a0 a1 a2) p = part a0 p := by
  simp at h
  unfold cmdRefusedCount
  repeat' split
  all_goals simp [h]

@[simp] theorem completeCmd_part (p : StatePart) (h : p ∉ ([.regs, .supAllocs, .supCmds, .supEventNow, .supEvents, .supInputs, .supNextEvent, .supSideOrder, .supW1cSet] : List StatePart)) (a0 : Sys2Proof.Machine.State) (a1 : Sys2Proof.CmdSrc) (a2 : Sys2Proof.Word) (a3 : optParam (List Nat) []) :
    part (completeCmd a0 a1 a2 a3) p = part a0 p := by
  simp at h
  unfold completeCmd
  repeat' split
  all_goals simp [h]

@[simp] theorem endCmd_part (p : StatePart) (h : p ∉ ([.regs, .supAllocs, .supCmds, .supEventNow, .supEvents, .supInputs, .supNextEvent, .supSideOrder, .supW1cSet] : List StatePart)) (a0 : Sys2Proof.Machine.State) (a1 : Sys2Proof.CmdSrc) (a2 : Nat) :
    part (endCmd a0 a1 a2) p = part a0 p := by
  simp at h
  unfold endCmd
  repeat' split
  all_goals simp [h]

@[simp] theorem continueCmd_part (p : StatePart) (h : p ∉ ([.supCmds] : List StatePart)) (a0 : Sys2Proof.Machine.State) (a1 : Sys2Proof.CmdSrc) :
    part (continueCmd a0 a1) p = part a0 p := by
  simp at h
  unfold continueCmd
  repeat' split
  all_goals simp [h]

@[simp] theorem completeWhere_part (p : StatePart) (h : p ∉ ([.regs, .supAllocs, .supCmds, .supEventNow, .supEvents, .supInputs, .supNextEvent, .supSideOrder, .supW1cSet] : List StatePart)) (a0 : Sys2Proof.Machine.State) (a1 : Nat) (a2 : Sys2Proof.CmdSrc → Bool) (a3 : Sys2Proof.Word) (a4 : optParam (List Nat) []) :
    part (completeWhere a0 a1 a2 a3 a4) p = part a0 p := by
  simp at h
  unfold completeWhere
  repeat' split
  all_goals simp [h]

@[simp] theorem cmdChecked_part (p : StatePart) (h : p ∉ ([.regs, .supAllocs, .supCmds, .supEventNow, .supEvents, .supInputs, .supNextEvent, .supSideOrder, .supW1cSet] : List StatePart)) (a0 : Sys2Proof.Machine.State) (a1 : Sys2Proof.CmdSrc) (a2 : List (Bool × Nat)) (a3 : State → State) (hf3 : ∀ s, part (a3 s) p = part s p) :
    part (cmdChecked a0 a1 a2 a3) p = part a0 p := by
  simp at h
  unfold cmdChecked
  repeat' (first | (simp [h, *]; done) | split | (intro _) | (refine (foldl_part p _ ?_ _ _).trans ?_; intro s a) | (dsimp only; split) | (simp [h, *]; split) | simp [h, *])

end Sys2Proof.Laws
end

