-- ==== Sys2Proof/Laws/PartsFabric.lean ====
section
/-! SUPPORT. What the context, queue, clock, cache and grant operations leave alone. -/

namespace Sys2Proof.Laws

open Sys2Proof Sys2Proof.Machine

/-! ### StreamBase -/

@[simp] theorem ctxSet_part (p : StatePart) (h : p ∉ ([.streamsCtxs] : List StatePart)) (a0 : Sys2Proof.Machine.State) (a1 : Sys2Proof.CtxId) (a2 : Sys2Proof.Machine.Ctx) :
    part (ctxSet a0 a1 a2) p = part a0 p := by
  simp at h
  unfold ctxSet
  repeat' split
  all_goals simp [h]

@[simp] theorem ctxMod_part (p : StatePart) (h : p ∉ ([.streamsCtxs] : List StatePart)) (a0 : Sys2Proof.Machine.State) (a1 : Sys2Proof.CtxId) (a2 : Sys2Proof.Machine.Ctx → Sys2Proof.Machine.Ctx) :
    part (ctxMod a0 a1 a2) p = part a0 p := by
  simp at h
  unfold ctxMod
  repeat' split
  all_goals simp [h]

@[simp] theorem startRun_part (p : StatePart) (h : p ∉ ([.streamsCtxs] : List StatePart)) (a0 : Sys2Proof.Machine.State) (a1 : Sys2Proof.CtxId) (a2 : Sys2Proof.Machine.Image) (a3 : Bool) :
    part (startRun a0 a1 a2 a3) p = part a0 p := by
  simp at h
  unfold startRun
  repeat' split
  all_goals simp [h]

@[simp] theorem makeReady_part (p : StatePart) (h : p ∉ ([.streamsCtxs] : List StatePart)) (a0 : Sys2Proof.Machine.State) (a1 : Sys2Proof.CtxId) :
    part (makeReady a0 a1) p = part a0 p := by
  simp at h
  unfold makeReady
  repeat' split
  all_goals simp [h]

@[simp] theorem leaveSeq_part (p : StatePart) (h : p ∉ ([.streamsCtxs] : List StatePart)) (a0 : Sys2Proof.Machine.State) (a1 : Sys2Proof.CtxId) (a2 : Sys2Proof.Machine.Wait) :
    part (leaveSeq a0 a1 a2) p = part a0 p := by
  simp at h
  unfold leaveSeq
  repeat' split
  all_goals simp [h]

@[simp] theorem endRequest_part (p : StatePart) (h : p ∉ ([.banksLastActive] : List StatePart)) (a0 : Sys2Proof.Machine.State) (a1 : Nat) :
    part (endRequest a0 a1) p = part a0 p := by
  simp at h
  unfold endRequest
  repeat' split
  all_goals simp [h]

@[simp] theorem dropSlot_part (p : StatePart) (h : p ∉ ([.banksLastActive, .banksMerge, .fabricPlan, .fabricSlots] : List StatePart)) (a0 : Sys2Proof.Machine.State) (a1 : Nat) :
    part (dropSlot a0 a1) p = part a0 p := by
  simp at h
  unfold dropSlot
  repeat' split
  all_goals simp [h]

@[simp] theorem dropLoads_part (p : StatePart) (h : p ∉ ([.banksLastActive, .banksMerge, .fabricPlan, .fabricSlots] : List StatePart)) (a0 : Sys2Proof.Machine.State) (a1 : Sys2Proof.CtxId) :
    part (dropLoads a0 a1) p = part a0 p := by
  simp at h
  unfold dropLoads
  repeat' split
  all_goals simp [h]

@[simp] theorem recMod_part (p : StatePart) (h : p ∉ ([.streamsCtxs] : List StatePart)) (a0 : Sys2Proof.Machine.State) (a1 : Sys2Proof.CtxId) (a2 : Nat) (a3 : Sys2Proof.Machine.SlotRec → Sys2Proof.Machine.SlotRec) :
    part (recMod a0 a1 a2 a3) p = part a0 p := by
  simp at h
  unfold recMod
  repeat' split
  all_goals simp [h]

@[simp] theorem unlist_part (p : StatePart) (h : p ∉ ([.queuesSlipq] : List StatePart)) (a0 : Sys2Proof.Machine.State) (a1 : Sys2Proof.CtxId) :
    part (unlist a0 a1) p = part a0 p := by
  simp at h
  unfold unlist
  repeat' split
  all_goals simp [h]

@[simp] theorem stopIssuing_part (p : StatePart) (h : p ∉ ([.banksLastActive, .banksMerge, .fabricPlan, .fabricSlots, .queuesSlipq, .remoteOutMsgs, .remoteOutStage, .streamsCtxs] : List StatePart)) (a0 : Sys2Proof.Machine.State) (a1 : Sys2Proof.CtxId) :
    part (stopIssuing a0 a1) p = part a0 p := by
  simp at h
  unfold stopIssuing
  repeat' split
  all_goals simp [h]

@[simp] theorem freeTiles_part (p : StatePart) (h : p ∉ ([.streamsTiles] : List StatePart)) (a0 : Sys2Proof.Machine.State) (a1 : Sys2Proof.CtxId) :
    part (freeTiles a0 a1) p = part a0 p := by
  simp at h
  unfold freeTiles
  repeat' split
  all_goals simp [h]

@[simp] theorem endAborts_part (p : StatePart) (h : p ∉ ([.regs, .streamsAborts, .supAllocs, .supCmds, .supEventNow, .supEvents, .supInputs, .supNextEvent, .supSideOrder, .supW1cSet] : List StatePart)) (a0 : Sys2Proof.Machine.State) :
    part (endAborts a0) p = part a0 p := by
  simp at h
  unfold endAborts
  repeat' split
  all_goals simp [h]

@[simp] theorem endHalts_part (p : StatePart) (h : p ∉ ([.regs, .supAllocs, .supCmds, .supEventNow, .supEvents, .supInputs, .supNextEvent, .supSideOrder, .supW1cSet] : List StatePart)) (a0 : Sys2Proof.Machine.State) (a1 : Sys2Proof.CtxId) (a2 : Nat) :
    part (endHalts a0 a1 a2) p = part a0 p := by
  simp at h
  unfold endHalts
  repeat' split
  all_goals simp [h]

@[simp] theorem resumeCtx_part (p : StatePart) (h : p ∉ ([.queuesSlipq, .streamsCtxs] : List StatePart)) (a0 : Sys2Proof.Machine.State) (a1 : Sys2Proof.CtxId) :
    part (resumeCtx a0 a1) p = part a0 p := by
  simp at h
  unfold resumeCtx
  repeat' split
  all_goals simp [h]

@[simp] theorem listGiver_part (p : StatePart) (h : p ∉ ([.queuesSlipq, .regs, .streamsCtxs, .supW1cSet] : List StatePart)) (a0 : Sys2Proof.Machine.State) (a1 : Sys2Proof.CtxId) (a2 : Nat) :
    part (listGiver a0 a1 a2) p = part a0 p := by
  simp at h
  unfold listGiver
  repeat' split
  all_goals simp [h]

@[simp] theorem wakeWaiters_part (p : StatePart) (h : p ∉ ([.streamsCtxs] : List StatePart)) (a0 : Sys2Proof.Machine.State) (a1 : Nat) (a2 : Nat) :
    part (wakeWaiters a0 a1 a2) p = part a0 p := by
  simp at h
  unfold wakeWaiters
  repeat' split
  all_goals simp [h]

@[simp] theorem finishStop_part (p : StatePart) (h : p ∉ ([.banksSealMap, .banksSeals, .queuesSlipq, .regs, .streamsAborts, .streamsCtxs, .streamsTiles, .supAllocs, .supCmds, .supEventNow, .supEvents, .supInputs, .supNextEvent, .supSideOrder, .supW1cSet] : List StatePart)) (a0 : Sys2Proof.Machine.State) (a1 : Sys2Proof.CtxId) :
    part (finishStop a0 a1) p = part a0 p := by
  simp at h
  unfold finishStop
  repeat' (first | (simp [h]; done) | split | (dsimp only; split))

@[simp] theorem startHalt_part (p : StatePart) (h : p ∉ ([.banksLastActive, .banksMerge, .banksSealMap, .banksSeals, .fabricPlan, .fabricSlots, .queuesSlipq, .regs, .remoteOutMsgs, .remoteOutStage, .streamsAborts, .streamsCtxs, .streamsTiles, .supAllocs, .supCmds, .supEventNow, .supEvents, .supInputs, .supNextEvent, .supSideOrder, .supW1cSet] : List StatePart)) (a0 : Sys2Proof.Machine.State) (a1 : Sys2Proof.CtxId) (a2 : Nat) :
    part (startHalt a0 a1 a2) p = part a0 p := by
  simp at h
  unfold startHalt
  repeat' split
  all_goals simp [h]

@[simp] theorem startAbort_part (p : StatePart) (h : p ∉ ([.banksLastActive, .banksMerge, .banksSealMap, .banksSeals, .fabricPlan, .fabricSlots, .queuesSlipq, .regs, .remoteOutMsgs, .remoteOutStage, .streamsAborts, .streamsCtxs, .streamsTiles, .supAllocs, .supCmds, .supEventNow, .supEvents, .supInputs, .supNextEvent, .supSideOrder, .supW1cSet] : List StatePart)) (a0 : Sys2Proof.Machine.State) (a1 : Sys2Proof.CtxId) (a2 : Nat) (a3 : Nat) :
    part (startAbort a0 a1 a2 a3) p = part a0 p := by
  simp at h
  unfold startAbort
  repeat' split
  all_goals simp [h]

@[simp] theorem abortOnDie_part (p : StatePart) (h : p ∉ ([.banksLastActive, .banksMerge, .banksSealMap, .banksSeals, .fabricPlan, .fabricSlots, .queuesSlipq, .regs, .remoteOutMsgs, .remoteOutStage, .streamsAborts, .streamsCtxs, .streamsTiles, .supAllocs, .supCmds, .supEventNow, .supEvents, .supInputs, .supNextEvent, .supSideOrder, .supW1cSet] : List StatePart)) (a0 : Sys2Proof.Machine.State) (a1 : Nat) (a2 : Nat) (a3 : Nat) (a4 : Nat) (a5 : Nat) :
    part (abortOnDie a0 a1 a2 a3 a4 a5) p = part a0 p := by
  simp at h
  unfold abortOnDie
  repeat' (first | (simp [h]; done) | split | (intro _) | (refine (foldl_part p _ ?_ _ _).trans ?_; intro s a) | (dsimp only; split) | (simp [h]; split) | simp [h])

@[simp] theorem taskAbort_part (p : StatePart) (h : p ∉ ([.banksLastActive, .banksMerge, .banksSealMap, .banksSeals, .fabricPlan, .fabricSlots, .queuesSlipq, .regs, .remoteOutMsgs, .remoteOutStage, .streamsAborts, .streamsCtxs, .streamsTiles, .supAllocs, .supCmds, .supEventNow, .supEvents, .supInputs, .supNextEvent, .supSideOrder, .supW1cSet] : List StatePart)) (a0 : Sys2Proof.Machine.State) (a1 : Nat) (a2 : Nat) (a3 : Nat) (a4 : Nat) (a5 : Option Sys2Proof.CtxId) (a6 : Nat) (a7 : Nat) :
    part (taskAbort a0 a1 a2 a3 a4 a5 a6 a7) p = part a0 p := by
  simp at h
  unfold taskAbort
  repeat' split
  all_goals simp [h]

@[simp] theorem ctxAbort_part (p : StatePart) (h : p ∉ ([.banksLastActive, .banksMerge, .banksSealMap, .banksSeals, .fabricPlan, .fabricSlots, .queuesSlipq, .regs, .remoteOutMsgs, .remoteOutStage, .streamsAborts, .streamsCtxs, .streamsTiles, .supAllocs, .supCmds, .supEventNow, .supEvents, .supInputs, .supNextEvent, .supSideOrder, .supW1cSet] : List StatePart)) (a0 : Sys2Proof.Machine.State) (a1 : Sys2Proof.CtxId) (a2 : Nat) :
    part (ctxAbort a0 a1 a2) p = part a0 p := by
  simp at h
  unfold ctxAbort
  repeat' (first | (simp [h]; done) | split | (dsimp only; split))

@[simp] theorem applyEffect_part (p : StatePart) (h : p ∉ ([.banksLastActive, .banksMerge, .banksSealMap, .banksSeals, .fabricPlan, .fabricSlots, .queuesSlipq, .regs, .remoteOutMsgs, .remoteOutStage, .streamsAborts, .streamsCtxs, .streamsTiles, .supAllocs, .supCmds, .supEventNow, .supEvents, .supInputs, .supNextEvent, .supSideOrder, .supW1cSet] : List StatePart)) (a0 : Sys2Proof.Machine.State) (a1 : Sys2Proof.CtxId) (a2 : Sys2Proof.Machine.Effect) (a3 : Sys2Proof.Word) (a4 : BitVec 48) :
    part (applyEffect a0 a1 a2 a3 a4) p = part a0 p := by
  simp at h
  unfold applyEffect
  repeat' split
  all_goals simp [h]

@[simp] theorem ctxSlotDone_part (p : StatePart) (h : p ∉ ([.banksLastActive, .banksMerge, .banksSealMap, .banksSeals, .fabricPlan, .fabricSlots, .queuesSlipq, .regs, .remoteOutMsgs, .remoteOutStage, .streamsAborts, .streamsCtxs, .streamsTiles, .supAllocs, .supCmds, .supEventNow, .supEvents, .supInputs, .supNextEvent, .supSideOrder, .supW1cSet] : List StatePart)) (a0 : Sys2Proof.Machine.State) (a1 : Sys2Proof.CtxId) (a2 : Nat) (a3 : Sys2Proof.Word) (a4 : BitVec 48) (a5 : Option (List Sys2Proof.Byte)) :
    part (ctxSlotDone a0 a1 a2 a3 a4 a5) p = part a0 p := by
  simp at h
  unfold ctxSlotDone
  repeat' split
  all_goals simp [h]

/-! ### Queues -/

@[simp] theorem sqSet_part (p : StatePart) (h : p ∉ ([.queuesSlipq] : List StatePart)) (a0 : Sys2Proof.Machine.State) (a1 : Nat) (a2 : Sys2Proof.Machine.SlipQ) :
    part (sqSet a0 a1 a2) p = part a0 p := by
  simp at h
  unfold sqSet
  repeat' split
  all_goals simp [h]

@[simp] theorem cqSet_part (p : StatePart) (h : p ∉ ([.queuesComb] : List StatePart)) (a0 : Sys2Proof.Machine.State) (a1 : Nat) (a2 : Sys2Proof.Machine.CombQ) :
    part (cqSet a0 a1 a2) p = part a0 p := by
  simp at h
  unfold cqSet
  repeat' split
  all_goals simp [h]

@[simp] theorem rsSet_part (p : StatePart) (h : p ∉ ([.queuesResults] : List StatePart)) (a0 : Sys2Proof.Machine.State) (a1 : Nat) (a2 : Nat) (a3 : Sys2Proof.Machine.ResSlot) :
    part (rsSet a0 a1 a2 a3) p = part a0 p := by
  simp at h
  unfold rsSet
  repeat' split
  all_goals simp [h]

@[simp] theorem structEvent_part (p : StatePart) (h : p ∉ ([.regs, .supEventNow, .supEvents, .supNextEvent] : List StatePart)) (a0 : Sys2Proof.Machine.State) (a1 : Nat) (a2 : Nat) (a3 : Nat) (a4 : Nat) (a5 : Nat) (a6 : Nat) :
    part (structEvent a0 a1 a2 a3 a4 a5 a6) p = part a0 p := by
  simp at h
  unfold structEvent
  repeat' split
  all_goals simp [h]

@[simp] theorem disableSlipq_part (p : StatePart) (h : p ∉ ([.banksLastActive, .banksMerge, .banksSealMap, .banksSeals, .fabricPlan, .fabricSlots, .queuesSlipq, .regs, .remoteOutMsgs, .remoteOutStage, .streamsAborts, .streamsCtxs, .streamsTiles, .supAllocs, .supCmds, .supEventNow, .supEvents, .supInputs, .supNextEvent, .supSideOrder, .supW1cSet] : List StatePart)) (a0 : Sys2Proof.Machine.State) (a1 : Nat) (a2 : Bool) :
    part (disableSlipq a0 a1 a2) p = part a0 p := by
  simp at h
  unfold disableSlipq
  repeat' split
  all_goals simp [h]

@[simp] theorem disableComb_part (p : StatePart) (h : p ∉ ([.queuesComb, .regs, .supEventNow, .supEvents, .supNextEvent] : List StatePart)) (a0 : Sys2Proof.Machine.State) (a1 : Nat) (a2 : Nat) (a3 : Nat) (a4 : Bool) :
    part (disableComb a0 a1 a2 a3 a4) p = part a0 p := by
  simp at h
  unfold disableComb
  repeat' split
  all_goals simp [h]

@[simp] theorem disableBlock_part (p : StatePart) (h : p ∉ ([.queuesResults, .regs, .supEventNow, .supEvents, .supNextEvent] : List StatePart)) (a0 : Sys2Proof.Machine.State) (a1 : Nat) (a2 : Nat) (a3 : Bool) :
    part (disableBlock a0 a1 a2 a3) p = part a0 p := by
  simp at h
  unfold disableBlock
  repeat' split
  all_goals simp [h]

@[simp] theorem disableGroup_part (p : StatePart) (h : p ∉ ([.regs, .supEventNow, .supEvents, .supNextEvent] : List StatePart)) (a0 : Sys2Proof.Machine.State) (a1 : Nat) (a2 : Nat) (a3 : Bool) :
    part (disableGroup a0 a1 a2 a3) p = part a0 p := by
  simp at h
  unfold disableGroup
  repeat' split
  all_goals simp [h]

@[simp] theorem disableReg_part (p : StatePart) (h : p ∉ ([.banksLastActive, .banksMerge, .banksSealMap, .banksSeals, .fabricPlan, .fabricSlots, .queuesComb, .queuesResults, .queuesSlipq, .regs, .remoteOutMsgs, .remoteOutStage, .streamsAborts, .streamsCtxs, .streamsTiles, .supAllocs, .supCmds, .supEventNow, .supEvents, .supInputs, .supNextEvent, .supSideOrder, .supW1cSet] : List StatePart)) (a0 : Sys2Proof.Machine.State) (a1 : Nat) (a2 : Bool) (a3 : Sys2Proof.Machine.Reg) :
    part (disableReg a0 a1 a2 a3) p = part a0 p := by
  simp at h
  cases a3 <;> simp [disableReg, h]

@[simp] theorem disableBank_part (p : StatePart) (h : p ∉ ([.banksLastActive, .banksMerge, .banksSealMap, .banksSeals, .fabricPlan, .fabricSlots, .queuesComb, .queuesResults, .queuesSlipq, .regs, .remoteOutMsgs, .remoteOutStage, .streamsAborts, .streamsCtxs, .streamsTiles, .supAllocs, .supCmds, .supEventNow, .supEvents, .supInputs, .supNextEvent, .supSideOrder, .supW1cSet] : List StatePart)) (a0 : Sys2Proof.Machine.State) (a1 : Nat) :
    part (disableBank a0 a1) p = part a0 p := by
  simp at h
  unfold disableBank
  simp [h]

@[simp] theorem disableDie_part (p : StatePart) (h : p ∉ ([.banksLastActive, .banksMerge, .banksSealMap, .banksSeals, .fabricPlan, .fabricSlots, .queuesComb, .queuesResults, .queuesSlipq, .regs, .remoteOutMsgs, .remoteOutStage, .streamsAborts, .streamsCtxs, .streamsTiles, .supAllocs, .supCmds, .supEventNow, .supEvents, .supInputs, .supNextEvent, .supSideOrder, .supW1cSet] : List StatePart)) (a0 : Sys2Proof.Machine.State) (a1 : Nat) :
    part (disableDie a0 a1) p = part a0 p := by
  simp at h
  unfold disableDie
  simp [h]

@[simp] theorem hardSet_part (p : StatePart) (h : p ∉ ([.regs, .replicasStrays, .replicasUnsafeRegs] : List StatePart)) (a0 : Sys2Proof.Machine.State) (a1 : Nat) (a2 : Sys2Proof.Machine.Reg) (a3 : Sys2Proof.Word) :
    part (hardSet a0 a1 a2 a3) p = part a0 p := by
  simp at h
  unfold hardSet
  repeat' split
  all_goals simp [h]

@[simp] theorem hardChange_part (p : StatePart) (h : p ∉ ([.regs, .replicasStrays, .replicasUnsafeRegs] : List StatePart)) (a0 : Sys2Proof.Machine.State) (a1 : Nat) (a2 : Sys2Proof.Machine.Reg) (a3 : Sys2Proof.Word) :
    part (hardChange a0 a1 a2 a3) p = part a0 p := by
  simp at h
  unfold hardChange
  repeat' split
  all_goals simp [h]

@[simp] theorem refuseLast_part (p : StatePart) (h : p ∉ ([.regs, .supEventNow, .supEvents, .supNextEvent] : List StatePart)) (a0 : Sys2Proof.Machine.State) (a1 : Nat) (a2 : Sys2Proof.Machine.Reg) (a3 : Nat) (a4 : Option Nat) :
    part (refuseLast a0 a1 a2 a3 a4) p = part a0 p := by
  simp at h
  unfold refuseLast
  repeat' split
  all_goals simp [h]

@[simp] theorem copyWrite_part (p : StatePart) (h : p ∉ ([.queuesCopies] : List StatePart)) (a0 : Sys2Proof.Machine.State) (a1 : Nat) (a2 : Sys2Proof.Machine.Reg) (a3 : Sys2Proof.Word) :
    part (copyWrite a0 a1 a2 a3) p = part a0 p := by
  simp at h
  unfold copyWrite
  repeat' split
  all_goals simp [h]

@[simp] theorem structWrite_part (p : StatePart) (h : p ∉ ([.banksLastActive, .banksMerge, .banksSealMap, .banksSeals, .fabricPlan, .fabricSlots, .queuesComb, .queuesCopies, .queuesResults, .queuesSlipq, .regs, .remoteOutMsgs, .remoteOutStage, .replicasStrays, .replicasUnsafeRegs, .streamsAborts, .streamsCtxs, .streamsTiles, .supAllocs, .supCmds, .supEventNow, .supEvents, .supInputs, .supNextEvent, .supSideOrder, .supW1cSet] : List StatePart)) (a0 : Sys2Proof.Machine.State) (a1 : Nat) (a2 : Nat) (a3 : Sys2Proof.Machine.Reg) (a4 : Sys2Proof.Word) :
    part (structWrite a0 a1 a2 a3 a4) p = part a0 p := by
  simp at h
  unfold structWrite
  dsimp only
  split
  · simp [h]
  · split
    · simp [h]
    · split
      · split <;> split <;> simp [h]
      · split <;> simp [h]

@[simp] theorem memberWrite_part (p : StatePart) (h : p ∉ ([.queuesCopies, .regs, .replicasStrays, .replicasUnsafeRegs, .supEventNow, .supEvents, .supNextEvent] : List StatePart)) (a0 : Sys2Proof.Machine.State) (a1 : Nat) (a2 : Nat) (a3 : Nat) (a4 : Nat) (a5 : Sys2Proof.Word) (a6 : Sys2Proof.Word) :
    part (memberWrite a0 a1 a2 a3 a4 a5 a6) p = part a0 p := by
  simp at h
  unfold memberWrite
  repeat' split
  all_goals simp [h]

@[simp] theorem copiesEdge_part (p : StatePart) (h : p ∉ ([.queuesCopies, .regs, .replicasBallots, .replicasStrays, .replicasUnsafeRegs] : List StatePart)) (a0 : Sys2Proof.Machine.State) :
    part (copiesEdge a0) p = part a0 p := by
  simp at h
  unfold copiesEdge
  repeat' (first | (simp [h]; done) | split | (intro _) | (refine (foldl_part p _ ?_ _ _).trans ?_; intro s a) | (dsimp only; split) | (simp [h]; split) | simp [h])

/-! ### Present -/

@[simp] theorem useCycles_part (p : StatePart) (h : p ∉ ([.banksLastActive, .fabricHolds, .regs] : List StatePart)) (a0 : Sys2Proof.Machine.State) (a1 : Nat) (a2 : Nat) (a3 : Nat) :
    part (useCycles a0 a1 a2 a3) p = part a0 p := by
  simp at h
  unfold useCycles
  repeat' split
  all_goals simp [h]

@[simp] theorem collationMod_part (p : StatePart) (h : p ∉ ([.banksCollations] : List StatePart)) (a0 : Sys2Proof.Machine.State) (a1 : Nat) (a2 : Sys2Proof.Machine.Collation → Sys2Proof.Machine.Collation) :
    part (collationMod a0 a1 a2) p = part a0 p := by
  simp at h
  unfold collationMod
  repeat' split
  all_goals simp [h]

@[simp] theorem startCollation_part (p : StatePart) (h : p ∉ ([.banksCollations, .banksLastActive, .banksPauses, .banksValid, .fabricSlots, .powerDoms, .regs] : List StatePart)) (a0 : Sys2Proof.Machine.State) (a1 : Nat) (a2 : Sys2Proof.Machine.Slot) :
    part (startCollation a0 a1 a2) p = part a0 p := by
  simp at h
  unfold startCollation
  repeat' (first | (simp [h]; done) | split | (dsimp only; split))

@[simp] theorem sealMod_part (p : StatePart) (h : p ∉ ([.banksSeals] : List StatePart)) (a0 : Sys2Proof.Machine.State) (a1 : Nat) (a2 : Sys2Proof.Machine.SealCtx → Sys2Proof.Machine.SealCtx) :
    part (sealMod a0 a1 a2) p = part a0 p := by
  simp at h
  unfold sealMod
  repeat' split
  all_goals simp [h]

@[simp] theorem slotMod_part (p : StatePart) (h : p ∉ ([.fabricSlots] : List StatePart)) (a0 : Sys2Proof.Machine.State) (a1 : Nat) (a2 : Sys2Proof.Machine.Slot → Sys2Proof.Machine.Slot) :
    part (slotMod a0 a1 a2) p = part a0 p := by
  simp at h
  unfold slotMod
  repeat' split
  all_goals simp [h]

@[simp] theorem pinLines_part (p : StatePart) (h : p ∉ ([.banksMerge] : List StatePart)) (a0 : Sys2Proof.Machine.State) (a1 : Sys2Proof.Machine.Slot) :
    part (pinLines a0 a1) p = part a0 p := by
  simp at h
  unfold pinLines
  repeat' split
  all_goals simp [h]

@[simp] theorem readAhead_part (p : StatePart) (h : p ∉ ([.banksCollations, .banksLastActive, .banksPauses, .banksValid, .fabricSlots, .powerDoms, .regs] : List StatePart)) (a0 : Sys2Proof.Machine.State) (a1 : Sys2Proof.Machine.Slot) :
    part (readAhead a0 a1) p = part a0 p := by
  simp at h
  unfold readAhead
  repeat' split
  all_goals simp [h]

@[simp] theorem presentOne_part (p : StatePart) (h : p ∉ ([.banksCollations, .banksLastActive, .banksMerge, .banksPauses, .banksValid, .fabricSlots, .powerDoms, .regs] : List StatePart)) (a0 : Sys2Proof.Machine.State) (a1 : Nat) :
    part (presentOne a0 a1) p = part a0 p := by
  simp at h
  unfold presentOne
  repeat' (first | (simp [h]; done) | split | (dsimp only; split))

@[simp] theorem presentAll_part (p : StatePart) (h : p ∉ ([.banksCollations, .banksLastActive, .banksMerge, .banksPauses, .banksValid, .fabricSlots, .powerDoms, .regs] : List StatePart)) (a0 : Sys2Proof.Machine.State) :
    part (presentAll a0) p = part a0 p := by
  simp at h
  unfold presentAll
  repeat' split
  all_goals simp [h]

/-! ### Array -/

@[simp] theorem sealTake_part (p : StatePart) (h : p ∉ ([.banksMem, .banksSeals, .banksValid] : List StatePart)) (a0 : Sys2Proof.Machine.State) (a1 : Nat) (a2 : Nat) (a3 : List Sys2Proof.Byte) :
    part (sealTake a0 a1 a2 a3).1 p = part a0 p := by
  simp at h
  unfold sealTake
  repeat' (first | (simp [h]; done) | split | (dsimp only; split))

@[simp] theorem openSeal_part (p : StatePart) (h : p ∉ ([.banksCollations, .banksSealMap, .banksSeals, .fabricSlots, .streamsCtxs] : List StatePart)) (a0 : Sys2Proof.Machine.State) (a1 : Nat) (a2 : Nat) :
    part (openSeal a0 a1 a2) p = part a0 p := by
  simp at h
  unfold openSeal
  repeat' split
  all_goals simp [h]

@[simp] theorem pruneScattered_part (p : StatePart) (h : p ∉ ([.streamsCtxs] : List StatePart)) (a0 : Sys2Proof.Machine.State) (a1 : Sys2Proof.CtxId) :
    part (pruneScattered a0 a1) p = part a0 p := by
  simp at h
  unfold pruneScattered
  repeat' split
  all_goals simp [h]

@[simp] theorem mixScattered_part (p : StatePart) (h : p ∉ ([.draws] : List StatePart)) (a0 : Sys2Proof.Machine.State) (a1 : Sys2Proof.CtxId) (a2 : Nat) (a3 : List Sys2Proof.Byte) :
    part (mixScattered a0 a1 a2 a3).1 p = part a0 p := by
  simp at h
  unfold mixScattered
  repeat' (first | (simp [h]; done) | split | (dsimp only; split))

@[simp] theorem writeElem_part (p : StatePart) (h : p ∉ ([.banksMem, .banksMerge, .banksValid, .draws, .streamsCtxs] : List StatePart)) (a0 : Sys2Proof.Machine.State) (a1 : Sys2Proof.CtxId) (a2 : Nat) (a3 : Nat) (a4 : List Sys2Proof.Byte) (a5 : Bool) :
    part (writeElem a0 a1 a2 a3 a4 a5) p = part a0 p := by
  simp at h
  unfold writeElem
  repeat' split
  all_goals simp [h]

@[simp] theorem dropAccs_part (p : StatePart) (h : p ∉ ([.fabricAccs] : List StatePart)) (a0 : Sys2Proof.Machine.State) (a1 : Nat) :
    part (dropAccs a0 a1) p = part a0 p := by
  simp at h
  unfold dropAccs
  repeat' split
  all_goals simp [h]

@[simp] theorem dropBooked_part (p : StatePart) (h : p ∉ ([.banksMerge, .fabricAccs, .fabricBooked, .fabricHolds] : List StatePart)) (a0 : Sys2Proof.Machine.State) (a1 : Nat) :
    part (dropBooked a0 a1) p = part a0 p := by
  simp at h
  unfold dropBooked
  repeat' split
  all_goals simp [h]

@[simp] theorem readsDone_part (p : StatePart) (h : p ∉ ([.fabricAccs, .fabricCounters, .fabricSlots, .regs, .remoteOutMsgs, .replicasBaroCorr, .supEventNow, .supEvents, .supNextEvent] : List StatePart)) (a0 : Sys2Proof.Machine.State) (a1 : Sys2Proof.Machine.Slot) :
    part (readsDone a0 a1) p = part a0 p := by
  simp at h
  unfold readsDone
  repeat' split
  all_goals simp [h]

@[simp] theorem readAcc_part (p : StatePart) (h : p ∉ ([.fabricAccs, .fabricCounters, .fabricSlots, .regs, .remoteOutMsgs, .replicasBaroCorr, .supEventNow, .supEvents, .supNextEvent] : List StatePart)) (a0 : Sys2Proof.Machine.State) (a1 : Sys2Proof.Machine.Slot) (a2 : Sys2Proof.Machine.Acc) :
    part (readAcc a0 a1 a2) p = part a0 p := by
  simp at h
  unfold readAcc
  repeat' split
  all_goals simp [h]

@[simp] theorem writeAcc_part (p : StatePart) (h : p ∉ ([.banksMem, .banksMerge, .banksSeals, .banksValid, .draws, .fabricAccs, .fabricSlots, .streamsCtxs] : List StatePart)) (a0 : Sys2Proof.Machine.State) (a1 : Sys2Proof.Machine.Slot) (a2 : Sys2Proof.Machine.Acc) :
    part (writeAcc a0 a1 a2) p = part a0 p := by
  simp at h
  unfold writeAcc
  repeat' split
  all_goals simp [h]

@[simp] theorem applyAcc_part (p : StatePart) (h : p ∉ ([.banksCollations, .banksLastActive, .banksMem, .banksMerge, .banksPauses, .banksSeals, .banksValid, .draws, .fabricAccs, .fabricCounters, .fabricSlots, .powerDoms, .regs, .remoteOutMsgs, .replicasBaroCorr, .streamsCtxs, .supEventNow, .supEvents, .supNextEvent] : List StatePart)) (a0 : Sys2Proof.Machine.State) (a1 : Sys2Proof.Machine.Acc) :
    part (applyAcc a0 a1) p = part a0 p := by
  simp at h
  unfold applyAcc
  repeat' split
  all_goals simp [h]

@[simp] theorem startFlush_part (p : StatePart) (h : p ∉ ([.banksMerge, .fabricAccs] : List StatePart)) (a0 : Sys2Proof.Machine.State) (a1 : Sys2Proof.Machine.MergeEntry) (a2 : Nat) :
    part (startFlush a0 a1 a2) p = part a0 p := by
  simp at h
  unfold startFlush
  repeat' split
  all_goals simp [h]

/-! ### Clock -/

@[simp] theorem noteDemotion_part (p : StatePart) (h : p ∉ ([.fabricCounters] : List StatePart)) (a0 : Sys2Proof.Machine.State) (a1 : Sys2Proof.Machine.State) (a2 : Nat) :
    part (noteDemotion a0 a1 a2) p = part a1 p := by
  simp at h
  unfold noteDemotion
  repeat' split
  all_goals simp [h]

@[simp] theorem countUsed_part (p : StatePart) (h : p ∉ ([.fabricCounters, .fabricUsedCc, .fabricUsedIn, .fabricUsedNext, .regs] : List StatePart)) (a0 : Sys2Proof.Machine.State) (a1 : Nat) (a2 : Bool) :
    part (countUsed a0 a1 a2) p = part a0 p := by
  simp at h
  unfold countUsed
  repeat' split
  all_goals simp [h]

@[simp] theorem carrelWaits_part (p : StatePart) (h : p ∉ ([.fabricCounters] : List StatePart)) (a0 : Sys2Proof.Machine.State) (a1 : Nat) :
    part (carrelWaits a0 a1) p = part a0 p := by
  simp at h
  unfold carrelWaits
  repeat' (first | (simp [h]; done) | split | (intro _) | (refine (foldl_part p _ ?_ _ _).trans ?_; intro s a) | (dsimp only; split) | (simp [h]; split) | simp [h])

@[simp] theorem countPassed_part (p : StatePart) (h : p ∉ ([.fabricCounters] : List StatePart)) (a0 : Sys2Proof.Machine.State) (a1 : Nat) :
    part (countPassed a0 a1) p = part a0 p := by
  simp at h
  unfold countPassed
  repeat' (first | (simp [h]; done) | split | (intro _) | (refine (foldl_part p _ ?_ _ _).trans ?_; intro s a) | (dsimp only; split) | (simp [h]; split) | simp [h])

@[simp] theorem countCycles_part (p : StatePart) (h : p ∉ ([.fabricCounters] : List StatePart)) (a0 : Sys2Proof.Machine.State) (a1 : Nat) :
    part (countCycles a0 a1) p = part a0 p := by
  simp at h
  unfold countCycles
  repeat' split
  all_goals simp [h]

@[simp] theorem moveTokens_part (p : StatePart) (h : p ∉ ([.streamsCtxs, .streamsTokens] : List StatePart)) (a0 : Sys2Proof.Machine.State) (a1 : Nat) :
    part (moveTokens a0 a1) p = part a0 p := by
  simp at h
  unfold moveTokens
  repeat' split
  all_goals simp [h]

@[simp] theorem crossBookings_part (p : StatePart) (h : p ∉ ([.fabricBooked, .fabricCounters, .fabricHolds] : List StatePart)) (a0 : Sys2Proof.Machine.State) (a1 : Nat) :
    part (crossBookings a0 a1) p = part a0 p := by
  simp at h
  unfold crossBookings
  repeat' split
  all_goals simp [h]

@[simp] theorem repairStrays_part (p : StatePart) (h : p ∉ ([.regs, .replicasStrays, .supEventNow, .supEvents, .supNextEvent] : List StatePart)) (a0 : Sys2Proof.Machine.State) (a1 : Nat) :
    part (repairStrays a0 a1) p = part a0 p := by
  simp at h
  unfold repairStrays
  repeat' (first | (simp [h]; done) | split | (intro _) | (refine (foldl_part p _ ?_ _ _).trans ?_; intro s a) | (dsimp only; split) | (simp [h]; split) | simp [h])

@[simp] theorem passTo_part (p : StatePart) (h : p ∉ ([.fabricBooked, .fabricCounters, .fabricHolds, .now, .regs, .replicasStrays, .streamsCtxs, .streamsTokens, .supEventNow, .supEvents, .supNextEvent] : List StatePart)) (a0 : Sys2Proof.Machine.State) (a1 : Nat) :
    part (passTo a0 a1) p = part a0 p := by
  simp at h
  unfold passTo
  repeat' split
  all_goals simp [h]

@[simp] theorem runTo_part (p : StatePart) (h : p ∉ ([.banksCollations, .banksLastActive, .banksMem, .banksMerge, .banksPauses, .banksSeals, .banksValid, .draws, .fabricAccs, .fabricBooked, .fabricCounters, .fabricHolds, .fabricSlots, .now, .powerDoms, .regs, .remoteOutMsgs, .replicasBaroCorr, .replicasStrays, .streamsCtxs, .streamsTokens, .supEventNow, .supEvents, .supNextEvent] : List StatePart)) (a0 : Sys2Proof.Machine.State) (a1 : Nat) :
    part (runTo a0 a1) p = part a0 p := by
  simp at h
  unfold runTo
  repeat' split
  all_goals simp [h]

@[simp] theorem advanceTo_part (p : StatePart) (h : p ∉ ([.banksCollations, .banksLastActive, .banksMem, .banksMerge, .banksPauses, .banksSeals, .banksValid, .draws, .fabricAccs, .fabricBooked, .fabricCounters, .fabricHolds, .fabricSlots, .now, .powerDoms, .regs, .remoteOutMsgs, .replicasBaroCorr, .replicasStrays, .streamsCtxs, .streamsTokens, .supEventNow, .supEvents, .supNextEvent] : List StatePart)) (a0 : Sys2Proof.Machine.State) (a1 : Nat) :
    part (advanceTo a0 a1) p = part a0 p := by
  simp at h
  unfold advanceTo
  repeat' split
  all_goals simp [h]

@[simp] theorem capture_part (p : StatePart) (h : p ∉ ([.fabricSnaps, .regs] : List StatePart)) (a0 : Sys2Proof.Machine.State) (a1 : Nat) :
    part (capture a0 a1) p = part a0 p := by
  simp at h
  unfold capture
  repeat' split
  all_goals simp [h]

@[simp] theorem clearCounters_part (p : StatePart) (h : p ∉ ([.fabricCounters] : List StatePart)) (a0 : Sys2Proof.Machine.State) (a1 : Nat) :
    part (clearCounters a0 a1) p = part a0 p := by
  simp at h
  unfold clearCounters
  repeat' split
  all_goals simp [h]

@[simp] theorem perfTurn_part (p : StatePart) (h : p ∉ ([.fabricClearWanted, .fabricCounters, .fabricSnapWanted, .fabricSnaps, .regs] : List StatePart)) (a0 : Sys2Proof.Machine.State) :
    part (perfTurn a0) p = part a0 p := by
  simp at h
  unfold perfTurn
  repeat' split
  all_goals simp [h]

@[simp] theorem frameStart_part (p : StatePart) (h : p ∉ ([.banksCollations, .banksLastActive, .banksMem, .banksMerge, .banksPauses, .banksSeals, .banksValid, .draws, .fabricAccs, .fabricBooked, .fabricClearWanted, .fabricCounters, .fabricHolds, .fabricSlots, .fabricSnapWanted, .fabricSnaps, .frame, .now, .powerDoms, .regs, .remoteOutMsgs, .replicasBaroCorr, .replicasStrays, .streamsCtxs, .streamsTokens, .supEventNow, .supEvents, .supNextEvent] : List StatePart)) (a0 : Sys2Proof.Machine.State) :
    part (frameStart a0) p = part a0 p := by
  simp at h
  unfold frameStart
  dsimp only
  rw [perfTurn_part p (by simp [h])]
  refine (set_frame_part p _ _ (by simp [h])).trans ?_
  refine (onFabric_slots_part p _ _ (by simp [h])).trans ?_
  exact advanceTo_part p (by simp [h]) _ _

@[simp] theorem idleCycle_part (p : StatePart) (h : p ∉ ([.banksCollations, .banksLastActive, .banksMem, .banksMerge, .banksPauses, .banksSeals, .banksValid, .draws, .fabricAccs, .fabricBooked, .fabricClearWanted, .fabricCounters, .fabricHolds, .fabricSlots, .fabricSnapWanted, .fabricSnaps, .frame, .now, .pkgTime, .powerDoms, .regs, .remoteOutMsgs, .replicasBaroCorr, .replicasStrays, .streamsCtxs, .streamsTokens, .supEventNow, .supEvents, .supNextEvent] : List StatePart)) (a0 : Sys2Proof.Machine.State) :
    part (idleCycle a0) p = part a0 p := by
  simp at h
  unfold idleCycle
  repeat' split
  all_goals simp [h]

@[simp] theorem atCycle_part (p : StatePart) (h : p ∉ ([.banksCollations, .banksLastActive, .banksMem, .banksMerge, .banksPauses, .banksSeals, .banksValid, .draws, .fabricAccs, .fabricBooked, .fabricCounters, .fabricHolds, .fabricSlots, .now, .powerDoms, .regs, .remoteOutMsgs, .replicasBaroCorr, .replicasStrays, .streamsCtxs, .streamsTokens, .supEventNow, .supEvents, .supNextEvent] : List StatePart)) (a0 : Sys2Proof.Machine.State) (a1 : Nat) (a2 : State → State) (hf2 : ∀ s, part (a2 s) p = part s p) :
    part (atCycle a0 a1 a2) p = part a0 p := by
  simp at h
  unfold atCycle
  repeat' (first | (simp [h, *]; done) | split | (intro _) | (refine (foldl_part p _ ?_ _ _).trans ?_; intro s a) | (dsimp only; split) | (simp [h, *]; split) | simp [h, *])

@[simp] theorem atSlot_part (p : StatePart) (h : p ∉ ([.banksCollations, .banksLastActive, .banksMem, .banksMerge, .banksPauses, .banksSeals, .banksValid, .draws, .fabricAccs, .fabricBooked, .fabricCounters, .fabricHolds, .fabricSlots, .now, .powerDoms, .regs, .remoteOutMsgs, .replicasBaroCorr, .replicasStrays, .streamsCtxs, .streamsTokens, .supEventNow, .supEvents, .supNextEvent] : List StatePart)) (s : State) (x : Slot) (t : Nat) (f : State → Slot → State)
    (hf : ∀ u y, part u p = part s p → part (f u y) p = part s p) :
    part (atSlot s x t f) p = part s p := by
  simp at h
  unfold atSlot atCycle
  dsimp only
  split
  · split
    · exact hf _ _ (by simp [h])
    · simp [h]
  · rfl

@[simp] theorem atDue_part (p : StatePart) (h : p ∉ ([.banksCollations, .banksLastActive, .banksMem, .banksMerge, .banksPauses, .banksSeals, .banksValid, .draws, .fabricAccs, .fabricBooked, .fabricCounters, .fabricHolds, .fabricSlots, .now, .powerDoms, .regs, .remoteOutMsgs, .replicasBaroCorr, .replicasStrays, .streamsCtxs, .streamsTokens, .supEventNow, .supEvents, .supNextEvent] : List StatePart)) (s : State) (x : Slot) (f : State → Slot → State)
    (hf : ∀ u y, part u p = part s p → part (f u y) p = part s p) :
    part (atDue s x f) p = part s p := by
  simp at h
  exact atSlot_part p (by simp [h]) s x _ f hf

@[simp] theorem atBank_part (p : StatePart) (h : p ∉ ([.banksCollations, .banksLastActive, .banksMem, .banksMerge, .banksPauses, .banksSeals, .banksValid, .draws, .fabricAccs, .fabricBooked, .fabricCounters, .fabricHolds, .fabricSlots, .now, .powerDoms, .regs, .remoteOutMsgs, .replicasBaroCorr, .replicasStrays, .streamsCtxs, .streamsTokens, .supEventNow, .supEvents, .supNextEvent] : List StatePart)) (a0 : Sys2Proof.Machine.State) (a1 : Nat) (a2 : Nat) (a3 : State → State) (hf3 : ∀ s, part (a3 s) p = part s p) :
    part (atBank a0 a1 a2 a3) p = part a0 p := by
  simp at h
  unfold atBank
  repeat' (first | (simp [h, *]; done) | split | (intro _) | (refine (foldl_part p _ ?_ _ _).trans ?_; intro s a) | (dsimp only; split) | (simp [h, *]; split) | simp [h, *])

@[simp] theorem markDecided_part (p : StatePart) (h : p ∉ ([.fabricDecided] : List StatePart)) (a0 : Sys2Proof.Machine.State) (a1 : Nat) (a2 : Nat) :
    part (markDecided a0 a1 a2) p = part a0 p := by
  simp at h
  unfold markDecided
  repeat' split
  all_goals simp [h]

@[simp] theorem bookRoute_part (p : StatePart) (h : p ∉ ([.fabricBooked] : List StatePart)) (a0 : Sys2Proof.Machine.State) (a1 : Sys2Proof.Machine.Slot) (a2 : List (Nat × Nat)) :
    part (bookRoute a0 a1 a2) p = part a0 p := by
  simp at h
  unfold bookRoute
  repeat' split
  all_goals simp [h]

@[simp] theorem enterSquall_part (p : StatePart) (h : p ∉ ([.fabricSquallNow, .fabricSqualls, .regs] : List StatePart)) (a0 : Sys2Proof.Machine.State) (a1 : Nat) (a2 : BitVec 64) :
    part (enterSquall a0 a1 a2) p = part a0 p := by
  simp at h
  unfold enterSquall
  repeat' split
  all_goals simp [h]

@[simp] theorem raiseSquall_part (p : StatePart) (h : p ∉ ([.fabricCounters, .fabricSquallNow, .fabricSquallSeen, .fabricSqualls, .regs] : List StatePart)) (a0 : Sys2Proof.Machine.State) (a1 : Nat) (a2 : Nat) (a3 : Nat) (a4 : Nat) :
    part (raiseSquall a0 a1 a2 a3 a4) p = part a0 p := by
  simp at h
  unfold raiseSquall
  repeat' split
  all_goals simp [h]

@[simp] theorem newSlot_part (p : StatePart) (h : p ∉ ([.fabricNextSlot, .fabricSlots] : List StatePart)) (a0 : Sys2Proof.Machine.State) (a1 : Sys2Proof.Machine.Slot) :
    part (newSlot a0 a1) p = part a0 p := by
  simp at h
  unfold newSlot
  repeat' split
  all_goals simp [h]

@[simp] theorem newSlotNext_part (p : StatePart) (h : p ∉ ([.fabricNextSlot, .fabricSlots] : List StatePart)) (a0 : Sys2Proof.Machine.State) (a1 : Sys2Proof.Machine.Slot) :
    part (newSlotNext a0 a1) p = part a0 p := by
  simp at h
  unfold newSlotNext
  repeat' split
  all_goals simp [h]

@[simp] theorem useDescriptor_part (p : StatePart) (h : p ∉ ([.remoteTranslator] : List StatePart)) (a0 : Sys2Proof.Machine.State) (a1 : Sys2Proof.Machine.Slot) :
    part (useDescriptor a0 a1) p = part a0 p := by
  simp at h
  unfold useDescriptor
  repeat' split
  all_goals simp [h]

@[simp] theorem request_part (p : StatePart) (h : p ∉ ([.banksCollations, .banksLastActive, .banksMerge, .banksPauses, .banksValid, .fabricNextSlot, .fabricSlots, .powerDoms, .regs, .remoteTranslator] : List StatePart)) (a0 : Sys2Proof.Machine.State) (a1 : Sys2Proof.Machine.Slot) :
    part (request a0 a1) p = part a0 p := by
  simp at h
  unfold request
  repeat' split
  all_goals simp [h]

@[simp] theorem requestNext_part (p : StatePart) (h : p ∉ ([.fabricNextSlot, .fabricSlots, .remoteTranslator] : List StatePart)) (a0 : Sys2Proof.Machine.State) (a1 : Sys2Proof.Machine.Slot) :
    part (requestNext a0 a1) p = part a0 p := by
  simp at h
  unfold requestNext
  repeat' split
  all_goals simp [h]

@[simp] theorem dropDescriptors_part (p : StatePart) (h : p ∉ ([.fabricSlots, .remoteTranslator] : List StatePart)) (a0 : Sys2Proof.Machine.State) (a1 : Sys2Proof.Machine.Descriptor → Bool) :
    part (dropDescriptors a0 a1) p = part a0 p := by
  simp at h
  unfold dropDescriptors
  repeat' split
  all_goals simp [h]

/-! ### Cache -/

@[simp] theorem startPause_part (p : StatePart) (h : p ∉ ([.banksLastActive, .banksPauses, .banksValid, .powerDoms, .regs] : List StatePart)) (a0 : Sys2Proof.Machine.State) (a1 : Nat) (a2 : Sys2Proof.Machine.Pause) :
    part (startPause a0 a1 a2) p = part a0 p := by
  simp at h
  unfold startPause
  repeat' split
  all_goals simp [h]

@[simp] theorem nextPause_part (p : StatePart) (h : p ∉ ([.banksLastActive, .banksPauses, .regs] : List StatePart)) (a0 : Sys2Proof.Machine.State) (a1 : Nat) :
    part (nextPause a0 a1) p = part a0 p := by
  simp at h
  unfold nextPause
  repeat' split
  all_goals simp [h]

@[simp] theorem countDirty_part (p : StatePart) (h : p ∉ ([.regs] : List StatePart)) (a0 : Sys2Proof.Machine.State) (a1 : Nat) (a2 : Nat) :
    part (countDirty a0 a1 a2) p = part a0 p := by
  simp at h
  unfold countDirty
  repeat' split
  all_goals simp [h]

@[simp] theorem setWay_part (p : StatePart) (h : p ∉ ([.banksCacheWays, .regs] : List StatePart)) (a0 : Sys2Proof.Machine.State) (a1 : Nat) (a2 : Option Sys2Proof.Machine.CacheWay) :
    part (setWay a0 a1 a2) p = part a0 p := by
  simp at h
  unfold setWay
  repeat' split
  all_goals simp [h]

@[simp] theorem touchBlk_part (p : StatePart) (h : p ∉ ([.banksCacheLru] : List StatePart)) (a0 : Sys2Proof.Machine.State) (a1 : Nat) :
    part (touchBlk a0 a1) p = part a0 p := by
  simp at h
  unfold touchBlk
  repeat' split
  all_goals simp [h]

@[simp] theorem cacheWrite_part (p : StatePart) (h : p ∉ ([.banksMem, .banksValid] : List StatePart)) (a0 : Sys2Proof.Machine.State) (a1 : Nat) (a2 : List Sys2Proof.Byte) :
    part (cacheWrite a0 a1 a2) p = part a0 p := by
  simp at h
  unfold cacheWrite
  repeat' split
  all_goals simp [h]

@[simp] theorem requestFill_part (p : StatePart) (h : p ∉ ([.banksCollations, .banksLastActive, .banksMerge, .banksPauses, .banksValid, .fabricNextSlot, .fabricSlots, .powerDoms, .regs, .remoteTranslator] : List StatePart)) (a0 : Sys2Proof.Machine.State) (a1 : Sys2Proof.Machine.Slot) (a2 : Nat) (a3 : Sys2Proof.Machine.CacheTag) :
    part (requestFill a0 a1 a2 a3) p = part a0 p := by
  simp at h
  unfold requestFill
  repeat' split
  all_goals simp [h]

@[simp] theorem requestBack_part (p : StatePart) (h : p ∉ ([.banksCollations, .banksLastActive, .banksMerge, .banksPauses, .banksValid, .fabricNextSlot, .fabricSlots, .powerDoms, .regs, .remoteTranslator] : List StatePart)) (a0 : Sys2Proof.Machine.State) (a1 : Nat) (a2 : Nat) (a3 : Nat) (a4 : Nat) (a5 : Sys2Proof.Machine.CacheTag) :
    part (requestBack a0 a1 a2 a3 a4 a5) p = part a0 p := by
  simp at h
  unfold requestBack
  repeat' split
  all_goals simp [h]

@[simp] theorem cacheTry_part (p : StatePart) (h : p ∉ ([.banksCacheWays, .banksCollations, .banksLastActive, .banksMerge, .banksPauses, .banksValid, .fabricCounters, .fabricNextSlot, .fabricSlots, .powerDoms, .regs, .remoteTranslator] : List StatePart)) (a0 : Sys2Proof.Machine.State) (a1 : Nat) :
    part (cacheTry a0 a1) p = part a0 p := by
  simp at h
  unfold cacheTry
  repeat' (first | (simp [h]; done) | split | (dsimp only; split))

@[simp] theorem cacheRetry_part (p : StatePart) (h : p ∉ ([.banksCacheWays, .banksCollations, .banksLastActive, .banksMerge, .banksPauses, .banksValid, .fabricCounters, .fabricNextSlot, .fabricSlots, .powerDoms, .regs, .remoteTranslator] : List StatePart)) (a0 : Sys2Proof.Machine.State) (a1 : Nat) (a2 : Nat) :
    part (cacheRetry a0 a1 a2) p = part a0 p := by
  simp at h
  unfold cacheRetry
  repeat' split
  all_goals simp [h]

@[simp] theorem uncache_part (p : StatePart) (h : p ∉ ([.fabricSlots] : List StatePart)) (a0 : Sys2Proof.Machine.State) (a1 : Sys2Proof.Machine.Slot) :
    part (uncache a0 a1) p = part a0 p := by
  simp at h
  unfold uncache
  repeat' split
  all_goals simp [h]

@[simp] theorem clearTags_part (p : StatePart) (h : p ∉ ([.banksCacheLru, .banksCacheWays, .regs] : List StatePart)) (a0 : Sys2Proof.Machine.State) (a1 : Nat) (a2 : Nat) :
    part (clearTags a0 a1 a2) p = part a0 p := by
  simp at h
  unfold clearTags
  repeat' split
  all_goals simp [h]

@[simp] theorem drainStep_part (p : StatePart) (h : p ∉ ([.banksLastActive, .banksPauses, .banksValid, .powerDoms, .regs] : List StatePart)) (a0 : Sys2Proof.Machine.State) (a1 : Nat) (a2 : Nat) :
    part (drainStep a0 a1 a2) p = part a0 p := by
  simp at h
  unfold drainStep
  repeat' split
  all_goals simp [h]

@[simp] theorem endCache_part (p : StatePart) (h : p ∉ ([.banksCacheLru, .banksCacheWays, .regs, .supEventNow, .supEvents, .supNextEvent] : List StatePart)) (a0 : Sys2Proof.Machine.State) (a1 : Nat) (a2 : Nat) :
    part (endCache a0 a1 a2) p = part a0 p := by
  simp at h
  unfold endCache
  repeat' split
  all_goals simp [h]

@[simp] theorem startDrain_part (p : StatePart) (h : p ∉ ([.banksCollations, .banksLastActive, .banksMerge, .banksPauses, .banksValid, .fabricNextSlot, .fabricSlots, .powerDoms, .regs, .remoteTranslator] : List StatePart)) (a0 : Sys2Proof.Machine.State) (a1 : Nat) (a2 : Nat) :
    part (startDrain a0 a1 a2) p = part a0 p := by
  simp at h
  unfold startDrain
  repeat' split
  all_goals simp [h]

@[simp] theorem carrelCtlWrite_part (p : StatePart) (h : p ∉ ([.banksCollations, .banksLastActive, .banksMerge, .banksPauses, .banksValid, .fabricNextSlot, .fabricSlots, .powerDoms, .regs, .remoteTranslator] : List StatePart)) (a0 : Sys2Proof.Machine.State) (a1 : Nat) (a2 : Nat) (a3 : Sys2Proof.CarrelWriter) (a4 : Sys2Proof.Word) :
    part (carrelCtlWrite a0 a1 a2 a3 a4) p = part a0 p := by
  simp at h
  unfold carrelCtlWrite
  repeat' split
  all_goals simp [h]

@[simp] theorem fillDone_part (p : StatePart) (h : p ∉ ([.banksCacheLru, .banksCacheWays, .banksCollations, .banksLastActive, .banksMem, .banksMerge, .banksPauses, .banksValid, .fabricCounters, .fabricNextSlot, .fabricPlan, .fabricSlots, .out, .powerDoms, .regs, .remoteTranslator] : List StatePart)) (a0 : Sys2Proof.Machine.State) (a1 : Sys2Proof.Machine.Slot) (a2 : Nat) (a3 : Nat) :
    part (fillDone a0 a1 a2 a3) p = part a0 p := by
  simp at h
  unfold fillDone
  repeat' split
  all_goals simp [h]

@[simp] theorem fillLost_part (p : StatePart) (h : p ∉ ([.banksCacheWays, .banksCollations, .banksLastActive, .banksMerge, .banksPauses, .banksValid, .fabricCounters, .fabricNextSlot, .fabricPlan, .fabricSlots, .powerDoms, .regs, .remoteTranslator] : List StatePart)) (a0 : Sys2Proof.Machine.State) (a1 : Sys2Proof.Machine.Slot) (a2 : Nat) :
    part (fillLost a0 a1 a2) p = part a0 p := by
  simp at h
  unfold fillLost
  repeat' split
  all_goals simp [h]

@[simp] theorem backOver_part (p : StatePart) (h : p ∉ ([.banksCacheWays, .banksCollations, .banksLastActive, .banksMerge, .banksPauses, .banksValid, .fabricCounters, .fabricNextSlot, .fabricPlan, .fabricSlots, .powerDoms, .regs, .remoteTranslator] : List StatePart)) (a0 : Sys2Proof.Machine.State) (a1 : Sys2Proof.Machine.Slot) (a2 : Nat) (a3 : Nat) :
    part (backOver a0 a1 a2 a3) p = part a0 p := by
  simp at h
  unfold backOver
  repeat' (first | (simp [h]; done) | split | (dsimp only; split))

@[simp] theorem backDone_part (p : StatePart) (h : p ∉ ([.banksCacheWays, .banksCollations, .banksLastActive, .banksMerge, .banksPauses, .banksValid, .fabricCounters, .fabricNextSlot, .fabricPlan, .fabricSlots, .powerDoms, .regs, .remoteTranslator, .supEventNow, .supEvents, .supNextEvent] : List StatePart)) (a0 : Sys2Proof.Machine.State) (a1 : Sys2Proof.Machine.Slot) (a2 : Nat) (a3 : Nat) :
    part (backDone a0 a1 a2 a3) p = part a0 p := by
  simp at h
  unfold backDone
  repeat' (first | (simp [h]; done) | split | (dsimp only; split))

/-! ### RemoteBase -/

theorem sealMsg_part (p : StatePart) (h : p ∉ ([.remoteCounters] : List StatePart)) (a0 : Sys2Proof.Machine.State) (a1 : Nat) (a2 : Nat) (a3 : Nat) (a4 : Sys2Proof.RemoteMsg) :
    ∀ t, sealMsg a0 a1 a2 a3 a4 = some t → part t.1 p = part a0 p := by
  simp at h
  unfold sealMsg
  repeat' split
  all_goals simp [h]

@[simp] theorem sendMsg_part (p : StatePart) (h : p ∉ ([.out] : List StatePart)) (a0 : Sys2Proof.Machine.State) (a1 : Nat) (a2 : Sys2Proof.RemoteMsg) :
    part (sendMsg a0 a1 a2) p = part a0 p := by
  simp at h
  unfold sendMsg
  repeat' split
  all_goals simp [h]

@[simp] theorem takeRemote_part (p : StatePart) (h : p ∉ ([.remoteOutMsgs] : List StatePart)) (a0 : Sys2Proof.Machine.State) (a1 : Sys2Proof.Machine.Slot) :
    part (takeRemote a0 a1) p = part a0 p := by
  simp at h
  unfold takeRemote
  repeat' split
  all_goals simp [h]

/-! ### Grant -/

@[simp] theorem coreData_part (p : StatePart) (h : p ∉ ([.draws] : List StatePart)) (a0 : Sys2Proof.Machine.State) (a1 : Nat) :
    part (coreData a0 a1).1 p = part a0 p := by
  simp at h
  unfold coreData
  repeat' split
  all_goals simp [h]

@[simp] theorem noteDeny_part (p : StatePart) (h : p ∉ ([.regs, .securityDenialSeen, .supEventNow, .supEvents, .supNextEvent] : List StatePart)) (a0 : Sys2Proof.Machine.State) (a1 : Sys2Proof.Machine.Slot) (a2 : Sys2Proof.Machine.Verdict) :
    part (noteDeny a0 a1 a2) p = part a0 p := by
  simp at h
  unfold noteDeny
  repeat' split
  all_goals simp [h]

@[simp] theorem noteRefused_part (p : StatePart) (h : p ∉ ([.fabricCounters, .regs, .securityDenialSeen, .supEventNow, .supEvents, .supNextEvent] : List StatePart)) (a0 : Sys2Proof.Machine.State) (a1 : Sys2Proof.Machine.Slot) (a2 : Sys2Proof.Machine.Verdict) :
    part (noteRefused a0 a1 a2) p = part a0 p := by
  simp at h
  unfold noteRefused
  repeat' split
  all_goals simp [h]

@[simp] theorem moveCached_part (p : StatePart) (h : p ∉ ([.banksCacheLru, .banksCacheWays, .banksMem, .banksValid, .fabricCounters, .regs, .replicasBaroCorr, .supEventNow, .supEvents, .supNextEvent] : List StatePart)) (a0 : Sys2Proof.Machine.State) (a1 : Sys2Proof.Machine.Slot) :
    part (moveCached a0 a1).1 p = part a0 p := by
  simp at h
  unfold moveCached
  repeat' (first | (simp [h]; done) | split | (dsimp only; split))

@[simp] theorem placeAccs_part (p : StatePart) (h : p ∉ ([.banksCollations, .banksMerge, .banksSealMap, .banksSeals, .fabricAccs, .fabricCounters, .fabricSlots, .streamsCtxs] : List StatePart)) (a0 : Sys2Proof.Machine.State) (a1 : Sys2Proof.Machine.Slot) (a2 : List Sys2Proof.Machine.Acc) :
    part (placeAccs a0 a1 a2) p = part a0 p := by
  simp at h
  unfold placeAccs
  dsimp only
  split
  · refine (openSeal_part p (by simp [h]) _ _ _).trans ?_
    refine (onFabric_accs_part p _ _ (by simp [h])).trans ?_
    exact foldl_fst_part p _ (by intro s a; split <;> simp [h]) _ _
  · refine (onFabric_accs_part p _ _ (by simp [h])).trans ?_
    exact foldl_fst_part p _ (by intro s a; split <;> simp [h]) _ _

@[simp] theorem useEntries_part (p : StatePart) (h : p ∉ ([.regs, .supCatCorrected, .supCatReported, .supEventNow, .supEvents, .supNextEvent] : List StatePart)) (a0 : Sys2Proof.Machine.State) (a1 : Sys2Proof.Machine.Slot) :
    part (useEntries a0 a1) p = part a0 p := by
  simp at h
  unfold useEntries
  repeat' (first | (simp [h]; done) | split | (intro _) | (refine (foldl_part p _ ?_ _ _).trans ?_; intro s a) | (dsimp only; split) | (simp [h]; split) | simp [h])

@[simp] theorem moveData_part (p : StatePart) (h : p ∉ ([.banksCacheLru, .banksCacheWays, .banksCollations, .banksLastActive, .banksMem, .banksMerge, .banksPauses, .banksSealMap, .banksSeals, .banksValid, .draws, .fabricAccs, .fabricCounters, .fabricSlots, .powerDoms, .regs, .replicasBaroCorr, .securityDenialSeen, .streamsCtxs, .supCatCorrected, .supCatReported, .supEventNow, .supEvents, .supNextEvent] : List StatePart)) (a0 : Sys2Proof.Machine.State) (a1 : Sys2Proof.Machine.Slot) (a2 : List Nat) :
    part (moveData a0 a1 a2).st p = part a0 p := by
  simp at h
  unfold moveData
  repeat' (first | (simp [h]; done) | split | (dsimp only; split))

@[simp] theorem wakeGranted_part (p : StatePart) (h : p ∉ ([.streamsCtxs] : List StatePart)) (a0 : Sys2Proof.Machine.State) (a1 : Sys2Proof.Machine.Slot) :
    part (wakeGranted a0 a1) p = part a0 p := by
  simp at h
  unfold wakeGranted
  repeat' split
  all_goals simp [h]

@[simp] theorem countMulticast_part (p : StatePart) (h : p ∉ ([.fabricCounters] : List StatePart)) (a0 : Sys2Proof.Machine.State) (a1 : Sys2Proof.Machine.Slot) :
    part (countMulticast a0 a1) p = part a0 p := by
  simp at h
  unfold countMulticast
  repeat' split
  all_goals simp [h]

@[simp] theorem grantSlot_part (p : StatePart) (h : p ∉ ([.banksCacheLru, .banksCacheWays, .banksCollations, .banksLastActive, .banksMem, .banksMerge, .banksPauses, .banksSealMap, .banksSeals, .banksValid, .draws, .fabricAccs, .fabricCounters, .fabricHolds, .fabricSlots, .fabricUsedCc, .fabricUsedIn, .fabricUsedNext, .powerDoms, .regs, .remoteOutMsgs, .replicasBaroCorr, .securityDenialSeen, .streamsCtxs, .supCatCorrected, .supCatReported, .supEventNow, .supEvents, .supNextEvent] : List StatePart)) (a0 : Sys2Proof.Machine.State) (a1 : Sys2Proof.Machine.Slot) (a2 : List (Nat × Nat × Nat)) (a3 : Bool) (a4 : Bool) (a5 : Bool) (a6 : Bool) :
    part (grantSlot a0 a1 a2 a3 a4 a5 a6) p = part a0 p := by
  simp at h
  unfold grantSlot
  simp [h]
  repeat' (first | (simp [h]; done) | split | (intro _) | (refine (foldl_part p _ ?_ _ _).trans ?_; intro s a) | (dsimp only; split) | simp [h])

@[simp] theorem refuseEarly_part (p : StatePart) (h : p ∉ ([.banksLastActive, .fabricCounters, .fabricSlots, .regs, .streamsCtxs, .supCatCorrected, .supCatReported, .supEventNow, .supEvents, .supNextEvent] : List StatePart)) (a0 : Sys2Proof.Machine.State) (a1 : Sys2Proof.Machine.Slot) (a2 : Sys2Proof.Word) :
    part (refuseEarly a0 a1 a2) p = part a0 p := by
  simp at h
  unfold refuseEarly
  repeat' split
  all_goals simp [h]

/-! ### Arbiter -/

@[simp] theorem resvOutcome_part (p : StatePart) (h : p ∉ ([.fabricCounters, .fabricSquallNow, .fabricSquallSeen, .fabricSqualls, .regs] : List StatePart)) (a0 : Sys2Proof.Machine.State) (a1 : List Sys2Proof.Machine.Cand) (a2 : List Sys2Proof.Machine.Cand) (a3 : Nat × Nat) :
    part (resvOutcome a0 a1 a2 a3) p = part a0 p := by
  simp at h
  unfold resvOutcome
  repeat' (first | (simp [h]; done) | split | (dsimp only; split))

@[simp] theorem resvUnused_part (p : StatePart) (h : p ∉ ([.fabricCounters] : List StatePart)) (a0 : Sys2Proof.Machine.State) (a1 : List Sys2Proof.Machine.Cand) (a2 : Nat × Nat) :
    part (resvUnused a0 a1 a2) p = part a0 p := by
  simp at h
  unfold resvUnused
  repeat' split
  all_goals simp [h]

@[simp] theorem endTenures_part (p : StatePart) (h : p ∉ ([.fabricCounters, .fabricTenures] : List StatePart)) (a0 : Sys2Proof.Machine.State) (a1 : List Sys2Proof.Machine.Cand) (a2 : Nat) (a3 : Nat) :
    part (endTenures a0 a1 a2 a3) p = part a0 p := by
  simp at h
  unfold endTenures
  repeat' (first | (simp [h]; done) | split | (intro _) | (refine (foldl_part p _ ?_ _ _).trans ?_; intro s a) | (dsimp only; split) | (simp [h]; split) | simp [h])

@[simp] theorem noteWin_part (p : StatePart) (h : p ∉ ([.fabricRotation, .fabricTenures] : List StatePart)) (a0 : Sys2Proof.Machine.State) (a1 : Sys2Proof.Machine.Cand) :
    part (noteWin a0 a1) p = part a0 p := by
  simp at h
  unfold noteWin
  repeat' (first | (simp [h]; done) | split | (intro _) | (refine (foldl_part p _ ?_ _ _).trans ?_; intro s a) | (dsimp only; split) | (simp [h]; split) | simp [h])

@[simp] theorem grantCand_part (p : StatePart) (h : p ∉ ([.banksCacheLru, .banksCacheWays, .banksCollations, .banksLastActive, .banksMem, .banksMerge, .banksPauses, .banksSealMap, .banksSeals, .banksValid, .draws, .fabricAccs, .fabricBooked, .fabricCounters, .fabricHolds, .fabricRotation, .fabricSlots, .fabricTenures, .fabricUsedCc, .fabricUsedIn, .fabricUsedNext, .powerDoms, .regs, .remoteOutMsgs, .replicasBaroCorr, .securityDenialSeen, .streamsCtxs, .supCatCorrected, .supCatReported, .supEventNow, .supEvents, .supNextEvent] : List StatePart)) (a0 : Sys2Proof.Machine.State) (a1 : Nat) (a2 : Sys2Proof.Machine.Cand) :
    part (grantCand a0 a1 a2) p = part a0 p := by
  simp at h
  unfold grantCand
  repeat' split
  all_goals simp [h]

@[simp] theorem markOutcomes_part (p : StatePart) (h : p ∉ ([.fabricPlanResv] : List StatePart)) (a0 : Sys2Proof.Machine.State) (a1 : Nat) (a2 : Sys2Proof.Machine.PlanResv → Sys2Proof.Machine.PlanResv) :
    part (markOutcomes a0 a1 a2) p = part a0 p := by
  simp at h
  unfold markOutcomes
  repeat' split
  all_goals simp [h]

@[simp] theorem grantPlanned_part (p : StatePart) (h : p ∉ ([.banksCacheLru, .banksCacheWays, .banksCollations, .banksLastActive, .banksMem, .banksMerge, .banksPauses, .banksSealMap, .banksSeals, .banksValid, .draws, .fabricAccs, .fabricBooked, .fabricCounters, .fabricHolds, .fabricPlanResv, .fabricSlots, .fabricUsedCc, .fabricUsedIn, .fabricUsedNext, .powerDoms, .regs, .remoteOutMsgs, .replicasBaroCorr, .securityDenialSeen, .streamsCtxs, .supCatCorrected, .supCatReported, .supEventNow, .supEvents, .supNextEvent] : List StatePart)) (a0 : Sys2Proof.Machine.State) (a1 : Nat) (a2 : Sys2Proof.Machine.Slot) :
    part (grantPlanned a0 a1 a2) p = part a0 p := by
  simp at h
  unfold grantPlanned
  repeat' split
  all_goals simp [h]

@[simp] theorem planOutcomes_part (p : StatePart) (h : p ∉ ([.fabricCounters, .fabricPlanResv, .fabricSquallNow, .fabricSquallSeen, .fabricSqualls, .regs] : List StatePart)) (a0 : Sys2Proof.Machine.State) (a1 : Nat → Bool) (a2 : Nat) :
    part (planOutcomes a0 a1 a2) p = part a0 p := by
  simp at h
  unfold planOutcomes
  repeat' split
  all_goals simp [h]

@[simp] theorem holdContest_part (p : StatePart) (h : p ∉ ([.fabricBooked, .fabricCounters, .fabricSquallNow, .fabricSquallSeen, .fabricSqualls, .fabricTenures, .regs] : List StatePart)) (a0 : Sys2Proof.Machine.State) (a1 : Nat) (a2 : Nat) (a3 : List Sys2Proof.Machine.Cand) :
    part (holdContest a0 a1 a2 a3).1 p = part a0 p := by
  simp at h
  unfold holdContest
  repeat' split
  all_goals simp [h]

@[simp] theorem decidePart_part (p : StatePart) (h : p ∉ ([.banksCacheLru, .banksCacheWays, .banksCollations, .banksLastActive, .banksMem, .banksMerge, .banksPauses, .banksSealMap, .banksSeals, .banksValid, .draws, .fabricAccs, .fabricBooked, .fabricCounters, .fabricHolds, .fabricJoint, .fabricRotation, .fabricSlots, .fabricSquallNow, .fabricSquallSeen, .fabricSqualls, .fabricTenures, .fabricUsedCc, .fabricUsedIn, .fabricUsedNext, .powerDoms, .regs, .remoteOutMsgs, .replicasBaroCorr, .securityDenialSeen, .streamsCtxs, .supCatCorrected, .supCatReported, .supEventNow, .supEvents, .supNextEvent] : List StatePart)) (a0 : Sys2Proof.Machine.State) (a1 : Nat) (a2 : Nat) (a3 : Sys2Proof.Machine.Part) :
    part (decidePart a0 a1 a2 a3) p = part a0 p := by
  simp at h
  unfold decidePart
  repeat' split
  all_goals simp [h]

@[simp] theorem refuseFirst_part (p : StatePart) (h : p ∉ ([.banksLastActive, .fabricCounters, .fabricSlots, .regs, .streamsCtxs, .supCatCorrected, .supCatReported, .supEventNow, .supEvents, .supNextEvent] : List StatePart)) (a0 : Sys2Proof.Machine.State) (a1 : List Sys2Proof.Machine.Slot) :
    part (refuseFirst a0 a1) p = part a0 p := by
  simp at h
  unfold refuseFirst
  repeat' (first | (simp [h]; done) | split | (intro _) | (refine (foldl_part p _ ?_ _ _).trans ?_; intro s a) | (dsimp only; split) | (simp [h]; split) | simp [h])

@[simp] theorem decidePosition_part (p : StatePart) (h : p ∉ ([.banksCacheLru, .banksCacheWays, .banksCollations, .banksLastActive, .banksMem, .banksMerge, .banksPauses, .banksSealMap, .banksSeals, .banksValid, .draws, .fabricAccs, .fabricBooked, .fabricCounters, .fabricHolds, .fabricJoint, .fabricPlanResv, .fabricRotation, .fabricSlots, .fabricSquallNow, .fabricSquallSeen, .fabricSqualls, .fabricTenures, .fabricUsedCc, .fabricUsedIn, .fabricUsedNext, .powerDoms, .regs, .remoteOutMsgs, .replicasBaroCorr, .securityDenialSeen, .streamsCtxs, .supCatCorrected, .supCatReported, .supEventNow, .supEvents, .supNextEvent] : List StatePart)) (a0 : Sys2Proof.Machine.State) (a1 : Nat) (a2 : Nat) :
    part (decidePosition a0 a1 a2) p = part a0 p := by
  simp at h
  unfold decidePosition
  repeat' (first | (simp [h]; done) | split | (intro _) | (refine (foldl_part p _ ?_ _ _).trans ?_; intro s a) | (dsimp only; split) | (simp [h]; split) | simp [h])

@[simp] theorem decideVisitor_part (p : StatePart) (h : p ∉ ([.banksCacheLru, .banksCacheWays, .banksCollations, .banksLastActive, .banksMem, .banksMerge, .banksPauses, .banksSealMap, .banksSeals, .banksValid, .draws, .fabricAccs, .fabricBooked, .fabricCounters, .fabricHolds, .fabricJoint, .fabricPlanResv, .fabricRotation, .fabricSlots, .fabricSquallNow, .fabricSquallSeen, .fabricSqualls, .fabricTenures, .fabricUsedCc, .fabricUsedIn, .fabricUsedNext, .powerDoms, .regs, .remoteOutMsgs, .replicasBaroCorr, .securityDenialSeen, .streamsCtxs, .supCatCorrected, .supCatReported, .supEventNow, .supEvents, .supNextEvent] : List StatePart)) (a0 : Sys2Proof.Machine.State) (a1 : Nat) (a2 : Nat) (a3 : Nat) :
    part (decideVisitor a0 a1 a2 a3) p = part a0 p := by
  simp at h
  unfold decideVisitor
  repeat' (first | (simp [h]; done) | split | (intro _) | (refine (foldl_part p _ ?_ _ _).trans ?_; intro s a) | (dsimp only; split) | (simp [h]; split) | simp [h])

@[simp] theorem computePlan_part (p : StatePart) (h : p ∉ ([.draws, .fabricCounters, .fabricGuestCount, .fabricGuestNext, .fabricPlan, .fabricSlots] : List StatePart)) (a0 : Sys2Proof.Machine.State) :
    part (computePlan a0) p = part a0 p := by
  simp at h
  unfold computePlan
  repeat' (first | (simp [h]; done) | split | (intro _) | (refine (foldl_part p _ ?_ _ _).trans ?_; intro s a) | (dsimp only; split) | (simp [h]; split) | simp [h])

@[simp] theorem dropStale_part (p : StatePart) (h : p ∉ ([.fabricPlan, .fabricSlots] : List StatePart)) (a0 : Sys2Proof.Machine.State) :
    part (dropStale a0) p = part a0 p := by
  simp at h
  unfold dropStale
  repeat' split
  all_goals simp [h]

@[simp] theorem bookPlan_part (p : StatePart) (h : p ∉ ([.fabricBooked, .fabricHolds, .fabricPlan, .fabricPlanResv] : List StatePart)) (a0 : Sys2Proof.Machine.State) (a1 : List Sys2Proof.Machine.Planned) :
    part (bookPlan a0 a1) p = part a0 p := by
  simp at h
  unfold bookPlan
  repeat' (first | (simp [h]; done) | split | (intro _) | (refine (foldl_part p _ ?_ _ _).trans ?_; intro s a) | (dsimp only; split) | (simp [h]; split) | simp [h])

end Sys2Proof.Laws
end

