-- ==== Sys2Proof/Laws/PartsStreams.lean ====
section
/-! SUPPORT. What the stream, signal, catalogue and queue operations leave alone. -/

namespace Sys2Proof.Laws

open Sys2Proof Sys2Proof.Machine

/-! ### QueueOps -/

@[simp] theorem usePortB_part (p : StatePart) (h : p ∉ ([.queuesPortB] : List StatePart)) (a0 : Sys2Proof.Machine.State) (a1 : Nat) (a2 : Bool) :
    part (usePortB a0 a1 a2) p = part a0 p := by
  simp at h
  unfold usePortB
  repeat' split
  all_goals simp [h]

@[simp] theorem useAdd_part (p : StatePart) (h : p ∉ ([.queuesPortB] : List StatePart)) (a0 : Sys2Proof.Machine.State) (a1 : Nat) (a2 : Nat) :
    part (useAdd a0 a1 a2) p = part a0 p := by
  simp at h
  unfold useAdd
  repeat' split
  all_goals simp [h]

@[simp] theorem lockLine_part (p : StatePart) (h : p ∉ ([.fabricLocks] : List StatePart)) (a0 : Sys2Proof.Machine.State) (a1 : Nat) :
    part (lockLine a0 a1) p = part a0 p := by
  simp at h
  unfold lockLine
  repeat' split
  all_goals simp [h]

@[simp] theorem meetPortA_part (p : StatePart) (h : p ∉ ([.banksCollations, .banksLastActive, .banksMem, .banksMerge, .banksPauses, .banksSeals, .banksValid, .draws, .fabricAccs, .fabricCounters, .fabricSlots, .powerDoms, .regs, .remoteOutMsgs, .replicasBaroCorr, .streamsCtxs, .supEventNow, .supEvents, .supNextEvent] : List StatePart)) (a0 : Sys2Proof.Machine.State) (a1 : Nat) :
    part (meetPortA a0 a1) p = part a0 p := by
  simp at h
  unfold meetPortA
  repeat' split
  all_goals simp [h]

@[simp] theorem portBWriteLine_part (p : StatePart) (h : p ∉ ([.banksCollations, .banksLastActive, .banksMem, .banksMerge, .banksPauses, .banksSeals, .banksValid, .draws, .fabricAccs, .fabricCounters, .fabricSlots, .powerDoms, .regs, .remoteOutMsgs, .replicasBaroCorr, .streamsCtxs, .supEventNow, .supEvents, .supNextEvent] : List StatePart)) (a0 : Sys2Proof.Machine.State) (a1 : Nat) (a2 : List Sys2Proof.Byte) :
    part (portBWriteLine a0 a1 a2) p = part a0 p := by
  simp at h
  unfold portBWriteLine
  repeat' split
  all_goals simp [h]

@[simp] theorem portBRead_part (p : StatePart) (h : p ∉ ([.banksCollations, .banksLastActive, .banksMem, .banksMerge, .banksPauses, .banksSeals, .banksValid, .draws, .fabricAccs, .fabricCounters, .fabricSlots, .powerDoms, .regs, .remoteOutMsgs, .replicasBaroCorr, .streamsCtxs, .supEventNow, .supEvents, .supNextEvent] : List StatePart)) (a0 : Sys2Proof.Machine.State) (a1 : Nat) (a2 : Nat) (a3 : Nat) :
    part (portBRead a0 a1 a2 a3).1 p = part a0 p := by
  simp at h
  unfold portBRead
  repeat' split
  all_goals simp [h]

@[simp] theorem submitOp_part (p : StatePart) (h : p ∉ ([.queuesNextOp, .queuesOps] : List StatePart)) (a0 : Sys2Proof.Machine.State) (a1 : Sys2Proof.Machine.OpIssuer) (a2 : Sys2Proof.Machine.OpKind) (a3 : Nat) (a4 : Nat) :
    part (submitOp a0 a1 a2 a3 a4) p = part a0 p := by
  simp at h
  unfold submitOp
  repeat' split
  all_goals simp [h]

@[simp] theorem wakeTaker_part (p : StatePart) (h : p ∉ ([.queuesSlipq, .streamsCtxs] : List StatePart)) (a0 : Sys2Proof.Machine.State) (a1 : Nat) :
    part (wakeTaker a0 a1) p = part a0 p := by
  simp at h
  unfold wakeTaker
  repeat' split
  all_goals simp [h]

@[simp] theorem resumeGiver_part (p : StatePart) (h : p ∉ ([.queuesSlipq, .streamsCtxs] : List StatePart)) (a0 : Sys2Proof.Machine.State) (a1 : Nat) :
    part (resumeGiver a0 a1) p = part a0 p := by
  simp at h
  unfold resumeGiver
  repeat' split
  all_goals simp [h]

@[simp] theorem sqGive_part (p : StatePart) (h : p ∉ ([.banksCollations, .banksLastActive, .banksMem, .banksMerge, .banksPauses, .banksSeals, .banksValid, .draws, .fabricAccs, .fabricCounters, .fabricLocks, .fabricSlots, .powerDoms, .queuesSlipq, .regs, .remoteOutMsgs, .replicasBaroCorr, .streamsCtxs, .supEventNow, .supEvents, .supNextEvent] : List StatePart)) (a0 : Sys2Proof.Machine.State) (a1 : Nat) (a2 : Nat) (a3 : Sys2Proof.Word) (a4 : Bool) (a5 : Nat) (a6 : Nat) :
    part (sqGive a0 a1 a2 a3 a4 a5 a6).1 p = part a0 p := by
  simp at h
  unfold sqGive
  repeat' (first | (simp [h]; done) | split | (dsimp only; split))

@[simp] theorem sqTake_part (p : StatePart) (h : p ∉ ([.banksCollations, .banksLastActive, .banksMem, .banksMerge, .banksPauses, .banksSeals, .banksValid, .draws, .fabricAccs, .fabricCounters, .fabricSlots, .powerDoms, .queuesSlipq, .regs, .remoteOutMsgs, .replicasBaroCorr, .streamsCtxs, .supEventNow, .supEvents, .supNextEvent] : List StatePart)) (a0 : Sys2Proof.Machine.State) (a1 : Nat) (a2 : Nat) (a3 : Nat) (a4 : Nat) :
    part (sqTake a0 a1 a2 a3 a4).1 p = part a0 p := by
  simp at h
  unfold sqTake
  repeat' (first | (simp [h]; done) | split | (dsimp only; split))

@[simp] theorem listTaker_part (p : StatePart) (h : p ∉ ([.queuesSlipq, .regs, .streamsCtxs, .supW1cSet] : List StatePart)) (a0 : Sys2Proof.Machine.State) (a1 : Nat) (a2 : Sys2Proof.CtxId) :
    part (listTaker a0 a1 a2) p = part a0 p := by
  simp at h
  unfold listTaker
  repeat' split
  all_goals simp [h]

@[simp] theorem rsPost_part (p : StatePart) (h : p ∉ ([.banksCollations, .banksLastActive, .banksMem, .banksMerge, .banksPauses, .banksSeals, .banksValid, .draws, .fabricAccs, .fabricCounters, .fabricSlots, .powerDoms, .queuesResults, .regs, .remoteOutMsgs, .replicasBaroCorr, .streamsCtxs, .supEventNow, .supEvents, .supNextEvent] : List StatePart)) (a0 : Sys2Proof.Machine.State) (a1 : Nat) (a2 : Nat) (a3 : Nat) (a4 : Nat) (a5 : List Sys2Proof.Byte) :
    part (rsPost a0 a1 a2 a3 a4 a5).1 p = part a0 p := by
  simp at h
  unfold rsPost
  repeat' (first | (simp [h]; done) | split | (dsimp only; split))

@[simp] theorem rsRead_part (p : StatePart) (h : p ∉ ([.banksCollations, .banksLastActive, .banksMem, .banksMerge, .banksPauses, .banksSeals, .banksValid, .draws, .fabricAccs, .fabricCounters, .fabricSlots, .powerDoms, .queuesResults, .regs, .remoteOutMsgs, .replicasBaroCorr, .streamsCtxs, .supEventNow, .supEvents, .supNextEvent] : List StatePart)) (a0 : Sys2Proof.Machine.State) (a1 : Nat) (a2 : Nat) (a3 : Nat) (a4 : Nat) (a5 : Nat) :
    part (rsRead a0 a1 a2 a3 a4 a5).1 p = part a0 p := by
  simp at h
  unfold rsRead
  repeat' (first | (simp [h]; done) | split | (dsimp only; split))

@[simp] theorem rsConsume_part (p : StatePart) (h : p ∉ ([.fabricCounters, .queuesResults] : List StatePart)) (a0 : Sys2Proof.Machine.State) (a1 : Nat) (a2 : Nat) (a3 : Nat) (a4 : Nat) :
    part (rsConsume a0 a1 a2 a3 a4).1 p = part a0 p := by
  simp at h
  unfold rsConsume
  repeat' (first | (simp [h]; done) | split | (dsimp only; split))

@[simp] theorem wakeForB_part (p : StatePart) (h : p ∉ ([.banksLastActive, .banksPauses, .banksValid, .powerDoms, .regs] : List StatePart)) (a0 : Sys2Proof.Machine.State) (a1 : Nat) :
    part (wakeForB a0 a1) p = part a0 p := by
  simp at h
  unfold wakeForB
  repeat' split
  all_goals simp [h]

@[simp] theorem cqPost_part (p : StatePart) (h : p ∉ ([.banksCollations, .banksLastActive, .banksMem, .banksMerge, .banksPauses, .banksSeals, .banksValid, .draws, .fabricAccs, .fabricCounters, .fabricSlots, .powerDoms, .queuesComb, .queuesPortB, .queuesResults, .regs, .remoteOutMsgs, .replicasBaroCorr, .streamsCtxs, .supEventNow, .supEvents, .supNextEvent] : List StatePart)) (a0 : Sys2Proof.Machine.State) (a1 : Nat) (a2 : Nat) (a3 : Nat) :
    part (cqPost a0 a1 a2 a3) p = part a0 p := by
  simp at h
  unfold cqPost
  repeat' split
  all_goals simp [h]

@[simp] theorem cqComplete_part (p : StatePart) (h : p ∉ ([.banksCollations, .banksLastActive, .banksMem, .banksMerge, .banksPauses, .banksSeals, .banksValid, .draws, .fabricAccs, .fabricCounters, .fabricSlots, .powerDoms, .queuesComb, .queuesPortB, .queuesResults, .regs, .remoteOutMsgs, .replicasBaroCorr, .streamsCtxs, .supEventNow, .supEvents, .supNextEvent] : List StatePart)) (a0 : Sys2Proof.Machine.State) (a1 : Nat) (a2 : Nat) (a3 : Nat) :
    part (cqComplete a0 a1 a2 a3) p = part a0 p := by
  simp at h
  unfold cqComplete
  repeat' split
  all_goals simp [h]

@[simp] theorem cqAdd_part (p : StatePart) (h : p ∉ ([.banksCollations, .banksLastActive, .banksMem, .banksMerge, .banksPauses, .banksSeals, .banksValid, .draws, .fabricAccs, .fabricCounters, .fabricLocks, .fabricSlots, .powerDoms, .queuesComb, .regs, .remoteOutMsgs, .replicasBaroCorr, .streamsCtxs, .supEventNow, .supEvents, .supNextEvent] : List StatePart)) (a0 : Sys2Proof.Machine.State) (a1 : Nat) (a2 : Nat) (a3 : Nat) (a4 : Nat) (a5 : List Sys2Proof.Byte) (a6 : Nat) (a7 : Nat) :
    part (cqAdd a0 a1 a2 a3 a4 a5 a6 a7) p = part a0 p := by
  simp at h
  unfold cqAdd
  repeat' split
  all_goals simp [h]

@[simp] theorem cqAdvance_part (p : StatePart) (h : p ∉ ([.banksCollations, .banksLastActive, .banksMem, .banksMerge, .banksPauses, .banksSeals, .banksValid, .draws, .fabricAccs, .fabricCounters, .fabricLocks, .fabricSlots, .powerDoms, .queuesComb, .regs, .remoteOutMsgs, .replicasBaroCorr, .streamsCtxs, .supEventNow, .supEvents, .supNextEvent] : List StatePart)) (a0 : Nat) (a1 : Sys2Proof.Machine.State) (a2 : Nat) (a3 : Nat) (a4 : Nat) :
    part (cqAdvance a0 a1 a2 a3 a4) p = part a1 p := by
  simp at h
  induction a0 generalizing a1 with
  | zero => unfold cqAdvance; repeat' (first | (simp [h]; done) | split)
  | succ n ih => unfold cqAdvance; dsimp only; split; rfl; rw [ih]; simp [h]

@[simp] theorem cqArrive_part (p : StatePart) (h : p ∉ ([.banksCollations, .banksLastActive, .banksMem, .banksMerge, .banksPauses, .banksSeals, .banksValid, .draws, .fabricAccs, .fabricCounters, .fabricLocks, .fabricSlots, .powerDoms, .queuesComb, .queuesPortB, .queuesResults, .regs, .remoteOutMsgs, .replicasBaroCorr, .streamsCtxs, .supEventNow, .supEvents, .supNextEvent] : List StatePart)) (a0 : Sys2Proof.Machine.State) (a1 : Nat) (a2 : Nat) (a3 : Nat) (a4 : Nat) (a5 : Nat) (a6 : List Sys2Proof.Byte) (a7 : Nat) (a8 : Nat) :
    part (cqArrive a0 a1 a2 a3 a4 a5 a6 a7 a8) p = part a0 p := by
  simp at h
  unfold cqArrive
  repeat' split
  all_goals simp [h]

/-! ### StreamIssue -/

theorem turn_part (p : StatePart)
    (h : p ∉ ([.banksCollations, .banksLastActive, .banksMem, .banksMerge, .banksPauses, .banksSeals, .banksValid, .draws, .fabricAccs, .fabricBooked, .fabricCounters, .fabricHolds, .fabricSlots, .now, .powerDoms, .regs, .remoteOutMsgs, .replicasBaroCorr, .replicasStrays, .streamsCtxs, .streamsTokens, .supEventNow, .supEvents, .supNextEvent] : List StatePart)) (s : State) (c : CtxId)
    (f : SInstr → Option (State → State)) (hf : ∀ i g, f i = some g → ∀ s, part (g s) p = part s p) :
    part (turn s c f) p = part s p := by
  simp at h
  unfold turn
  dsimp only
  split
  · split
    · split
      · next hg =>
        rw [atCycle_part p (by simp [h])]
        intro z
        rw [hf _ _ hg, ctxMod_part p (by simp [h])]
      · rfl
    · rfl
  · rfl

@[simp] theorem finishWith_part (p : StatePart) (h : p ∉ ([.streamsCtxs] : List StatePart)) (a0 : Sys2Proof.Machine.State) (a1 : Sys2Proof.CtxId) (a2 : Sys2Proof.Machine.CtxRegs → Sys2Proof.Machine.CtxRegs) :
    part (finishWith a0 a1 a2) p = part a0 p := by
  simp at h
  unfold finishWith
  repeat' split
  all_goals simp [h]

@[simp] theorem issueSlot_part (p : StatePart) (h : p ∉ ([.banksCollations, .banksLastActive, .banksMerge, .banksPauses, .banksSealMap, .banksSeals, .banksValid, .fabricNextSlot, .fabricPlan, .fabricSlots, .powerDoms, .queuesSlipq, .regs, .remoteOutMsgs, .remoteOutStage, .remoteTranslator, .streamsAborts, .streamsCtxs, .streamsTiles, .supAllocs, .supCmds, .supEventNow, .supEvents, .supInputs, .supNextEvent, .supSideOrder, .supW1cSet] : List StatePart)) (a0 : Sys2Proof.Machine.State) (a1 : Sys2Proof.CtxId) (a2 : Sys2Proof.Machine.SlotKind) (a3 : Sys2Proof.SlotClass) (a4 : Sys2Proof.Machine.Endp) (a5 : Sys2Proof.Machine.Endp) (a6 : Nat) (a7 : Nat) (a8 : Sys2Proof.Machine.Ctx → Sys2Proof.Machine.Ctx) (a9 : optParam Bool false) :
    part (issueSlot a0 a1 a2 a3 a4 a5 a6 a7 a8 a9) p = part a0 p := by
  simp at h
  unfold issueSlot
  repeat' split
  all_goals simp [h]

@[simp] theorem tileMod_part (p : StatePart) (h : p ∉ ([.streamsTiles] : List StatePart)) (a0 : Sys2Proof.Machine.State) (a1 : Nat) (a2 : Sys2Proof.Machine.Tile → Sys2Proof.Machine.Tile) :
    part (tileMod a0 a1 a2) p = part a0 p := by
  simp at h
  unfold tileMod
  repeat' split
  all_goals simp [h]

@[simp] theorem pumpOutputs_part (p : StatePart) (h : p ∉ ([.banksLastActive, .banksMerge, .banksSealMap, .banksSeals, .fabricNextSlot, .fabricPlan, .fabricSlots, .queuesSlipq, .regs, .remoteOutMsgs, .remoteOutStage, .remoteTranslator, .streamsAborts, .streamsCtxs, .streamsTiles, .supAllocs, .supCmds, .supEventNow, .supEvents, .supInputs, .supNextEvent, .supSideOrder, .supW1cSet] : List StatePart)) (a0 : Sys2Proof.Machine.State) (a1 : Nat) (a2 : Nat) :
    part (pumpOutputs a0 a1 a2) p = part a0 p := by
  simp at h
  unfold pumpOutputs
  repeat' (first | (simp [h]; done) | split | (intro _) | (refine (foldl_part p _ ?_ _ _).trans ?_; intro s a) | (dsimp only; split) | (simp [h]; split) | simp [h])

@[simp] theorem slotDone_part (p : StatePart) (h : p ∉ ([.banksCollations, .banksLastActive, .banksMerge, .banksPauses, .banksSealMap, .banksSeals, .banksValid, .fabricNextSlot, .fabricPlan, .fabricSlots, .powerDoms, .queuesSlipq, .regs, .remoteOutMsgs, .remoteOutStage, .remoteTranslator, .streamsAborts, .streamsCtxs, .streamsTiles, .supAllocs, .supCmds, .supEventNow, .supEvents, .supInputs, .supNextEvent, .supSideOrder, .supW1cSet] : List StatePart)) (a0 : Sys2Proof.Machine.State) (a1 : Sys2Proof.CtxId) (a2 : Nat) (a3 : Sys2Proof.Word) (a4 : BitVec 48) (a5 : Option (List Sys2Proof.Byte)) :
    part (slotDone a0 a1 a2 a3 a4 a5) p = part a0 p := by
  simp at h
  unfold slotDone
  repeat' split
  all_goals simp [h]

@[simp] theorem whenDrained_part (p : StatePart) (h : p ∉ ([.streamsCtxs] : List StatePart)) (a0 : Sys2Proof.Machine.State) (a1 : Sys2Proof.CtxId) (a2 : State → State) (hf2 : ∀ s, part (a2 s) p = part s p) :
    part (whenDrained a0 a1 a2) p = part a0 p := by
  simp at h
  unfold whenDrained
  repeat' (first | (simp [h, *]; done) | split | (intro _) | (refine (foldl_part p _ ?_ _ _).trans ?_; intro s a) | (dsimp only; split) | (simp [h, *]; split) | simp [h, *])

@[simp] theorem sendOp_part (p : StatePart) (h : p ∉ ([.queuesNextOp, .queuesOps, .streamsCtxs] : List StatePart)) (a0 : Sys2Proof.Machine.State) (a1 : Sys2Proof.CtxId) (a2 : Sys2Proof.Machine.OpKind) :
    part (sendOp a0 a1 a2) p = part a0 p := by
  simp at h
  unfold sendOp
  repeat' split
  all_goals simp [h]

@[simp] theorem opTook_part (p : StatePart) (h : p ∉ ([.banksSealMap, .banksSeals, .queuesSlipq, .regs, .streamsAborts, .streamsCtxs, .streamsTiles, .supAllocs, .supCmds, .supEventNow, .supEvents, .supInputs, .supNextEvent, .supSideOrder, .supW1cSet] : List StatePart)) (a0 : Sys2Proof.Machine.State) (a1 : Sys2Proof.CtxId) (a2 : Sys2Proof.Machine.Ctx → Sys2Proof.Machine.Ctx) :
    part (opTook a0 a1 a2) p = part a0 p := by
  simp at h
  unfold opTook
  repeat' split
  all_goals simp [h]

@[simp] theorem opMissed_part (p : StatePart) (h : p ∉ ([.banksSealMap, .banksSeals, .queuesSlipq, .regs, .streamsAborts, .streamsCtxs, .streamsTiles, .supAllocs, .supCmds, .supEventNow, .supEvents, .supInputs, .supNextEvent, .supSideOrder, .supW1cSet] : List StatePart)) (a0 : Sys2Proof.Machine.State) (a1 : Sys2Proof.CtxId) :
    part (opMissed a0 a1) p = part a0 p := by
  simp at h
  unfold opMissed
  repeat' split
  all_goals simp [h]

@[simp] theorem opFault_part (p : StatePart) (h : p ∉ ([.banksLastActive, .banksMerge, .banksSealMap, .banksSeals, .fabricPlan, .fabricSlots, .queuesSlipq, .regs, .remoteOutMsgs, .remoteOutStage, .streamsAborts, .streamsCtxs, .streamsTiles, .supAllocs, .supCmds, .supEventNow, .supEvents, .supInputs, .supNextEvent, .supSideOrder, .supW1cSet] : List StatePart)) (a0 : Sys2Proof.Machine.State) (a1 : Sys2Proof.CtxId) (a2 : Sys2Proof.Word) :
    part (opFault a0 a1 a2) p = part a0 p := by
  simp at h
  unfold opFault
  repeat' split
  all_goals simp [h]

@[simp] theorem opWait_part (p : StatePart) (h : p ∉ ([.banksSealMap, .banksSeals, .queuesSlipq, .regs, .streamsAborts, .streamsCtxs, .streamsTiles, .supAllocs, .supCmds, .supEventNow, .supEvents, .supInputs, .supNextEvent, .supSideOrder, .supW1cSet] : List StatePart)) (a0 : Sys2Proof.Machine.State) (a1 : Sys2Proof.CtxId) (a2 : Sys2Proof.Machine.Wait) (a3 : State → State) (hf3 : ∀ s, part (a3 s) p = part s p) :
    part (opWait a0 a1 a2 a3) p = part a0 p := by
  simp at h
  unfold opWait
  repeat' (first | (simp [h, *]; done) | split | (intro _) | (refine (foldl_part p _ ?_ _ _).trans ?_; intro s a) | (dsimp only; split) | (simp [h, *]; split) | simp [h, *])

@[simp] theorem ctxOpDone_part (p : StatePart) (h : p ∉ ([.banksLastActive, .banksMerge, .banksSealMap, .banksSeals, .fabricPlan, .fabricSlots, .queuesSlipq, .regs, .remoteOutMsgs, .remoteOutStage, .streamsAborts, .streamsCtxs, .streamsTiles, .supAllocs, .supCmds, .supEventNow, .supEvents, .supInputs, .supNextEvent, .supSideOrder, .supW1cSet] : List StatePart)) (a0 : Sys2Proof.Machine.State) (a1 : Sys2Proof.CtxId) (a2 : Sys2Proof.Word) (a3 : Sys2Proof.Word) :
    part (ctxOpDone a0 a1 a2 a3) p = part a0 p := by
  simp at h
  unfold ctxOpDone
  repeat' (first | (simp [h]; done) | split | (dsimp only; split))

@[simp] theorem sendToken_part (p : StatePart) (h : p ∉ ([.streamsNextToken, .streamsTokens] : List StatePart)) (a0 : Sys2Proof.Machine.State) (a1 : Sys2Proof.Machine.TokenKind) (a2 : Nat) (a3 : Option Nat) (a4 : Nat) (a5 : Option Nat) :
    part (sendToken a0 a1 a2 a3 a4 a5) p = part a0 p := by
  simp at h
  unfold sendToken
  repeat' split
  all_goals simp [h]

@[simp] theorem dropToken_part (p : StatePart) (h : p ∉ ([.streamsTokens] : List StatePart)) (a0 : Sys2Proof.Machine.State) (a1 : Nat) :
    part (dropToken a0 a1) p = part a0 p := by
  simp at h
  unfold dropToken
  repeat' split
  all_goals simp [h]

/-! ### StreamControl -/

@[simp] theorem endRun_part (p : StatePart) (h : p ∉ ([.banksSealMap, .banksSeals, .regs, .streamsCtxs, .supEventNow, .supEvents, .supNextEvent] : List StatePart)) (a0 : Sys2Proof.Machine.State) (a1 : Sys2Proof.CtxId) :
    part (endRun a0 a1) p = part a0 p := by
  simp at h
  unfold endRun
  repeat' (first | (simp [h]; done) | split | (dsimp only; split))

@[simp] theorem wakeSeals_part (p : StatePart) (h : p ∉ ([.streamsCtxs] : List StatePart)) (a0 : Sys2Proof.Machine.State) :
    part (wakeSeals a0) p = part a0 p := by
  simp at h
  unfold wakeSeals
  repeat' split
  all_goals simp [h]

@[simp] theorem sendPost_part (p : StatePart) (h : p ∉ ([.replicasNextPost, .replicasPosts, .streamsCtxs] : List StatePart)) (a0 : Sys2Proof.Machine.State) (a1 : Sys2Proof.CtxId) (a2 : Nat) (a3 : Nat) :
    part (sendPost a0 a1 a2 a3) p = part a0 p := by
  simp at h
  unfold sendPost
  repeat' split
  all_goals simp [h]

/-! ### StreamTransfer -/

@[simp] theorem whenRoom_part (p : StatePart) (h : p ∉ ([.streamsCtxs] : List StatePart)) (a0 : Sys2Proof.Machine.State) (a1 : Sys2Proof.CtxId) (a2 : State → State) (hf2 : ∀ s, part (a2 s) p = part s p) :
    part (whenRoom a0 a1 a2) p = part a0 p := by
  simp at h
  unfold whenRoom
  repeat' (first | (simp [h, *]; done) | split | (intro _) | (refine (foldl_part p _ ?_ _ _).trans ?_; intro s a) | (dsimp only; split) | (simp [h, *]; split) | simp [h, *])

@[simp] theorem emitNext_part (p : StatePart) (h : p ∉ ([.banksCollations, .banksLastActive, .banksMerge, .banksPauses, .banksSealMap, .banksSeals, .banksValid, .fabricNextSlot, .fabricPlan, .fabricSlots, .powerDoms, .queuesSlipq, .regs, .remoteOutMsgs, .remoteOutStage, .remoteTranslator, .streamsAborts, .streamsCtxs, .streamsTiles, .supAllocs, .supCatCorrected, .supCatReported, .supCmds, .supEventNow, .supEvents, .supInputs, .supNextEvent, .supSideOrder, .supW1cSet] : List StatePart)) (a0 : Sys2Proof.Machine.State) (a1 : Sys2Proof.CtxId) (a2 : Bool) (a3 : Sys2Proof.Machine.EndField) (a4 : Sys2Proof.Machine.EndField) (a5 : Bool) (a6 : Nat) (a7 : Nat) :
    part (emitNext a0 a1 a2 a3 a4 a5 a6 a7) p = part a0 p := by
  simp at h
  unfold emitNext
  repeat' split
  all_goals simp [h]

@[simp] theorem Gs_requestIndex_part (p : StatePart) (h : p ∉ ([.banksCollations, .banksLastActive, .banksMerge, .banksPauses, .banksSealMap, .banksSeals, .banksValid, .fabricNextSlot, .fabricPlan, .fabricSlots, .powerDoms, .queuesSlipq, .regs, .remoteOutMsgs, .remoteOutStage, .remoteTranslator, .streamsAborts, .streamsCtxs, .streamsTiles, .supAllocs, .supCmds, .supEventNow, .supEvents, .supInputs, .supNextEvent, .supSideOrder, .supW1cSet] : List StatePart)) (a0 : Sys2Proof.Machine.Gs) (a1 : Sys2Proof.Machine.State) (a2 : Sys2Proof.CtxId) (a3 : Nat) :
    part (Gs.requestIndex a0 a1 a2 a3) p = part a1 p := by
  simp at h
  unfold Gs.requestIndex
  repeat' split
  all_goals simp [h]

@[simp] theorem Gs_step_part (p : StatePart) (h : p ∉ ([.banksCollations, .banksLastActive, .banksMerge, .banksPauses, .banksSealMap, .banksSeals, .banksValid, .fabricNextSlot, .fabricPlan, .fabricSlots, .powerDoms, .queuesSlipq, .regs, .remoteOutMsgs, .remoteOutStage, .remoteTranslator, .streamsAborts, .streamsCtxs, .streamsTiles, .supAllocs, .supCmds, .supEventNow, .supEvents, .supInputs, .supNextEvent, .supSideOrder, .supW1cSet] : List StatePart)) (a0 : Sys2Proof.Machine.Gs) (a1 : Sys2Proof.Machine.State) (a2 : Sys2Proof.CtxId) :
    part (Gs.step a0 a1 a2) p = part a1 p := by
  simp at h
  unfold Gs.step
  repeat' (first | (simp [h]; done) | split | (dsimp only; split))

@[simp] theorem xposeTile_part (p : StatePart) (h : p ∉ ([.streamsCtxs, .streamsNextTile, .streamsTiles] : List StatePart)) (a0 : Sys2Proof.Machine.State) (a1 : Sys2Proof.CtxId) (a2 : Sys2Proof.Machine.EndField) (a3 : Nat) (a4 : Bool) :
    part (xposeTile a0 a1 a2 a3 a4) p = part a0 p := by
  simp at h
  unfold xposeTile
  dsimp only
  split
  · split
    · simp [h]
    · rw [ctxMod_part p (by simp [h]), onStreams_tiles_nextTile_part p _ _ _ (by simp [h]) (by simp [h])]
  · rfl

@[simp] theorem xposeStep_part (p : StatePart) (h : p ∉ ([.banksCollations, .banksLastActive, .banksMerge, .banksPauses, .banksSealMap, .banksSeals, .banksValid, .fabricNextSlot, .fabricPlan, .fabricSlots, .powerDoms, .queuesSlipq, .regs, .remoteOutMsgs, .remoteOutStage, .remoteTranslator, .streamsAborts, .streamsCtxs, .streamsNextTile, .streamsTiles, .supAllocs, .supCmds, .supEventNow, .supEvents, .supInputs, .supNextEvent, .supSideOrder, .supW1cSet] : List StatePart)) (a0 : Sys2Proof.Machine.State) (a1 : Sys2Proof.CtxId) (a2 : Sys2Proof.Machine.EndField) (a3 : Sys2Proof.Machine.EndField) (a4 : Nat) (a5 : Nat) (a6 : Bool) :
    part (xposeStep a0 a1 a2 a3 a4 a5 a6) p = part a0 p := by
  simp at h
  unfold xposeStep
  repeat' (first | (simp [h]; done) | split | (dsimp only; split))

/-! ### Signals -/

@[simp] theorem takeToken_part (p : StatePart) (h : p ∉ ([.streamsCtxs] : List StatePart)) (a0 : Sys2Proof.Machine.State) (a1 : BitVec 12) (a2 : Sys2Proof.CtxId) (a3 : Sys2Proof.CtxId) :
    part (takeToken a0 a1 a2 a3).1 p = part a0 p := by
  simp at h
  unfold takeToken
  repeat' (first | (simp [h]; done) | split | (dsimp only; split))

@[simp] theorem countLocal_part (p : StatePart) (h : p ∉ ([.streamsBarrierCount, .streamsNextToken, .streamsTokens] : List StatePart)) (a0 : Sys2Proof.Machine.State) (a1 : Nat) (a2 : Nat) (a3 : Nat) :
    part (countLocal a0 a1 a2 a3) p = part a0 p := by
  simp at h
  unfold countLocal
  repeat' split
  all_goals simp [h]

@[simp] theorem countRoot_part (p : StatePart) (h : p ∉ ([.streamsBarrierRoot, .streamsNextToken, .streamsTokens] : List StatePart)) (a0 : Sys2Proof.Machine.State) (a1 : Nat) (a2 : Nat) (a3 : Nat) :
    part (countRoot a0 a1 a2 a3) p = part a0 p := by
  simp at h
  unfold countRoot
  repeat' split
  all_goals simp [h]

@[simp] theorem releaseDie_part (p : StatePart) (h : p ∉ ([.streamsCtxs] : List StatePart)) (a0 : Sys2Proof.Machine.State) (a1 : Nat) (a2 : BitVec 12) :
    part (releaseDie a0 a1 a2) p = part a0 p := by
  simp at h
  unfold releaseDie
  repeat' split
  all_goals simp [h]

/-! ### StreamCmds -/

@[simp] theorem requestLoad_part (p : StatePart) (h : p ∉ ([.banksCollations, .banksLastActive, .banksMerge, .banksPauses, .banksValid, .fabricNextSlot, .fabricSlots, .powerDoms, .regs, .remoteTranslator] : List StatePart)) (a0 : Sys2Proof.Machine.State) (a1 : Sys2Proof.CtxId) (a2 : Nat) (a3 : Nat) (a4 : Nat) (a5 : Nat) :
    part (requestLoad a0 a1 a2 a3 a4 a5) p = part a0 p := by
  simp at h
  unfold requestLoad
  repeat' split
  all_goals simp [h]

@[simp] theorem startLoad_part (p : StatePart) (h : p ∉ ([.banksCollations, .banksLastActive, .banksMerge, .banksPauses, .banksValid, .fabricNextSlot, .fabricSlots, .powerDoms, .regs, .remoteTranslator, .streamsCtxs, .supCmds] : List StatePart)) (a0 : Sys2Proof.Machine.State) (a1 : Sys2Proof.CmdSrc) (a2 : Sys2Proof.CtxId) (a3 : Bool) :
    part (startLoad a0 a1 a2 a3) p = part a0 p := by
  simp at h
  unfold startLoad
  repeat' split
  all_goals simp [h]

@[simp] theorem descArrived_part (p : StatePart) (h : p ∉ ([.banksCollations, .banksLastActive, .banksMerge, .banksPauses, .banksValid, .fabricNextSlot, .fabricSlots, .powerDoms, .regs, .remoteTranslator, .streamsCtxs] : List StatePart)) (a0 : Sys2Proof.Machine.State) (a1 : Sys2Proof.CtxId) (a2 : Sys2Proof.Machine.Loading) (a3 : Sys2Proof.Word) (a4 : List Sys2Proof.Byte) :
    part (descArrived a0 a1 a2 a3 a4) p = part a0 p := by
  simp at h
  unfold descArrived
  repeat' split
  all_goals simp [h]

@[simp] theorem loadDelivered_part (p : StatePart) (h : p ∉ ([.banksCollations, .banksLastActive, .banksMerge, .banksPauses, .banksValid, .fabricNextSlot, .fabricSlots, .powerDoms, .regs, .remoteTranslator, .streamsCtxs] : List StatePart)) (a0 : Sys2Proof.Machine.State) (a1 : Sys2Proof.CtxId) (a2 : Nat) (a3 : Sys2Proof.Word) (a4 : List Sys2Proof.Byte) :
    part (loadDelivered a0 a1 a2 a3 a4) p = part a0 p := by
  simp at h
  unfold loadDelivered
  repeat' split
  all_goals simp [h]

@[simp] theorem loadFailed_part (p : StatePart) (h : p ∉ ([.regs, .streamsCtxs, .supAllocs, .supCmds, .supEventNow, .supEvents, .supInputs, .supNextEvent, .supSideOrder, .supW1cSet] : List StatePart)) (a0 : Sys2Proof.Machine.State) (a1 : Sys2Proof.CtxId) (a2 : Sys2Proof.Machine.Loading) :
    part (loadFailed a0 a1 a2) p = part a0 p := by
  simp at h
  unfold loadFailed
  repeat' split
  all_goals simp [h]

/-! ### Catalogue -/

@[simp] theorem mendEntry_part (p : StatePart) (h : p ∉ ([.supCatReported, .supCatUpsets] : List StatePart)) (a0 : Sys2Proof.Machine.State) (a1 : Nat) (a2 : Nat) :
    part (mendEntry a0 a1 a2) p = part a0 p := by
  simp at h
  unfold mendEntry
  repeat' split
  all_goals simp [h]

@[simp] theorem freeEntry_part (p : StatePart) (h : p ∉ ([.fabricSlots, .regs, .remoteTranslator, .supCatFreed, .supCatReported, .supCatUpsets] : List StatePart)) (a0 : Sys2Proof.Machine.State) (a1 : Nat) (a2 : Nat) :
    part (freeEntry a0 a1 a2) p = part a0 p := by
  simp at h
  unfold freeEntry
  repeat' split
  all_goals simp [h]

@[simp] theorem changeClass_part (p : StatePart) (h : p ∉ ([.banksClassMap, .banksCollations, .banksLost, .banksMerge, .banksSealMap, .banksSeals, .banksValid, .fabricSlots, .regs, .supEventNow, .supEvents, .supNextEvent] : List StatePart)) (a0 : Sys2Proof.Machine.State) (a1 : Nat) (a2 : Sys2Proof.Machine.Protection) (a3 : Sys2Proof.CmdSrc) :
    part (changeClass a0 a1 a2 a3) p = part a0 p := by
  simp at h
  unfold changeClass
  repeat' split
  all_goals simp [h]

@[simp] theorem writeEntry_part (p : StatePart) (h : p ∉ ([.regs, .supCatReported, .supCatUpsets] : List StatePart)) (a0 : Sys2Proof.Machine.State) (a1 : Nat) (a2 : Nat) (a3 : Nat) (a4 : Sys2Proof.Machine.AllocReq) :
    part (writeEntry a0 a1 a2 a3 a4) p = part a0 p := by
  simp at h
  unfold writeEntry
  repeat' split
  all_goals simp [h]

@[simp] theorem useOwn_part (p : StatePart) (h : p ∉ ([.regs, .supCatCorrected, .supCatReported, .supEventNow, .supEvents, .supNextEvent] : List StatePart)) (a0 : Sys2Proof.Machine.State) (a1 : Sys2Proof.CmdSrc) (a2 : Nat) :
    part (useOwn a0 a1 a2) p = part a0 p := by
  simp at h
  unfold useOwn
  repeat' split
  all_goals simp [h]

@[simp] theorem holdDescriptor_part (p : StatePart) (h : p ∉ ([.fabricSlots, .remoteTranslator] : List StatePart)) (a0 : Sys2Proof.Machine.State) (a1 : Sys2Proof.Machine.Descriptor) :
    part (holdDescriptor a0 a1) p = part a0 p := by
  simp at h
  unfold holdDescriptor
  repeat' (first | (simp [h]; done) | split | (dsimp only; split))

@[simp] theorem translated_part (p : StatePart) (h : p ∉ ([.banksCollations, .banksLastActive, .banksMerge, .banksPauses, .banksValid, .fabricSlots, .powerDoms, .regs, .remoteTranslator] : List StatePart)) (a0 : Sys2Proof.Machine.State) (a1 : Sys2Proof.Machine.Slot) :
    part (translated a0 a1) p = part a0 p := by
  simp at h
  unfold translated
  repeat' split
  all_goals simp [h]

/-! ### QueueCmds -/

@[simp] theorem carryOut_part (p : StatePart) (h : p ∉ ([.banksCollations, .banksLastActive, .banksMem, .banksMerge, .banksPauses, .banksSeals, .banksValid, .draws, .fabricAccs, .fabricCounters, .fabricLocks, .fabricSlots, .powerDoms, .queuesResults, .queuesSlipq, .regs, .remoteOutMsgs, .replicasBaroCorr, .streamsCtxs, .supEventNow, .supEvents, .supNextEvent] : List StatePart)) (a0 : Sys2Proof.Machine.State) (a1 : Sys2Proof.Machine.QOp) :
    part (carryOut a0 a1).1 p = part a0 p := by
  simp at h
  unfold carryOut
  repeat' split
  all_goals simp [h]

@[simp] theorem answerOp_part (p : StatePart) (h : p ∉ ([.queuesOps] : List StatePart)) (a0 : Sys2Proof.Machine.State) (a1 : Sys2Proof.Machine.QOp) (a2 : Sys2Proof.Machine.OpAnswer) :
    part (answerOp a0 a1 a2) p = part a0 p := by
  simp at h
  unfold answerOp
  repeat' split
  all_goals simp [h]

@[simp] theorem noteServed_part (p : StatePart) (h : p ∉ ([.queuesServed] : List StatePart)) (a0 : Sys2Proof.Machine.State) (a1 : Sys2Proof.Machine.QOp) :
    part (noteServed a0 a1) p = part a0 p := by
  simp at h
  unfold noteServed
  repeat' split
  all_goals simp [h]

@[simp] theorem serveOp_part (p : StatePart) (h : p ∉ ([.banksCollations, .banksLastActive, .banksMem, .banksMerge, .banksPauses, .banksSeals, .banksValid, .draws, .fabricAccs, .fabricCounters, .fabricLocks, .fabricSlots, .powerDoms, .queuesOps, .queuesResults, .queuesServed, .queuesSlipq, .regs, .remoteOutMsgs, .replicasBaroCorr, .streamsCtxs, .supEventNow, .supEvents, .supNextEvent] : List StatePart)) (a0 : Sys2Proof.Machine.State) (a1 : Sys2Proof.Machine.QOp) :
    part (serveOp a0 a1) p = part a0 p := by
  simp at h
  unfold serveOp
  repeat' split
  all_goals simp [h]

@[simp] theorem coreOpDone_part (p : StatePart) (h : p ∉ ([.fabricCounters, .regs, .securityDenialSeen, .supEventNow, .supEvents, .supNextEvent] : List StatePart)) (a0 : Sys2Proof.Machine.State) (a1 : Nat) (a2 : Nat) (a3 : Sys2Proof.Machine.QOp) :
    part (coreOpDone a0 a1 a2 a3) p = part a0 p := by
  simp at h
  unfold coreOpDone
  repeat' split
  all_goals simp [h]

@[simp] theorem hostOpDone_part (p : StatePart) (h : p ∉ ([.pages, .regs, .supAllocs, .supCmds, .supEventNow, .supEvents, .supInputs, .supNextEvent, .supSideOrder, .supW1cSet] : List StatePart)) (a0 : Sys2Proof.Machine.State) (a1 : Sys2Proof.CmdSrc) (a2 : Sys2Proof.Machine.QOp) :
    part (hostOpDone a0 a1 a2) p = part a0 p := by
  simp at h
  unfold hostOpDone
  repeat' split
  all_goals simp [h]

@[simp] theorem sendHostOp_part (p : StatePart) (h : p ∉ ([.queuesNextOp, .queuesOps, .supCmds] : List StatePart)) (a0 : Sys2Proof.Machine.State) (a1 : Sys2Proof.CmdSrc) (a2 : Sys2Proof.Machine.OpKind) :
    part (sendHostOp a0 a1 a2) p = part a0 p := by
  simp at h
  unfold sendHostOp
  repeat' split
  all_goals simp [h]

@[simp] theorem coreOp_part (p : StatePart) (h : p ∉ ([.queuesNextOp, .queuesOps, .regs] : List StatePart)) (a0 : Sys2Proof.Machine.State) (a1 : Nat) (a2 : Nat) (a3 : Sys2Proof.Word) (a4 : Nat) (a5 : Nat → Bool) (a6 : Nat → Bool) (a7 : Nat → Nat) (a8 : Sys2Proof.Machine.State → Nat → Sys2Proof.Machine.OpKind) :
    part (coreOp a0 a1 a2 a3 a4 a5 a6 a7 a8) p = part a0 p := by
  simp at h
  unfold coreOp
  repeat' split
  all_goals simp [h]

@[simp] theorem coreOpReserved_part (p : StatePart) (h : p ∉ ([.regs] : List StatePart)) (a0 : Sys2Proof.Machine.State) (a1 : Nat) (a2 : Nat) (a3 : Sys2Proof.Word) :
    part (coreOpReserved a0 a1 a2 a3) p = part a0 p := by
  simp at h
  unfold coreOpReserved
  repeat' split
  all_goals simp [h]

@[simp] theorem coreGive_part (p : StatePart) (h : p ∉ ([.queuesNextOp, .queuesOps, .regs] : List StatePart)) (a0 : Sys2Proof.Machine.State) (a1 : Nat) (a2 : Nat) (a3 : Sys2Proof.Word) :
    part (coreGive a0 a1 a2 a3) p = part a0 p := by
  simp at h
  unfold coreGive
  repeat' split
  all_goals simp [h]

@[simp] theorem coreTake_part (p : StatePart) (h : p ∉ ([.queuesNextOp, .queuesOps, .regs] : List StatePart)) (a0 : Sys2Proof.Machine.State) (a1 : Nat) (a2 : Nat) (a3 : Sys2Proof.Word) :
    part (coreTake a0 a1 a2 a3) p = part a0 p := by
  simp at h
  unfold coreTake
  repeat' split
  all_goals simp [h]

@[simp] theorem coreRsPost_part (p : StatePart) (h : p ∉ ([.queuesNextOp, .queuesOps, .regs] : List StatePart)) (a0 : Sys2Proof.Machine.State) (a1 : Nat) (a2 : Nat) (a3 : Sys2Proof.Word) :
    part (coreRsPost a0 a1 a2 a3) p = part a0 p := by
  simp at h
  unfold coreRsPost
  repeat' split
  all_goals simp [h]

@[simp] theorem coreRsRead_part (p : StatePart) (h : p ∉ ([.queuesNextOp, .queuesOps, .regs] : List StatePart)) (a0 : Sys2Proof.Machine.State) (a1 : Nat) (a2 : Nat) (a3 : Sys2Proof.Word) :
    part (coreRsRead a0 a1 a2 a3) p = part a0 p := by
  simp at h
  unfold coreRsRead
  repeat' split
  all_goals simp [h]

@[simp] theorem coreRsConsume_part (p : StatePart) (h : p ∉ ([.queuesNextOp, .queuesOps, .regs] : List StatePart)) (a0 : Sys2Proof.Machine.State) (a1 : Nat) (a2 : Nat) (a3 : Sys2Proof.Word) :
    part (coreRsConsume a0 a1 a2 a3) p = part a0 p := by
  simp at h
  unfold coreRsConsume
  repeat' split
  all_goals simp [h]

@[simp] theorem qopCmdWrite_part (p : StatePart) (h : p ∉ ([.queuesNextOp, .queuesOps, .regs] : List StatePart)) (a0 : Sys2Proof.Machine.State) (a1 : Nat) (a2 : Nat) (a3 : Sys2Proof.Word) :
    part (qopCmdWrite a0 a1 a2 a3) p = part a0 p := by
  simp at h
  unfold qopCmdWrite
  repeat' split
  all_goals simp [h]

@[simp] theorem cqBegin_part (p : StatePart) (h : p ∉ ([.queuesComb, .regs, .supEventNow, .supEvents, .supNextEvent] : List StatePart)) (a0 : Sys2Proof.Machine.State) (a1 : Nat) (a2 : Nat) (a3 : Nat) :
    part (cqBegin a0 a1 a2 a3) p = part a0 p := by
  simp at h
  unfold cqBegin
  repeat' split
  all_goals simp [h]

@[simp] theorem cqCtlWrite_part (p : StatePart) (h : p ∉ ([.queuesComb, .regs, .supEventNow, .supEvents, .supNextEvent] : List StatePart)) (a0 : Sys2Proof.Machine.State) (a1 : Nat) (a2 : Nat) (a3 : Nat) (a4 : Nat) (a5 : Sys2Proof.Word) :
    part (cqCtlWrite a0 a1 a2 a3 a4 a5) p = part a0 p := by
  simp at h
  unfold cqCtlWrite
  repeat' split
  all_goals simp [h]

@[simp] theorem cqNoteWrite_part (p : StatePart) (h : p ∉ ([.regs] : List StatePart)) (a0 : Sys2Proof.Machine.State) (a1 : Nat) (a2 : Nat) (a3 : Nat) (a4 : Nat) (a5 : Sys2Proof.Word) :
    part (cqNoteWrite a0 a1 a2 a3 a4 a5) p = part a0 p := by
  simp at h
  unfold cqNoteWrite
  repeat' split
  all_goals simp [h]

@[simp] theorem refuseCombine_part (p : StatePart) (h : p ∉ ([.regs, .securityDenialSeen, .supEventNow, .supEvents, .supNextEvent] : List StatePart)) (a0 : Sys2Proof.Machine.State) (a1 : Sys2Proof.Machine.Slot) (a2 : Nat) (a3 : Sys2Proof.Machine.Verdict) :
    part (refuseCombine a0 a1 a2 a3) p = part a0 p := by
  simp at h
  unfold refuseCombine
  repeat' split
  all_goals simp [h]

end Sys2Proof.Laws
end

