-- ==== Sys2Proof/Laws/PartsRemote.lean ====
section
/-! SUPPORT. What the remote, delivery, weeding, codec and march operations leave alone. -/

namespace Sys2Proof.Laws

open Sys2Proof Sys2Proof.Machine

/-! ### RemoteOut -/

@[simp] theorem dropOut_part (p : StatePart) (h : p ∉ ([.remoteOutMsgs, .remoteOverdue] : List StatePart)) (a0 : Sys2Proof.Machine.State) (a1 : Nat) :
    part (dropOut a0 a1) p = part a0 p := by
  simp at h
  unfold dropOut
  repeat' split
  all_goals simp [h]

@[simp] theorem remoteDone_part (p : StatePart) (h : p ∉ ([.banksCollations, .banksLastActive, .banksMerge, .banksPauses, .banksSealMap, .banksSeals, .banksValid, .fabricCounters, .fabricNextSlot, .fabricPlan, .fabricSlots, .powerDoms, .queuesSlipq, .regs, .remoteOutMsgs, .remoteOutStage, .remoteOverdue, .remoteTranslator, .streamsAborts, .streamsCtxs, .streamsTiles, .supAllocs, .supCmds, .supEventNow, .supEvents, .supInputs, .supNextEvent, .supSideOrder, .supW1cSet] : List StatePart)) (a0 : Sys2Proof.Machine.State) (a1 : Sys2Proof.Machine.Slot) (a2 : Sys2Proof.Word) (a3 : Option (List Sys2Proof.Byte)) :
    part (remoteDone a0 a1 a2 a3) p = part a0 p := by
  simp at h
  unfold remoteDone
  repeat' split
  all_goals simp [h]

@[simp] theorem withdraw_part (p : StatePart) (h : p ∉ ([.banksSealMap, .banksSeals, .queuesSlipq, .regs, .streamsAborts, .streamsCtxs, .streamsTiles, .supAllocs, .supCmds, .supEventNow, .supEvents, .supInputs, .supNextEvent, .supSideOrder, .supW1cSet] : List StatePart)) (a0 : Sys2Proof.Machine.State) (a1 : Sys2Proof.Machine.Slot) :
    part (withdraw a0 a1) p = part a0 p := by
  simp at h
  unfold withdraw
  repeat' split
  all_goals simp [h]

theorem sendOut_part (p : StatePart) (h : p ∉ ([.fabricCounters, .out, .remoteCounters] : List StatePart)) (a0 : Sys2Proof.Machine.State) (a1 : Sys2Proof.Machine.OutMsg) (a2 : Sys2Proof.RemoteMsg) :
    ∀ t, sendOut a0 a1 a2 = .ok t → part t p = part a0 p := by
  simp at h
  intro t ht
  unfold sendOut at ht
  split at ht
  · cases ht
  · split at ht
    · cases ht
    · next p' hp =>
      injection ht with ht
      subst ht
      split at hp
      · simp [h, sealMsg_part p (by simp [h]) _ _ _ _ _ _ hp]
      · injection hp with hp
        subst hp
        simp [h]

@[simp] theorem markSent_part (p : StatePart) (h : p ∉ ([.remoteOutMsgs] : List StatePart)) (a0 : Sys2Proof.Machine.State) (a1 : Sys2Proof.Machine.OutMsg) (a2 : List Nat) :
    part (markSent a0 a1 a2) p = part a0 p := by
  simp at h
  unfold markSent
  repeat' split
  all_goals simp [h]

@[simp] theorem handOff_part (p : StatePart) (h : p ∉ ([.fabricSlots] : List StatePart)) (a0 : Sys2Proof.Machine.State) (a1 : Sys2Proof.Machine.Slot) :
    part (handOff a0 a1) p = part a0 p := by
  simp at h
  unfold handOff
  repeat' split
  all_goals simp [h]

@[simp] theorem putOne_part (p : StatePart) (h : p ∉ ([.banksCollations, .banksLastActive, .banksMerge, .banksPauses, .banksSealMap, .banksSeals, .banksValid, .fabricCounters, .fabricNextSlot, .fabricPlan, .fabricSlots, .out, .powerDoms, .queuesSlipq, .regs, .remoteCounters, .remoteOutMsgs, .remoteOutStage, .remoteOverdue, .remoteTranslator, .streamsAborts, .streamsCtxs, .streamsTiles, .supAllocs, .supCmds, .supEventNow, .supEvents, .supInputs, .supNextEvent, .supSideOrder, .supW1cSet] : List StatePart)) (a0 : Sys2Proof.Machine.State) (a1 : Sys2Proof.Machine.Slot) (a2 : Sys2Proof.Machine.OutMsg) :
    part (putOne a0 a1 a2) p = part a0 p := by
  simp at h
  unfold putOne
  split
  · simp [h]
  · next hs =>
    have e := sendOut_part p (by simp [h]) _ _ _ _ hs
    dsimp only
    repeat' split
    all_goals simp [h, e]

@[simp] theorem putRing_part (p : StatePart) (h : p ∉ ([.banksCollations, .banksLastActive, .banksMerge, .banksPauses, .banksSealMap, .banksSeals, .banksValid, .fabricCounters, .fabricNextSlot, .fabricPlan, .fabricSlots, .out, .powerDoms, .queuesSlipq, .regs, .remoteCounters, .remoteOutMsgs, .remoteOutStage, .remoteOverdue, .remoteTranslator, .streamsAborts, .streamsCtxs, .streamsTiles, .supAllocs, .supCmds, .supEventNow, .supEvents, .supInputs, .supNextEvent, .supSideOrder, .supW1cSet] : List StatePart)) (a0 : Sys2Proof.Machine.State) (a1 : Sys2Proof.Machine.OutStage) :
    part (putRing a0 a1) p = part a0 p := by
  simp at h
  unfold putRing
  dsimp only
  repeat' split
  all_goals first
    | (simp [h]; done)
    | (next hs => simp [h, sendOut_part p (by simp [h]) _ _ _ _ hs])

@[simp] theorem putPart_part (p : StatePart) (h : p ∉ ([.banksCollations, .banksLastActive, .banksMerge, .banksPauses, .banksSealMap, .banksSeals, .banksValid, .fabricCounters, .fabricNextSlot, .fabricPlan, .fabricSlots, .out, .powerDoms, .queuesSlipq, .regs, .remoteCounters, .remoteOutMsgs, .remoteOutStage, .remoteOverdue, .remoteTranslator, .streamsAborts, .streamsCtxs, .streamsTiles, .supAllocs, .supCmds, .supEventNow, .supEvents, .supInputs, .supNextEvent, .supSideOrder, .supW1cSet] : List StatePart)) (a0 : Sys2Proof.Machine.State) (a1 : Sys2Proof.Machine.Slot) (a2 : Sys2Proof.CtxId) (a3 : Sys2Proof.Machine.OutMsg) :
    part (putPart a0 a1 a2 a3) p = part a0 p := by
  simp at h
  unfold putPart
  repeat' split
  all_goals simp [h]

@[simp] theorem getAtEngine_part (p : StatePart) (h : p ∉ ([.banksCollations, .banksLastActive, .banksMerge, .banksPauses, .banksSealMap, .banksSeals, .banksValid, .fabricCounters, .fabricNextSlot, .fabricPlan, .fabricSlots, .out, .powerDoms, .queuesSlipq, .regs, .remoteCounters, .remoteOutMsgs, .remoteOutStage, .remoteOverdue, .remoteTranslator, .securityDenialSeen, .streamsAborts, .streamsCtxs, .streamsTiles, .supAllocs, .supCmds, .supEventNow, .supEvents, .supInputs, .supNextEvent, .supSideOrder, .supW1cSet] : List StatePart)) (a0 : Sys2Proof.Machine.State) (a1 : Sys2Proof.Machine.Slot) (a2 : Nat) :
    part (getAtEngine a0 a1 a2) p = part a0 p := by
  simp at h
  unfold getAtEngine
  dsimp only
  repeat' split
  all_goals first
    | (simp [h]; done)
    | (next hs => simp [h, sendOut_part p (by simp [h]) _ _ _ _ hs])

@[simp] theorem lateReply_part (p : StatePart) (h : p ∉ ([.fabricCounters] : List StatePart)) (a0 : Sys2Proof.Machine.State) (a1 : Sys2Proof.Machine.OutMsg) :
    part (lateReply a0 a1) p = part a0 p := by
  simp at h
  unfold lateReply
  repeat' split
  all_goals simp [h]

@[simp] theorem lateSlots_part (p : StatePart) (h : p ∉ ([.banksLastActive, .banksMerge, .fabricCounters, .fabricPlan, .fabricSlots, .remoteOutMsgs, .remoteOverdue] : List StatePart)) (a0 : Sys2Proof.Machine.State) (a1 : Sys2Proof.Machine.OutMsg) :
    part (lateSlots a0 a1) p = part a0 p := by
  simp at h
  unfold lateSlots
  repeat' split
  all_goals simp [h]

@[simp] theorem askAgain_part (p : StatePart) (h : p ∉ ([.banksCollations, .banksLastActive, .banksMerge, .banksPauses, .banksValid, .fabricSlots, .powerDoms, .regs, .remoteOutMsgs, .remoteOverdue] : List StatePart)) (a0 : Sys2Proof.Machine.State) (a1 : Sys2Proof.Machine.Slot) :
    part (askAgain a0 a1) p = part a0 p := by
  simp at h
  unfold askAgain
  repeat' split
  all_goals simp [h]

@[simp] theorem loseOutbound_part (p : StatePart) (h : p ∉ ([.banksCollations, .banksLastActive, .banksMerge, .banksPauses, .banksSealMap, .banksSeals, .banksValid, .fabricCounters, .fabricNextSlot, .fabricPlan, .fabricSlots, .powerDoms, .queuesSlipq, .regs, .remoteOutMsgs, .remoteOutStage, .remoteOverdue, .remoteTranslator, .streamsAborts, .streamsCtxs, .streamsTiles, .supAllocs, .supCmds, .supEventNow, .supEvents, .supInputs, .supNextEvent, .supSideOrder, .supW1cSet] : List StatePart)) (a0 : Sys2Proof.Machine.State) (a1 : Nat) (a2 : Nat) :
    part (loseOutbound a0 a1 a2) p = part a0 p := by
  simp at h
  unfold loseOutbound
  repeat' split
  all_goals simp [h]

/-! ### RemoteIn -/

@[simp] theorem stagedMod_part (p : StatePart) (h : p ∉ ([.remoteStaged] : List StatePart)) (a0 : Sys2Proof.Machine.State) (a1 : Nat) (a2 : Sys2Proof.Machine.Staged → Sys2Proof.Machine.Staged) :
    part (stagedMod a0 a1 a2) p = part a0 p := by
  simp at h
  unfold stagedMod
  repeat' split
  all_goals simp [h]

@[simp] theorem sendReply_part (p : StatePart) (h : p ∉ ([.out, .remoteCounters] : List StatePart)) (a0 : Sys2Proof.Machine.State) (a1 : Nat) (a2 : Sys2Proof.RemoteMsg) (a3 : Nat) (a4 : Nat) (a5 : Nat) (a6 : List Sys2Proof.Byte) :
    part (sendReply a0 a1 a2 a3 a4 a5 a6) p = part a0 p := by
  simp at h
  unfold sendReply
  dsimp only
  split
  · split
    · next hp => simp [h, sealMsg_part p (by simp [h]) _ _ _ _ _ _ hp]
    · simp [h]
  · simp [h]

@[simp] theorem refuseMsg_part (p : StatePart) (h : p ∉ ([.fabricCounters, .out, .remoteCounters] : List StatePart)) (a0 : Sys2Proof.Machine.State) (a1 : Nat) (a2 : Sys2Proof.RemoteMsg) (a3 : Nat) (a4 : Nat) :
    part (refuseMsg a0 a1 a2 a3 a4) p = part a0 p := by
  simp at h
  unfold refuseMsg
  repeat' split
  all_goals simp [h]

@[simp] theorem completeStaged_part (p : StatePart) (h : p ∉ ([.fabricCounters, .out, .queuesNextOp, .queuesOps, .queuesSlipq, .regs, .remoteCounters, .remoteStaged] : List StatePart)) (a0 : Sys2Proof.Machine.State) (a1 : Sys2Proof.Machine.Staged) :
    part (completeStaged a0 a1) p = part a0 p := by
  simp at h
  unfold completeStaged
  repeat' (first | (simp [h]; done) | split | (dsimp only; split))

@[simp] theorem stopLanding_part (p : StatePart) (h : p ∉ ([.banksLastActive, .banksMerge, .fabricCounters, .fabricPlan, .fabricSlots, .out, .queuesNextOp, .queuesOps, .queuesSlipq, .regs, .remoteCounters, .remoteStaged] : List StatePart)) (a0 : Sys2Proof.Machine.State) (a1 : Sys2Proof.Machine.Staged) :
    part (stopLanding a0 a1) p = part a0 p := by
  simp at h
  unfold stopLanding
  repeat' split
  all_goals simp [h]

@[simp] theorem closeRin_part (p : StatePart) (h : p ∉ ([.banksLastActive, .banksMerge, .fabricCounters, .fabricPlan, .fabricSlots, .out, .queuesNextOp, .queuesOps, .queuesSlipq, .regs, .remoteCounters, .remoteStaged] : List StatePart)) (a0 : Sys2Proof.Machine.State) (a1 : Nat) (a2 : Nat) :
    part (closeRin a0 a1 a2) p = part a0 p := by
  simp at h
  unfold closeRin
  repeat' split
  all_goals simp [h]

@[simp] theorem requestLanding_part (p : StatePart) (h : p ∉ ([.banksCollations, .banksLastActive, .banksMerge, .banksPauses, .banksValid, .fabricNextSlot, .fabricSlots, .powerDoms, .regs, .remoteTranslator] : List StatePart)) (a0 : Sys2Proof.Machine.State) (a1 : Sys2Proof.Machine.Staged) (a2 : Nat) (a3 : List Sys2Proof.Byte) (a4 : Nat) (a5 : Nat) :
    part (requestLanding a0 a1 a2 a3 a4 a5) p = part a0 p := by
  simp at h
  unfold requestLanding
  repeat' split
  all_goals simp [h]

@[simp] theorem requestAllOf_part (p : StatePart) (h : p ∉ ([.banksCollations, .banksLastActive, .banksMerge, .banksPauses, .banksValid, .fabricNextSlot, .fabricSlots, .powerDoms, .regs, .remoteStaged, .remoteTranslator] : List StatePart)) (a0 : Sys2Proof.Machine.State) (a1 : Sys2Proof.Machine.Staged) :
    part (requestAllOf a0 a1) p = part a0 p := by
  simp at h
  unfold requestAllOf
  repeat' split
  all_goals simp [h]

@[simp] theorem requestHeader_part (p : StatePart) (h : p ∉ ([.banksCollations, .banksLastActive, .banksMerge, .banksPauses, .banksValid, .fabricNextSlot, .fabricSlots, .powerDoms, .regs, .remoteStaged, .remoteTranslator] : List StatePart)) (a0 : Sys2Proof.Machine.State) (a1 : Sys2Proof.Machine.Staged) :
    part (requestHeader a0 a1) p = part a0 p := by
  simp at h
  unfold requestHeader
  repeat' split
  all_goals simp [h]

@[simp] theorem pumpWindow_part (p : StatePart) (h : p ∉ ([.banksCollations, .banksLastActive, .banksMerge, .banksPauses, .banksValid, .fabricNextSlot, .fabricSlots, .powerDoms, .regs, .remoteStaged, .remoteTranslator] : List StatePart)) (a0 : Sys2Proof.Machine.State) (a1 : Nat) (a2 : Nat) :
    part (pumpWindow a0 a1 a2) p = part a0 p := by
  simp at h
  unfold pumpWindow
  repeat' (first | (simp [h]; done) | split | (dsimp only; split))

@[simp] theorem settleStaged_part (p : StatePart) (h : p ∉ ([.banksCollations, .banksLastActive, .banksMerge, .banksPauses, .banksValid, .fabricCounters, .fabricNextSlot, .fabricSlots, .out, .powerDoms, .queuesNextOp, .queuesOps, .queuesSlipq, .regs, .remoteCounters, .remoteStaged, .remoteTranslator] : List StatePart)) (a0 : Sys2Proof.Machine.State) (a1 : Sys2Proof.Machine.Staged) :
    part (settleStaged a0 a1) p = part a0 p := by
  simp at h
  unfold settleStaged
  repeat' split
  all_goals simp [h]

@[simp] theorem landingDone_part (p : StatePart) (h : p ∉ ([.banksCollations, .banksLastActive, .banksMerge, .banksPauses, .banksValid, .fabricCounters, .fabricNextSlot, .fabricPlan, .fabricSlots, .out, .powerDoms, .queuesNextOp, .queuesOps, .queuesSlipq, .regs, .remoteCounters, .remoteStaged, .remoteTranslator] : List StatePart)) (a0 : Sys2Proof.Machine.State) (a1 : Sys2Proof.Machine.Slot) (a2 : Nat) :
    part (landingDone a0 a1 a2) p = part a0 p := by
  simp at h
  unfold landingDone
  repeat' (first | (simp [h]; done) | split | (dsimp only; split))

@[simp] theorem refuseStaged_part (p : StatePart) (h : p ∉ ([.banksLastActive, .banksMerge, .fabricCounters, .fabricPlan, .fabricSlots, .out, .queuesNextOp, .queuesOps, .queuesSlipq, .regs, .remoteCounters, .remoteStaged, .supCatCorrected, .supCatReported, .supEventNow, .supEvents, .supNextEvent] : List StatePart)) (a0 : Sys2Proof.Machine.State) (a1 : Sys2Proof.Machine.Staged) (a2 : Sys2Proof.Machine.Verdict) :
    part (refuseStaged a0 a1 a2) p = part a0 p := by
  simp at h
  unfold refuseStaged
  repeat' split
  all_goals simp [h]

@[simp] theorem placeRing_part (p : StatePart) (h : p ∉ ([.queuesSlipq, .remoteRingCount] : List StatePart)) (a0 : Sys2Proof.Machine.State) (a1 : Sys2Proof.Machine.Staged) (a2 : List Sys2Proof.Byte) (a3 : Nat) (a4 : Option Nat) :
    part (placeRing a0 a1 a2 a3 a4).1 p = part a0 p := by
  simp at h
  unfold placeRing
  repeat' split
  all_goals simp [h]

@[simp] theorem acceptStaged_part (p : StatePart) (h : p ∉ ([.banksCollations, .banksLastActive, .banksMerge, .banksPauses, .banksValid, .fabricNextSlot, .fabricSlots, .powerDoms, .queuesSlipq, .regs, .remoteRingCount, .remoteStaged, .remoteTranslator] : List StatePart)) (a0 : Sys2Proof.Machine.State) (a1 : Sys2Proof.Machine.Staged) (a2 : List Sys2Proof.Byte) :
    part (acceptStaged a0 a1 a2) p = part a0 p := by
  simp at h
  unfold acceptStaged
  repeat' (first | (simp [h]; done) | split | (dsimp only; split))

@[simp] theorem dropStaged_part (p : StatePart) (h : p ∉ ([.banksLastActive, .banksMerge, .fabricPlan, .fabricSlots, .queuesSlipq, .remoteStaged] : List StatePart)) (a0 : Sys2Proof.Machine.State) (a1 : Sys2Proof.Machine.Staged) :
    part (dropStaged a0 a1) p = part a0 p := by
  simp at h
  unfold dropStaged
  repeat' split
  all_goals simp [h]

@[simp] theorem loseInbound_part (p : StatePart) (h : p ∉ ([.banksLastActive, .banksMerge, .fabricPlan, .fabricSlots, .queuesSlipq, .remoteStaged] : List StatePart)) (a0 : Sys2Proof.Machine.State) (a1 : Nat) :
    part (loseInbound a0 a1) p = part a0 p := by
  simp at h
  unfold loseInbound
  repeat' (first | (simp [h]; done) | split | (intro _) | (refine (foldl_part p _ ?_ _ _).trans ?_; intro s a) | (dsimp only; split) | (simp [h]; split) | simp [h])

@[simp] theorem loseMessage_part (p : StatePart) (h : p ∉ ([.banksCollations, .banksLastActive, .banksMerge, .banksPauses, .banksValid, .fabricNextSlot, .fabricPlan, .fabricSlots, .powerDoms, .queuesSlipq, .regs, .remoteStaged, .remoteTranslator] : List StatePart)) (a0 : Sys2Proof.Machine.State) (a1 : Nat) :
    part (loseMessage a0 a1) p = part a0 p := by
  simp at h
  unfold loseMessage
  repeat' split
  all_goals simp [h]

@[simp] theorem rinRefuse_part (p : StatePart) (h : p ∉ ([.regs, .supEventNow, .supEvents, .supNextEvent] : List StatePart)) (a0 : Sys2Proof.Machine.State) (a1 : Nat) (a2 : Nat) (a3 : Sys2Proof.Machine.Reg) (a4 : Nat) :
    part (rinRefuse a0 a1 a2 a3 a4) p = part a0 p := by
  simp at h
  unfold rinRefuse
  repeat' split
  all_goals simp [h]

@[simp] theorem openRin_part (p : StatePart) (h : p ∉ ([.regs, .remoteRingCount, .replicasStrays, .replicasUnsafeRegs] : List StatePart)) (a0 : Sys2Proof.Machine.State) (a1 : Nat) (a2 : Nat) (a3 : Sys2Proof.Word) :
    part (openRin a0 a1 a2 a3) p = part a0 p := by
  simp at h
  unfold openRin
  repeat' split
  all_goals simp [h]

@[simp] theorem rinCfgWrite_part (p : StatePart) (h : p ∉ ([.banksLastActive, .banksMerge, .fabricCounters, .fabricPlan, .fabricSlots, .out, .queuesNextOp, .queuesOps, .queuesSlipq, .regs, .remoteCounters, .remoteRingCount, .remoteStaged, .replicasStrays, .replicasUnsafeRegs, .supCatCorrected, .supCatReported, .supEventNow, .supEvents, .supNextEvent] : List StatePart)) (a0 : Sys2Proof.Machine.State) (a1 : Nat) (a2 : Nat) (a3 : Nat) (a4 : Sys2Proof.Word) :
    part (rinCfgWrite a0 a1 a2 a3 a4) p = part a0 p := by
  simp at h
  unfold rinCfgWrite
  repeat' split
  all_goals simp [h]

@[simp] theorem rinFieldWrite_part (p : StatePart) (h : p ∉ ([.regs, .replicasStrays, .replicasUnsafeRegs, .supEventNow, .supEvents, .supNextEvent] : List StatePart)) (a0 : Sys2Proof.Machine.State) (a1 : Nat) (a2 : Nat) (a3 : Nat) (a4 : Sys2Proof.Machine.Reg) (a5 : Sys2Proof.Word) :
    part (rinFieldWrite a0 a1 a2 a3 a4 a5) p = part a0 p := by
  simp at h
  unfold rinFieldWrite
  repeat' split
  all_goals simp [h]

@[simp] theorem rinHeadWrite_part (p : StatePart) (h : p ∉ ([.regs, .supEventNow, .supEvents, .supNextEvent] : List StatePart)) (a0 : Sys2Proof.Machine.State) (a1 : Nat) (a2 : Nat) (a3 : Nat) (a4 : Sys2Proof.Word) :
    part (rinHeadWrite a0 a1 a2 a3 a4) p = part a0 p := by
  simp at h
  unfold rinHeadWrite
  repeat' split
  all_goals simp [h]

@[simp] theorem rwinRefuse_part (p : StatePart) (h : p ∉ ([.regs, .supEventNow, .supEvents, .supNextEvent] : List StatePart)) (a0 : Sys2Proof.Machine.State) (a1 : Nat) (a2 : Nat) (a3 : Sys2Proof.Machine.Reg) (a4 : Nat) :
    part (rwinRefuse a0 a1 a2 a3 a4) p = part a0 p := by
  simp at h
  unfold rwinRefuse
  repeat' split
  all_goals simp [h]

@[simp] theorem disableRwin_part (p : StatePart) (h : p ∉ ([.regs] : List StatePart)) (a0 : Sys2Proof.Machine.State) (a1 : Nat) (a2 : Nat) :
    part (disableRwin a0 a1 a2) p = part a0 p := by
  simp at h
  unfold disableRwin
  repeat' split
  all_goals simp [h]

@[simp] theorem rwinCfgWrite_part (p : StatePart) (h : p ∉ ([.regs, .replicasStrays, .replicasUnsafeRegs, .supEventNow, .supEvents, .supNextEvent] : List StatePart)) (a0 : Sys2Proof.Machine.State) (a1 : Nat) (a2 : Nat) (a3 : Nat) (a4 : Sys2Proof.Word) :
    part (rwinCfgWrite a0 a1 a2 a3 a4) p = part a0 p := by
  simp at h
  unfold rwinCfgWrite
  repeat' split
  all_goals simp [h]

@[simp] theorem rwinFieldWrite_part (p : StatePart) (h : p ∉ ([.regs, .replicasStrays, .replicasUnsafeRegs, .supEventNow, .supEvents, .supNextEvent] : List StatePart)) (a0 : Sys2Proof.Machine.State) (a1 : Nat) (a2 : Nat) (a3 : Nat) (a4 : Sys2Proof.Machine.Reg) (a5 : Sys2Proof.Word) :
    part (rwinFieldWrite a0 a1 a2 a3 a4 a5) p = part a0 p := by
  simp at h
  unfold rwinFieldWrite
  repeat' split
  all_goals simp [h]

@[simp] theorem rwinWrite_part (p : StatePart) (h : p ∉ ([.regs, .replicasStrays, .replicasUnsafeRegs, .supEventNow, .supEvents, .supNextEvent] : List StatePart)) (a0 : Sys2Proof.Machine.State) (a1 : Nat) (a2 : Nat) (a3 : Nat) (a4 : Sys2Proof.RwinReg) (a5 : Sys2Proof.Word) :
    part (rwinWrite a0 a1 a2 a3 a4 a5) p = part a0 p := by
  simp at h
  unfold rwinWrite
  repeat' split
  all_goals simp [h]

/-! ### Delivery -/

@[simp] theorem indexDone_part (p : StatePart) (h : p ∉ ([.banksCollations, .banksLastActive, .banksMerge, .banksPauses, .banksSealMap, .banksSeals, .banksValid, .fabricNextSlot, .fabricPlan, .fabricSlots, .powerDoms, .queuesSlipq, .regs, .remoteOutMsgs, .remoteOutStage, .remoteTranslator, .streamsAborts, .streamsCtxs, .streamsTiles, .supAllocs, .supCmds, .supEventNow, .supEvents, .supInputs, .supNextEvent, .supSideOrder, .supW1cSet] : List StatePart)) (a0 : Sys2Proof.Machine.State) (a1 : Sys2Proof.Machine.Slot) (a2 : Sys2Proof.CtxId) :
    part (indexDone a0 a1 a2) p = part a0 p := by
  simp at h
  unfold indexDone
  repeat' split
  all_goals simp [h]

@[simp] theorem tileIn_part (p : StatePart) (h : p ∉ ([.streamsTiles] : List StatePart)) (a0 : Sys2Proof.Machine.State) (a1 : Sys2Proof.Machine.Slot) (a2 : Nat) (a3 : Nat) :
    part (tileIn a0 a1 a2 a3) p = part a0 p := by
  simp at h
  unfold tileIn
  repeat' split
  all_goals simp [h]

@[simp] theorem tileOut_part (p : StatePart) (h : p ∉ ([.streamsTiles] : List StatePart)) (a0 : Sys2Proof.Machine.State) (a1 : Sys2Proof.Machine.Slot) (a2 : Nat) :
    part (tileOut a0 a1 a2) p = part a0 p := by
  simp at h
  unfold tileOut
  repeat' split
  all_goals simp [h]

@[simp] theorem streamDone_part (p : StatePart) (h : p ∉ ([.banksCollations, .banksLastActive, .banksMerge, .banksPauses, .banksSealMap, .banksSeals, .banksValid, .fabricNextSlot, .fabricPlan, .fabricSlots, .powerDoms, .queuesSlipq, .regs, .remoteOutMsgs, .remoteOutStage, .remoteOverdue, .remoteTranslator, .streamsAborts, .streamsCtxs, .streamsTiles, .supAllocs, .supCmds, .supEventNow, .supEvents, .supInputs, .supNextEvent, .supSideOrder, .supW1cSet] : List StatePart)) (a0 : Sys2Proof.Machine.State) (a1 : Sys2Proof.Machine.Slot) (a2 : Sys2Proof.CtxId) :
    part (streamDone a0 a1 a2) p = part a0 p := by
  simp at h
  unfold streamDone
  repeat' split
  all_goals simp [h]

@[simp] theorem slotOver_part (p : StatePart) (h : p ∉ ([.banksCacheLru, .banksCacheWays, .banksCollations, .banksLastActive, .banksMem, .banksMerge, .banksPauses, .banksSealMap, .banksSeals, .banksValid, .fabricCounters, .fabricNextSlot, .fabricPlan, .fabricSlots, .out, .powerDoms, .queuesNextOp, .queuesOps, .queuesSlipq, .regs, .remoteCounters, .remoteOutMsgs, .remoteOutStage, .remoteOverdue, .remoteStaged, .remoteTranslator, .streamsAborts, .streamsCtxs, .streamsTiles, .supAllocs, .supCmds, .supEventNow, .supEvents, .supInputs, .supNextEvent, .supSideOrder, .supW1cSet] : List StatePart)) (a0 : Sys2Proof.Machine.State) (a1 : Sys2Proof.Machine.Slot) :
    part (slotOver a0 a1) p = part a0 p := by
  simp at h
  unfold slotOver
  repeat' split
  all_goals simp [h]

@[simp] theorem toStore_part (p : StatePart) (h : p ∉ ([.fabricSlots, .out] : List StatePart)) (a0 : Sys2Proof.Machine.State) (a1 : Sys2Proof.Machine.Slot) :
    part (toStore a0 a1) p = part a0 p := by
  simp at h
  unfold toStore
  repeat' split
  all_goals simp [h]

/-! ### FabricCmds -/

@[simp] theorem usedEdge_part (p : StatePart) (h : p ∉ ([.fabricUsedNext, .regs] : List StatePart)) (a0 : Sys2Proof.Machine.State) :
    part (usedEdge a0) p = part a0 p := by
  simp at h
  unfold usedEdge
  repeat' split
  all_goals simp [h]

@[simp] theorem guestsEdge_part (p : StatePart) (h : p ∉ ([.fabricGuestCount, .fabricGuestNext, .fabricGuestPending, .fabricGuests] : List StatePart)) (a0 : Sys2Proof.Machine.State) :
    part (guestsEdge a0) p = part a0 p := by
  simp at h
  unfold guestsEdge
  repeat' split
  all_goals simp [h]

@[simp] theorem tenuresEdge_part (p : StatePart) (h : p ∉ ([.fabricTenures] : List StatePart)) (a0 : Sys2Proof.Machine.State) :
    part (tenuresEdge a0) p = part a0 p := by
  simp at h
  unfold tenuresEdge
  repeat' split
  all_goals simp [h]

@[simp] theorem windowEdge_part (p : StatePart) (h : p ∉ ([.fabricBudgets, .fabricCounters, .fabricGuestCount, .fabricGuestNext, .fabricGuestPending, .fabricGuests, .fabricTenures, .fabricUsedNext, .fabricWindow, .queuesCopies, .regs, .replicasBallots, .replicasStrays, .replicasUnsafeRegs] : List StatePart)) (a0 : Sys2Proof.Machine.State) :
    part (windowEdge a0) p = part a0 p := by
  simp at h
  unfold windowEdge
  repeat' split
  all_goals simp [h]

@[simp] theorem segCtlWrite_part (p : StatePart) (h : p ∉ ([.regs] : List StatePart)) (a0 : Sys2Proof.Machine.State) (a1 : Nat) (a2 : Nat) (a3 : Nat) (a4 : Sys2Proof.Word) :
    part (segCtlWrite a0 a1 a2 a3 a4) p = part a0 p := by
  simp at h
  unfold segCtlWrite
  repeat' split
  all_goals simp [h]

@[simp] theorem loseSlot_part (p : StatePart) (h : p ∉ ([.banksLastActive, .banksMerge, .banksSealMap, .banksSeals, .fabricAccs, .fabricBooked, .fabricHolds, .fabricPlan, .fabricSlots, .queuesSlipq, .regs, .streamsAborts, .streamsCtxs, .streamsTiles, .supAllocs, .supCmds, .supEventNow, .supEvents, .supInputs, .supNextEvent, .supSideOrder, .supW1cSet] : List StatePart)) (a0 : Sys2Proof.Machine.State) (a1 : Sys2Proof.Machine.Slot) :
    part (loseSlot a0 a1) p = part a0 p := by
  simp at h
  unfold loseSlot
  repeat' split
  all_goals simp [h]

@[simp] theorem fenceHolder_part (p : StatePart) (h : p ∉ ([.banksLastActive, .banksMerge, .banksSealMap, .banksSeals, .fabricAccs, .fabricBooked, .fabricCounters, .fabricHolds, .fabricPlan, .fabricSlots, .fabricTenures, .fabricWdogFenced, .queuesSlipq, .regs, .streamsAborts, .streamsCtxs, .streamsTiles, .supAllocs, .supCmds, .supEventNow, .supEvents, .supInputs, .supNextEvent, .supSideOrder, .supW1cSet] : List StatePart)) (a0 : Sys2Proof.Machine.State) (a1 : Nat) (a2 : Nat) (a3 : Nat) (a4 : Sys2Proof.Machine.Tenure) :
    part (fenceHolder a0 a1 a2 a3 a4) p = part a0 p := by
  simp at h
  unfold fenceHolder
  repeat' split
  all_goals simp [h]

@[simp] theorem popSquall_part (p : StatePart) (h : p ∉ ([.fabricSquallNow, .fabricSqualls, .regs] : List StatePart)) (a0 : Sys2Proof.Machine.State) (a1 : Nat) :
    part (popSquall a0 a1) p = part a0 p := by
  simp at h
  unfold popSquall
  repeat' (first | (simp [h]; done) | split | (dsimp only; split))

@[simp] theorem squallCtlWrite_part (p : StatePart) (h : p ∉ ([.fabricSquallNow, .fabricSqualls, .regs] : List StatePart)) (a0 : Sys2Proof.Machine.State) (a1 : Nat) (a2 : Nat) (a3 : Sys2Proof.Word) :
    part (squallCtlWrite a0 a1 a2 a3) p = part a0 p := by
  simp at h
  unfold squallCtlWrite
  repeat' split
  all_goals simp [h]

@[simp] theorem perfCtlWrite_part (p : StatePart) (h : p ∉ ([.fabricClearWanted, .fabricSnapWanted, .regs] : List StatePart)) (a0 : Sys2Proof.Machine.State) (a1 : Nat) (a2 : Nat) (a3 : Sys2Proof.Word) :
    part (perfCtlWrite a0 a1 a2 a3) p = part a0 p := by
  simp at h
  unfold perfCtlWrite
  repeat' split
  all_goals simp [h]

/-! ### MarchBase -/

@[simp] theorem marchCount_part (p : StatePart) (h : p ∉ ([.regs] : List StatePart)) (a0 : Sys2Proof.Machine.State) (a1 : Nat) (a2 : Nat) (a3 : Nat) (a4 : Nat) :
    part (marchCount a0 a1 a2 a3 a4) p = part a0 p := by
  simp at h
  unfold marchCount
  repeat' split
  all_goals simp [h]

@[simp] theorem endMarch_part (p : StatePart) (h : p ∉ ([.powerMarchDoms, .powerMarches, .regs, .supAllocs, .supCmds, .supEventNow, .supEvents, .supInputs, .supNextEvent, .supSideOrder, .supW1cSet] : List StatePart)) (a0 : Sys2Proof.Machine.State) (a1 : Nat) (a2 : Nat) (a3 : Nat) :
    part (endMarch a0 a1 a2 a3) p = part a0 p := by
  simp at h
  unfold endMarch
  repeat' split
  all_goals simp [h]

@[simp] theorem bankMarched_part (p : StatePart) (h : p ∉ ([.powerMarchDoms, .powerMarches, .regs, .supAllocs, .supCmds, .supEventNow, .supEvents, .supInputs, .supNextEvent, .supSideOrder, .supW1cSet] : List StatePart)) (a0 : Sys2Proof.Machine.State) (a1 : Nat) :
    part (bankMarched a0 a1) p = part a0 p := by
  simp at h
  unfold bankMarched
  repeat' split
  all_goals simp [h]

@[simp] theorem leaveMarch_part (p : StatePart) (h : p ∉ ([.powerMarchDoms, .powerMarches, .regs, .supAllocs, .supCmds, .supEventNow, .supEvents, .supInputs, .supNextEvent, .supSideOrder, .supW1cSet] : List StatePart)) (a0 : Sys2Proof.Machine.State) (a1 : Nat) (a2 : Bool) :
    part (leaveMarch a0 a1 a2) p = part a0 p := by
  simp at h
  unfold leaveMarch
  repeat' split
  all_goals simp [h]

@[simp] theorem abortMarch_part (p : StatePart) (h : p ∉ ([.banksLastActive, .banksPauses, .powerMarchDoms, .powerMarches, .regs, .supAllocs, .supCmds, .supEventNow, .supEvents, .supInputs, .supNextEvent, .supSideOrder, .supW1cSet] : List StatePart)) (a0 : Sys2Proof.Machine.State) (a1 : Nat) (a2 : Nat) :
    part (abortMarch a0 a1 a2) p = part a0 p := by
  simp at h
  unfold abortMarch
  repeat' (first | (simp [h]; done) | split | (intro _) | (refine (foldl_part p _ ?_ _ _).trans ?_; intro s a) | (dsimp only; split) | (simp [h]; split) | simp [h])

/-! ### Weeding -/

@[simp] theorem startWeed_part (p : StatePart) (h : p ∉ ([.banksLastActive, .banksPauses, .banksValid, .banksZeroing, .powerDoms, .powerMarchDoms, .powerMarches, .regs, .supAllocs, .supCmds, .supEventNow, .supEvents, .supInputs, .supNextEvent, .supSideOrder, .supW1cSet] : List StatePart)) (a0 : Sys2Proof.Machine.State) (a1 : Nat) (a2 : Sys2Proof.Word) (a3 : Sys2Proof.Machine.WeedCause) :
    part (startWeed a0 a1 a2 a3) p = part a0 p := by
  simp at h
  unfold startWeed
  repeat' split
  all_goals simp [h]

@[simp] theorem freeEntriesOf_part (p : StatePart) (h : p ∉ ([.fabricSlots, .regs, .remoteTranslator, .supCatFreed, .supCatReported, .supCatUpsets, .supEventNow, .supEvents, .supNextEvent] : List StatePart)) (a0 : Sys2Proof.Machine.State) (a1 : Nat) (a2 : Nat) (a3 : Nat → Bool) :
    part (freeEntriesOf a0 a1 a2 a3) p = part a0 p := by
  simp at h
  unfold freeEntriesOf
  repeat' split
  all_goals simp [h]

@[simp] theorem emptyBank_part (p : StatePart) (h : p ∉ ([.banksCacheLru, .banksCacheWays, .banksClassMap, .banksCollations, .banksLastActive, .banksLost, .banksMerge, .banksSealMap, .banksSeals, .banksValid, .fabricPlan, .fabricSlots, .queuesComb, .queuesResults, .queuesSlipq, .regs, .remoteOutMsgs, .remoteOutStage, .remoteTranslator, .streamsAborts, .streamsCtxs, .streamsTiles, .supAllocs, .supCatFreed, .supCatReported, .supCatUpsets, .supCmds, .supEventNow, .supEvents, .supInputs, .supNextEvent, .supSideOrder, .supW1cSet] : List StatePart)) (a0 : Sys2Proof.Machine.State) (a1 : Nat) (a2 : Nat) (a3 : Option Sys2Proof.Machine.LostOp) :
    part (emptyBank a0 a1 a2 a3) p = part a0 p := by
  simp at h
  unfold emptyBank
  repeat' split
  all_goals simp [h]

@[simp] theorem addRecord_part (p : StatePart) (h : p ∉ ([.draws, .powerRecord, .regs, .supEventNow, .supEvents, .supNextEvent] : List StatePart)) (a0 : Sys2Proof.Machine.State) (a1 : Nat) (a2 : Sys2Proof.Machine.RepairEntry) :
    part (addRecord a0 a1 a2) p = part a0 p := by
  simp at h
  unfold addRecord
  repeat' split
  all_goals simp [h]

@[simp] theorem retireBank_part (p : StatePart) (h : p ∉ ([.banksZeroing, .regs, .supEventNow, .supEvents, .supNextEvent] : List StatePart)) (a0 : Sys2Proof.Machine.State) (a1 : Nat) (a2 : Nat) :
    part (retireBank a0 a1 a2) p = part a0 p := by
  simp at h
  unfold retireBank
  repeat' split
  all_goals simp [h]

@[simp] theorem lostEnds_part (p : StatePart) (h : p ∉ ([.banksLost, .regs, .supEventNow, .supEvents, .supNextEvent] : List StatePart)) (a0 : Sys2Proof.Machine.State) (a1 : Option Sys2Proof.Machine.LostOp) :
    part (lostEnds a0 a1) p = part a0 p := by
  simp at h
  unfold lostEnds
  repeat' split
  all_goals simp [h]

@[simp] theorem endPhase1_part (p : StatePart) (h : p ∉ ([.banksCacheLru, .banksCacheWays, .banksClassMap, .banksCollations, .banksLastActive, .banksLost, .banksMerge, .banksPauses, .banksSealMap, .banksSeals, .banksTags, .banksValid, .banksZeroing, .draws, .fabricPlan, .fabricSlots, .powerRecord, .queuesComb, .queuesResults, .queuesSlipq, .regs, .remoteOutMsgs, .remoteOutStage, .remoteTranslator, .replicasStrays, .replicasUnsafeRegs, .streamsAborts, .streamsCtxs, .streamsTiles, .supAllocs, .supCatFreed, .supCatReported, .supCatUpsets, .supCmds, .supEventNow, .supEvents, .supInputs, .supNextEvent, .supSideOrder, .supW1cSet] : List StatePart)) (a0 : Sys2Proof.Machine.State) (a1 : Nat) (a2 : Sys2Proof.Word) (a3 : Sys2Proof.Machine.WeedCause) :
    part (endPhase1 a0 a1 a2 a3) p = part a0 p := by
  simp at h
  unfold endPhase1
  repeat' split
  all_goals simp [h]

@[simp] theorem endWeedCmds_part (p : StatePart) (h : p ∉ ([.regs, .supAllocs, .supCmds, .supEventNow, .supEvents, .supInputs, .supNextEvent, .supSideOrder, .supW1cSet] : List StatePart)) (a0 : Sys2Proof.Machine.State) (a1 : Nat) :
    part (endWeedCmds a0 a1) p = part a0 p := by
  simp at h
  unfold endWeedCmds
  repeat' split
  all_goals simp [h]

@[simp] theorem startHandover_part (p : StatePart) (h : p ∉ ([.banksMerge, .banksPauses] : List StatePart)) (a0 : Sys2Proof.Machine.State) (a1 : Nat) (a2 : Sys2Proof.Word) :
    part (startHandover a0 a1 a2) p = part a0 p := by
  simp at h
  unfold startHandover
  repeat' split
  all_goals simp [h]

@[simp] theorem bankOwnWrite_part (p : StatePart) (h : p ∉ ([.banksLastActive, .banksMerge, .banksPauses, .banksSealMap, .banksSeals, .banksTags, .banksValid, .banksZeroing, .fabricPlan, .fabricSlots, .powerDoms, .powerMarchDoms, .powerMarches, .queuesComb, .queuesResults, .queuesSlipq, .regs, .remoteOutMsgs, .remoteOutStage, .replicasStrays, .replicasUnsafeRegs, .streamsAborts, .streamsCtxs, .streamsTiles, .supAllocs, .supCmds, .supEventNow, .supEvents, .supInputs, .supNextEvent, .supSideOrder, .supW1cSet] : List StatePart)) (a0 : Sys2Proof.Machine.State) (a1 : Nat) (a2 : Nat) (a3 : Sys2Proof.Word) :
    part (bankOwnWrite a0 a1 a2 a3) p = part a0 p := by
  simp at h
  unfold bankOwnWrite
  repeat' split
  all_goals simp [h]

@[simp] theorem zeroRow_part (p : StatePart) (h : p ∉ ([.banksMem] : List StatePart)) (a0 : Sys2Proof.Machine.State) (a1 : Nat) (a2 : Nat) :
    part (zeroRow a0 a1 a2) p = part a0 p := by
  simp at h
  unfold zeroRow
  repeat' split
  all_goals simp [h]

@[simp] theorem zeroLine_part (p : StatePart) (h : p ∉ ([.banksMem] : List StatePart)) (a0 : Sys2Proof.Machine.State) (a1 : Nat) (a2 : Nat) :
    part (zeroLine a0 a1 a2) p = part a0 p := by
  simp at h
  unfold zeroLine
  repeat' split
  all_goals simp [h]

@[simp] theorem weedDie_part (p : StatePart) (h : p ∉ ([.banksLastActive, .banksPauses, .banksValid, .banksZeroing, .powerDoms, .powerMarchDoms, .powerMarches, .regs, .supAllocs, .supCmds, .supEventNow, .supEvents, .supInputs, .supNextEvent, .supSideOrder, .supW1cSet] : List StatePart)) (a0 : Sys2Proof.Machine.State) (a1 : Nat) :
    part (weedDie a0 a1) p = part a0 p := by
  simp at h
  unfold weedDie
  repeat' split
  all_goals simp [h]

/-! ### Banks -/

@[simp] theorem mergeCtlWrite_part (p : StatePart) (h : p ∉ ([.banksMerge, .regs] : List StatePart)) (a0 : Sys2Proof.Machine.State) (a1 : Nat) (a2 : Nat) (a3 : Nat) (a4 : Sys2Proof.Word) :
    part (mergeCtlWrite a0 a1 a2 a3 a4) p = part a0 p := by
  simp at h
  unfold mergeCtlWrite
  repeat' split
  all_goals simp [h]

@[simp] theorem writeParity_part (p : StatePart) (h : p ∉ ([.banksMem, .banksValid] : List StatePart)) (a0 : Sys2Proof.Machine.State) (a1 : Nat) (a2 : Nat) :
    part (writeParity a0 a1 a2) p = part a0 p := by
  simp at h
  unfold writeParity
  repeat' split
  all_goals simp [h]

@[simp] theorem bankRemapWrite_part (p : StatePart) (h : p ∉ ([.banksCollations, .banksRemapCopies, .fabricSlots, .regs, .replicasStrays, .replicasUnsafeRegs, .supEventNow, .supEvents, .supNextEvent] : List StatePart)) (a0 : Sys2Proof.Machine.State) (a1 : Nat) (a2 : Nat) (a3 : Nat) (a4 : Sys2Proof.Word) :
    part (bankRemapWrite a0 a1 a2 a3 a4) p = part a0 p := by
  simp at h
  unfold bankRemapWrite
  repeat' split
  all_goals simp [h]

@[simp] theorem rawLast_part (p : StatePart) (h : p ∉ ([.regs] : List StatePart)) (a0 : Sys2Proof.Machine.State) (a1 : Nat) (a2 : Nat) :
    part (rawLast a0 a1 a2) p = part a0 p := by
  simp at h
  unfold rawLast
  repeat' split
  all_goals simp [h]

@[simp] theorem rawLoad_part (p : StatePart) (h : p ∉ ([.regs] : List StatePart)) (a0 : Sys2Proof.Machine.State) (a1 : Nat) (a2 : List Sys2Proof.Byte) :
    part (rawLoad a0 a1 a2) p = part a0 p := by
  simp at h
  unfold rawLoad
  repeat' split
  all_goals simp [h]

@[simp] theorem rawCmdWrite_part (p : StatePart) (h : p ∉ ([.banksRawOps, .regs] : List StatePart)) (a0 : Sys2Proof.Machine.State) (a1 : Nat) (a2 : Nat) (a3 : Sys2Proof.Machine.RawOp) :
    part (rawCmdWrite a0 a1 a2 a3) p = part a0 p := by
  simp at h
  unfold rawCmdWrite
  repeat' split
  all_goals simp [h]

@[simp] theorem rawDo_part (p : StatePart) (h : p ∉ ([.banksCollations, .banksMem, .banksSealMap, .banksValid, .fabricSlots, .regs] : List StatePart)) (a0 : Sys2Proof.Machine.State) (a1 : Nat) (a2 : Sys2Proof.Machine.RawReq) :
    part (rawDo a0 a1 a2) p = part a0 p := by
  simp at h
  unfold rawDo
  repeat' split
  all_goals simp [h]

/-! ### Image -/

@[simp] theorem flashSet_part (p : StatePart) (h : p ∉ ([.flash] : List StatePart)) (a0 : Sys2Proof.Machine.State) (a1 : Nat) (a2 : Sys2Proof.Machine.Flash) :
    part (flashSet a0 a1 a2) p = part a0 p := by
  simp at h
  unfold flashSet
  repeat' split
  all_goals simp [h]

/-! ### March -/

@[simp] theorem startMarch_part (p : StatePart) (h : p ∉ ([.banksLastActive, .banksPauses, .banksValid, .powerDoms, .powerMarchDoms, .powerMarches, .regs, .supAllocs, .supCmds, .supEventNow, .supEvents, .supInputs, .supNextEvent, .supSideOrder, .supW1cSet] : List StatePart)) (a0 : Sys2Proof.Machine.State) (a1 : Nat) (a2 : Nat) (a3 : Bool) (a4 : Option Sys2Proof.CmdSrc) :
    part (startMarch a0 a1 a2 a3 a4) p = part a0 p := by
  simp at h
  unfold startMarch
  repeat' split
  all_goals simp [h]

@[simp] theorem marchWrite_part (p : StatePart) (h : p ∉ ([.banksMem] : List StatePart)) (a0 : Sys2Proof.Machine.State) (a1 : Nat) (a2 : Nat) (a3 : Nat) :
    part (marchWrite a0 a1 a2 a3) p = part a0 p := by
  simp at h
  unfold marchWrite
  repeat' split
  all_goals simp [h]

@[simp] theorem countFail_part (p : StatePart) (h : p ∉ ([.regs] : List StatePart)) (a0 : Sys2Proof.Machine.State) (a1 : Nat) :
    part (countFail a0 a1) p = part a0 p := by
  simp at h
  unfold countFail
  repeat' split
  all_goals simp [h]

@[simp] theorem markSpare_part (p : StatePart) (h : p ∉ ([.draws, .powerRecord, .regs, .supEventNow, .supEvents, .supNextEvent] : List StatePart)) (a0 : Sys2Proof.Machine.State) (a1 : Nat) (a2 : Nat) :
    part (markSpare a0 a1 a2) p = part a0 p := by
  simp at h
  unfold markSpare
  repeat' split
  all_goals simp [h]

@[simp] theorem enableRemap_part (p : StatePart) (h : p ∉ ([.banksCollations, .banksMem, .draws, .fabricSlots, .powerRecord, .regs, .replicasStrays, .replicasUnsafeRegs, .supEventNow, .supEvents, .supNextEvent] : List StatePart)) (a0 : Sys2Proof.Machine.State) (a1 : Nat) (a2 : Nat) (a3 : Nat) :
    part (enableRemap a0 a1 a2 a3) p = part a0 p := by
  simp at h
  unfold enableRemap
  repeat' split
  all_goals simp [h]

@[simp] theorem marchRetires_part (p : StatePart) (h : p ∉ ([.banksLastActive, .banksPauses, .banksValid, .banksZeroing, .powerDoms, .powerMarchDoms, .powerMarches, .regs, .supAllocs, .supCmds, .supEventNow, .supEvents, .supInputs, .supNextEvent, .supSideOrder, .supW1cSet] : List StatePart)) (a0 : Sys2Proof.Machine.State) (a1 : Nat) (a2 : Nat) (a3 : Nat) :
    part (marchRetires a0 a1 a2 a3) p = part a0 p := by
  simp at h
  unfold marchRetires
  repeat' split
  all_goals simp [h]

@[simp] theorem rowFails_part (p : StatePart) (h : p ∉ ([.banksCollations, .banksLastActive, .banksMem, .banksPauses, .banksValid, .banksZeroing, .draws, .fabricSlots, .powerDoms, .powerMarchDoms, .powerMarches, .powerRecord, .regs, .replicasStrays, .replicasUnsafeRegs, .supAllocs, .supCmds, .supEventNow, .supEvents, .supInputs, .supNextEvent, .supSideOrder, .supW1cSet] : List StatePart)) (a0 : Sys2Proof.Machine.State) (a1 : Nat) (a2 : Nat) (a3 : Nat) (a4 : Nat) :
    part (rowFails a0 a1 a2 a3 a4) p = part a0 p := by
  simp at h
  unfold rowFails
  repeat' split
  all_goals simp [h]

@[simp] theorem marchPut_part (p : StatePart) (h : p ∉ ([.powerMarches] : List StatePart)) (a0 : Sys2Proof.Machine.State) (a1 : Nat) (a2 : Sys2Proof.Machine.MarchRun) (a3 : Nat) (a4 : Sys2Proof.Machine.MarchBank) :
    part (marchPut a0 a1 a2 a3 a4) p = part a0 p := by
  simp at h
  unfold marchPut
  repeat' split
  all_goals simp [h]

@[simp] theorem bankDone_part (p : StatePart) (h : p ∉ ([.banksCollations, .banksLastActive, .banksMerge, .banksPauses, .banksValid, .fabricSlots, .powerDoms, .powerMarchDoms, .powerMarches, .regs, .supAllocs, .supCmds, .supEventNow, .supEvents, .supInputs, .supNextEvent, .supSideOrder, .supW1cSet] : List StatePart)) (a0 : Sys2Proof.Machine.State) (a1 : Nat) (a2 : Bool) :
    part (bankDone a0 a1 a2) p = part a0 p := by
  simp at h
  unfold bankDone
  repeat' split
  all_goals simp [h]

@[simp] theorem destructiveOp_part (p : StatePart) (h : p ∉ ([.banksCollations, .banksLastActive, .banksMem, .banksMerge, .banksPauses, .banksSeals, .banksValid, .banksZeroing, .draws, .fabricAccs, .fabricBooked, .fabricCounters, .fabricHolds, .fabricSlots, .now, .powerDoms, .powerMarchDoms, .powerMarches, .powerRecord, .regs, .remoteOutMsgs, .replicasBaroCorr, .replicasStrays, .replicasUnsafeRegs, .streamsCtxs, .streamsTokens, .supAllocs, .supCmds, .supEventNow, .supEvents, .supInputs, .supNextEvent, .supSideOrder, .supW1cSet] : List StatePart)) (a0 : Sys2Proof.Machine.State) (a1 : Nat) (a2 : Sys2Proof.Machine.MarchRun) (a3 : Nat) (a4 : Sys2Proof.Machine.MarchBank) (a5 : Bool) :
    part (destructiveOp a0 a1 a2 a3 a4 a5) p = part a0 p := by
  simp at h
  unfold destructiveOp
  repeat' (first | (simp [h]; done) | split | (dsimp only; split))

@[simp] theorem preservingGroup_part (p : StatePart) (h : p ∉ ([.banksCollations, .banksLastActive, .banksMem, .banksMerge, .banksPauses, .banksSeals, .banksValid, .banksZeroing, .draws, .fabricAccs, .fabricBooked, .fabricCounters, .fabricHolds, .fabricSlots, .now, .powerDoms, .powerMarchDoms, .powerMarches, .powerRecord, .regs, .remoteOutMsgs, .replicasBaroCorr, .replicasStrays, .replicasUnsafeRegs, .streamsCtxs, .streamsTokens, .supAllocs, .supCmds, .supEventNow, .supEvents, .supInputs, .supNextEvent, .supSideOrder, .supW1cSet] : List StatePart)) (a0 : Sys2Proof.Machine.State) (a1 : Nat) (a2 : Sys2Proof.Machine.MarchRun) (a3 : Nat) (a4 : Nat) (a5 : Sys2Proof.Machine.MarchBank) (a6 : Bool) :
    part (preservingGroup a0 a1 a2 a3 a4 a5 a6) p = part a0 p := by
  simp at h
  unfold preservingGroup
  repeat' split
  all_goals simp [h]

@[simp] theorem preservingOp_part (p : StatePart) (h : p ∉ ([.banksCollations, .banksLastActive, .banksMem, .banksMerge, .banksPauses, .banksSeals, .banksValid, .banksZeroing, .draws, .fabricAccs, .fabricBooked, .fabricCounters, .fabricHolds, .fabricSlots, .now, .powerDoms, .powerMarchDoms, .powerMarches, .powerRecord, .regs, .remoteOutMsgs, .replicasBaroCorr, .replicasStrays, .replicasUnsafeRegs, .streamsCtxs, .streamsTokens, .supAllocs, .supCmds, .supEventNow, .supEvents, .supInputs, .supNextEvent, .supSideOrder, .supW1cSet] : List StatePart)) (a0 : Sys2Proof.Machine.State) (a1 : Nat) (a2 : Sys2Proof.Machine.MarchRun) (a3 : Nat) (a4 : Sys2Proof.Machine.MarchBank) (a5 : Bool) :
    part (preservingOp a0 a1 a2 a3 a4 a5) p = part a0 p := by
  simp at h
  unfold preservingOp
  repeat' split
  all_goals simp [h]

@[simp] theorem setEnabled_part (p : StatePart) (h : p ∉ ([.regs] : List StatePart)) (a0 : Sys2Proof.Machine.State) (a1 : Nat) (a2 : Nat) :
    part (setEnabled a0 a1 a2) p = part a0 p := by
  simp at h
  unfold setEnabled
  repeat' split
  all_goals simp [h]

@[simp] theorem fenceCore_part (p : StatePart) (h : p ∉ ([.banksCacheLru, .banksCacheWays, .banksLastActive, .banksMerge, .banksPauses, .banksValid, .banksZeroing, .draws, .fabricPlan, .fabricSlots, .powerDoms, .powerMarchDoms, .powerMarches, .powerRecord, .regs, .replicasStrays, .replicasUnsafeRegs, .supAllocs, .supCmds, .supEventNow, .supEvents, .supInputs, .supNextEvent, .supSideOrder, .supW1cSet] : List StatePart)) (a0 : Sys2Proof.Machine.State) (a1 : Nat) (a2 : Nat) :
    part (fenceCore a0 a1 a2) p = part a0 p := by
  simp at h
  unfold fenceCore
  repeat' split
  all_goals simp [h]

/-! ### Tap -/

@[simp] theorem setWrapper_part (p : StatePart) (h : p ∉ ([.replicasWrappers] : List StatePart)) (a0 : Sys2Proof.Machine.State) (a1 : Nat) (a2 : Nat) (a3 : Sys2Proof.Machine.WirMode) :
    part (setWrapper a0 a1 a2 a3) p = part a0 p := by
  simp at h
  unfold setWrapper
  repeat' split
  all_goals simp [h]

end Sys2Proof.Laws
end

