-- ==== Sys2Proof/Laws/PartsDie.lean ====
section
/-! SUPPORT. What the power, replica, security, start-up, supervisor and register-write operations leave alone. -/

namespace Sys2Proof.Laws

open Sys2Proof Sys2Proof.Machine

/-! ### Power -/

@[simp] theorem loseTransfer_part (p : StatePart) (h : p ∉ ([.banksCacheLru, .banksCacheWays, .banksCollations, .banksLastActive, .banksMem, .banksMerge, .banksPauses, .banksSealMap, .banksSeals, .banksValid, .fabricAccs, .fabricBooked, .fabricCounters, .fabricHolds, .fabricNextSlot, .fabricPlan, .fabricSlots, .out, .powerDoms, .queuesNextOp, .queuesOps, .queuesSlipq, .regs, .remoteCounters, .remoteOutMsgs, .remoteOutStage, .remoteOverdue, .remoteStaged, .remoteTranslator, .streamsAborts, .streamsCtxs, .streamsTiles, .supAllocs, .supCmds, .supEventNow, .supEvents, .supInputs, .supNextEvent, .supSideOrder, .supW1cSet] : List StatePart)) (a0 : Sys2Proof.Machine.State) (a1 : Sys2Proof.Machine.Slot) :
    part (loseTransfer a0 a1) p = part a0 p := by
  simp at h
  unfold loseTransfer
  repeat' split
  all_goals simp [h]

@[simp] theorem resetDomainRegs_part (p : StatePart) (h : p ∉ ([.regs, .replicasUnsafeRegs] : List StatePart)) (a0 : Sys2Proof.Machine.State) (a1 : Nat) (a2 : Nat) :
    part (resetDomainRegs a0 a1 a2) p = part a0 p := by
  simp at h
  unfold resetDomainRegs
  repeat' split
  all_goals simp [h]

@[simp] theorem loseBanks_part (p : StatePart) (h : p ∉ ([.banksCacheLru, .banksCacheWays, .banksCollations, .banksLastActive, .banksLost, .banksMerge, .banksPauses, .banksRemapCopies, .banksSealMap, .banksSeals, .banksTags, .banksValid, .banksZeroing, .fabricAccs, .fabricPlan, .fabricSlots, .powerMarchDoms, .powerMarches, .queuesComb, .queuesResults, .queuesSlipq, .regs, .remoteOutMsgs, .remoteOutStage, .streamsAborts, .streamsCtxs, .streamsTiles, .supAllocs, .supCmds, .supEventNow, .supEvents, .supInputs, .supNextEvent, .supSideOrder, .supW1cSet] : List StatePart)) (a0 : Sys2Proof.Machine.State) (a1 : Nat) (a2 : Nat) :
    part (loseBanks a0 a1 a2) p = part a0 p := by
  simp at h
  unfold loseBanks
  repeat' split
  all_goals simp [h]

@[simp] theorem endLoad_part (p : StatePart) (h : p ∉ ([.banksLastActive, .banksMerge, .fabricPlan, .fabricSlots, .regs, .streamsCtxs, .supAllocs, .supCmds, .supEventNow, .supEvents, .supInputs, .supNextEvent, .supSideOrder, .supW1cSet] : List StatePart)) (a0 : Sys2Proof.Machine.State) (a1 : Sys2Proof.CtxId) :
    part (endLoad a0 a1) p = part a0 p := by
  simp at h
  unfold endLoad
  repeat' split
  all_goals simp [h]

@[simp] theorem loseCtx_part (p : StatePart) (h : p ∉ ([.banksLastActive, .banksMerge, .banksSealMap, .banksSeals, .fabricAccs, .fabricBooked, .fabricHolds, .fabricPlan, .fabricSlots, .queuesOps, .queuesSlipq, .regs, .remoteOutStage, .replicasPosts, .streamsCtxs, .streamsTiles, .streamsTokens, .supAllocs, .supCmds, .supEventNow, .supEvents, .supInputs, .supNextEvent, .supSideOrder, .supW1cSet] : List StatePart)) (a0 : Sys2Proof.Machine.State) (a1 : Sys2Proof.CtxId) :
    part (loseCtx a0 a1) p = part a0 p := by
  simp at h
  unfold loseCtx
  repeat' split
  all_goals simp [h]

@[simp] theorem loseHalls_part (p : StatePart) (h : p ∉ ([.banksLastActive, .banksMerge, .banksSealMap, .banksSeals, .fabricAccs, .fabricBooked, .fabricHolds, .fabricPlan, .fabricSlots, .queuesOps, .queuesSlipq, .regs, .remoteOutMsgs, .remoteOutStage, .replicasPosts, .streamsAborts, .streamsCtxs, .streamsTiles, .streamsTokens, .supAllocs, .supCmds, .supEventNow, .supEvents, .supInputs, .supNextEvent, .supSideOrder, .supW1cSet] : List StatePart)) (a0 : Sys2Proof.Machine.State) (a1 : Nat) (a2 : List Nat) :
    part (loseHalls a0 a1 a2) p = part a0 p := by
  simp at h
  unfold loseHalls
  repeat' split
  all_goals simp [h]

@[simp] theorem loseCoreCmds_part (p : StatePart) (h : p ∉ ([.queuesOps, .supCmds] : List StatePart)) (a0 : Sys2Proof.Machine.State) (a1 : Nat) (a2 : List Nat) :
    part (loseCoreCmds a0 a1 a2) p = part a0 p := by
  simp at h
  unfold loseCoreCmds
  repeat' split
  all_goals simp [h]

@[simp] theorem loseCrossbars_part (p : StatePart) (h : p ∉ ([.banksLastActive, .banksMerge, .banksSealMap, .banksSeals, .fabricAccs, .fabricBooked, .fabricHolds, .fabricPlan, .fabricSlots, .queuesOps, .queuesSlipq, .regs, .remoteOutMsgs, .remoteOutStage, .replicasPosts, .streamsAborts, .streamsCtxs, .streamsTiles, .streamsTokens, .supAllocs, .supCmds, .supEventNow, .supEvents, .supInputs, .supNextEvent, .supSideOrder, .supW1cSet] : List StatePart)) (a0 : Sys2Proof.Machine.State) (a1 : Nat) (a2 : Nat) :
    part (loseCrossbars a0 a1 a2) p = part a0 p := by
  simp at h
  unfold loseCrossbars
  repeat' split
  all_goals simp [h]

@[simp] theorem loseCodec_part (p : StatePart) (h : p ∉ ([.banksCollations, .banksSealMap, .banksSeals, .fabricSlots, .regs, .supEventNow, .supEvents, .supNextEvent] : List StatePart)) (a0 : Sys2Proof.Machine.State) (a1 : Nat) (a2 : Nat) :
    part (loseCodec a0 a1 a2) p = part a0 p := by
  simp at h
  unfold loseCodec
  repeat' split
  all_goals simp [h]

@[simp] theorem loseCatalogue_part (p : StatePart) (h : p ∉ ([.banksLastActive, .banksMerge, .banksSealMap, .banksSeals, .fabricPlan, .fabricSlots, .queuesComb, .queuesResults, .queuesSlipq, .regs, .remoteOutMsgs, .remoteOutStage, .remoteTranslator, .replicasUnsafeRegs, .streamsAborts, .streamsCtxs, .streamsTiles, .supAllocs, .supCatCorrected, .supCatReported, .supCatUpsets, .supCmds, .supEventNow, .supEvents, .supInputs, .supNextEvent, .supSideOrder, .supW1cSet] : List StatePart)) (a0 : Sys2Proof.Machine.State) (a1 : Nat) :
    part (loseCatalogue a0 a1) p = part a0 p := by
  simp at h
  unfold loseCatalogue
  repeat' split
  all_goals simp [h]

@[simp] theorem powerOff_part (p : StatePart) (h : p ∉ ([.banksCacheLru, .banksCacheWays, .banksCollations, .banksLastActive, .banksLost, .banksMem, .banksMerge, .banksPauses, .banksRemapCopies, .banksSealMap, .banksSeals, .banksTags, .banksValid, .banksZeroing, .fabricAccs, .fabricBooked, .fabricCounters, .fabricHolds, .fabricNextSlot, .fabricPlan, .fabricSlots, .out, .powerDoms, .powerMarchDoms, .powerMarches, .queuesComb, .queuesNextOp, .queuesOps, .queuesResults, .queuesSlipq, .regs, .remoteCounters, .remoteOutMsgs, .remoteOutStage, .remoteOverdue, .remoteStaged, .remoteTranslator, .replicasPosts, .replicasUnsafeRegs, .streamsAborts, .streamsCtxs, .streamsTiles, .streamsTokens, .supAllocs, .supCatCorrected, .supCatReported, .supCatUpsets, .supCmds, .supEventNow, .supEvents, .supInputs, .supNextEvent, .supSideOrder, .supW1cSet] : List StatePart)) (a0 : Sys2Proof.Machine.State) (a1 : Nat) (a2 : Nat) (a3 : Bool) :
    part (powerOff a0 a1 a2 a3) p = part a0 p := by
  simp at h
  unfold powerOff
  repeat' split
  all_goals simp [h]

@[simp] theorem domLast_part (p : StatePart) (h : p ∉ ([.regs] : List StatePart)) (a0 : Sys2Proof.Machine.State) (a1 : Nat) (a2 : Nat) (a3 : Nat) :
    part (domLast a0 a1 a2 a3) p = part a0 p := by
  simp at h
  unfold domLast
  repeat' split
  all_goals simp [h]

@[simp] theorem refusePower_part (p : StatePart) (h : p ∉ ([.regs, .supAllocs, .supCmds, .supEventNow, .supEvents, .supInputs, .supNextEvent, .supSideOrder, .supW1cSet] : List StatePart)) (a0 : Sys2Proof.Machine.State) (a1 : Sys2Proof.CmdSrc) (a2 : Nat) :
    part (refusePower a0 a1 a2) p = part a0 p := by
  simp at h
  unfold refusePower
  repeat' split
  all_goals simp [h]

@[simp] theorem goDown_part (p : StatePart) (h : p ∉ ([.banksCacheLru, .banksCacheWays, .banksCollations, .banksLastActive, .banksLost, .banksMem, .banksMerge, .banksPauses, .banksRemapCopies, .banksSealMap, .banksSeals, .banksTags, .banksValid, .banksZeroing, .fabricAccs, .fabricBooked, .fabricCounters, .fabricHolds, .fabricNextSlot, .fabricPlan, .fabricSlots, .out, .powerDoms, .powerMarchDoms, .powerMarches, .queuesComb, .queuesNextOp, .queuesOps, .queuesResults, .queuesSlipq, .regs, .remoteCounters, .remoteOutMsgs, .remoteOutStage, .remoteOverdue, .remoteStaged, .remoteTranslator, .replicasPosts, .replicasUnsafeRegs, .streamsAborts, .streamsCtxs, .streamsTiles, .streamsTokens, .supAllocs, .supCatCorrected, .supCatReported, .supCatUpsets, .supCmds, .supEventNow, .supEvents, .supInputs, .supNextEvent, .supSideOrder, .supW1cSet] : List StatePart)) (a0 : Sys2Proof.Machine.State) (a1 : Nat) (a2 : Nat) (a3 : Bool) :
    part (goDown a0 a1 a2 a3) p = part a0 p := by
  simp at h
  unfold goDown
  repeat' split
  all_goals simp [h]

@[simp] theorem flushGroup_part (p : StatePart) (h : p ∉ ([.banksMem, .banksMerge, .banksValid, .fabricCounters, .regs, .replicasBaroCorr, .supEventNow, .supEvents, .supNextEvent] : List StatePart)) (a0 : Sys2Proof.Machine.State) (a1 : Nat) (a2 : Nat) :
    part (flushGroup a0 a1 a2) p = part a0 p := by
  simp at h
  unfold flushGroup
  repeat' split
  all_goals simp [h]

@[simp] theorem wakeDomainBank_part (p : StatePart) (h : p ∉ ([.banksCacheLru, .banksCacheWays, .banksClassMap, .banksCollations, .banksLastActive, .banksLost, .banksMerge, .banksPauses, .banksSealMap, .banksSeals, .banksTags, .banksValid, .banksZeroing, .draws, .fabricPlan, .fabricSlots, .powerRecord, .queuesComb, .queuesResults, .queuesSlipq, .regs, .remoteOutMsgs, .remoteOutStage, .remoteTranslator, .replicasStrays, .replicasUnsafeRegs, .streamsAborts, .streamsCtxs, .streamsTiles, .supAllocs, .supCatFreed, .supCatReported, .supCatUpsets, .supCmds, .supEventNow, .supEvents, .supInputs, .supNextEvent, .supSideOrder, .supW1cSet] : List StatePart)) (a0 : Sys2Proof.Machine.State) (a1 : Nat) :
    part (wakeDomainBank a0 a1) p = part a0 p := by
  simp at h
  unfold wakeDomainBank
  repeat' split
  all_goals simp [h]

@[simp] theorem bootWave_part (p : StatePart) (h : p ∉ ([.powerDoms] : List StatePart)) (a0 : Sys2Proof.Machine.State) (a1 : Nat) :
    part (bootWave a0 a1) p = part a0 p := by
  simp at h
  unfold bootWave
  repeat' split
  all_goals simp [h]

@[simp] theorem pwrDomWrite_part (p : StatePart) (h : p ∉ ([.regs] : List StatePart)) (a0 : Sys2Proof.Machine.State) (a1 : Nat) (a2 : Nat) (a3 : Nat) (a4 : Sys2Proof.Word) :
    part (pwrDomWrite a0 a1 a2 a3 a4) p = part a0 p := by
  simp at h
  unfold pwrDomWrite
  repeat' split
  all_goals simp [h]

@[simp] theorem sleepBank_part (p : StatePart) (h : p ∉ ([.banksCollations, .fabricSlots, .regs] : List StatePart)) (a0 : Sys2Proof.Machine.State) (a1 : Nat) :
    part (sleepBank a0 a1) p = part a0 p := by
  simp at h
  unfold sleepBank
  repeat' split
  all_goals simp [h]

@[simp] theorem bankPwrWrite_part (p : StatePart) (h : p ∉ ([.banksLastActive, .banksPauses, .banksValid, .powerDoms, .regs] : List StatePart)) (a0 : Sys2Proof.Machine.State) (a1 : Nat) (a2 : Nat) (a3 : Sys2Proof.Word) :
    part (bankPwrWrite a0 a1 a2 a3) p = part a0 p := by
  simp at h
  unfold bankPwrWrite
  repeat' split
  all_goals simp [h]

@[simp] theorem endScan_part (p : StatePart) (h : p ∉ ([.regs, .replicasScans, .replicasWrappers, .supAllocs, .supCmds, .supEventNow, .supEvents, .supInputs, .supNextEvent, .supSideOrder, .supW1cSet] : List StatePart)) (a0 : Sys2Proof.Machine.State) (a1 : Nat) (a2 : Nat) (a3 : Nat) :
    part (endScan a0 a1 a2 a3) p = part a0 p := by
  simp at h
  unfold endScan
  repeat' split
  all_goals simp [h]

@[simp] theorem scanBrownout_part (p : StatePart) (h : p ∉ ([.regs, .replicasScans, .replicasWrappers, .supAllocs, .supCmds, .supEventNow, .supEvents, .supInputs, .supNextEvent, .supSideOrder, .supW1cSet] : List StatePart)) (a0 : Sys2Proof.Machine.State) (a1 : Nat) (a2 : Nat) :
    part (scanBrownout a0 a1 a2) p = part a0 p := by
  simp at h
  unfold scanBrownout
  repeat' split
  all_goals simp [h]

@[simp] theorem setClk_part (p : StatePart) (h : p ∉ ([.regs] : List StatePart)) (a0 : Sys2Proof.Machine.State) (a1 : Nat) (a2 : Nat) :
    part (setClk a0 a1 a2) p = part a0 p := by
  simp at h
  unfold setClk
  repeat' split
  all_goals simp [h]

@[simp] theorem perfStep_part (p : StatePart) (h : p ∉ ([.powerPerf, .regs] : List StatePart)) (a0 : Sys2Proof.Machine.State) (a1 : Nat) (a2 : Sys2Proof.Machine.PerfChange) (a3 : Sys2Proof.Machine.PerfStep) :
    part (perfStep a0 a1 a2 a3) p = part a0 p := by
  simp at h
  unfold perfStep
  repeat' split
  all_goals simp [h]

@[simp] theorem resumeRoot_part (p : StatePart) (h : p ∉ ([.banksLastActive, .banksPauses, .banksValid, .powerDoms, .powerStopped, .regs] : List StatePart)) (a0 : Sys2Proof.Machine.State) (a1 : Nat) :
    part (resumeRoot a0 a1) p = part a0 p := by
  simp at h
  unfold resumeRoot
  repeat' (first | (simp [h]; done) | split | (intro _) | (refine (foldl_part p _ ?_ _ _).trans ?_; intro s a) | (dsimp only; split) | (simp [h]; split) | simp [h])

@[simp] theorem perfEnd_part (p : StatePart) (h : p ∉ ([.banksLastActive, .banksPauses, .banksValid, .powerDoms, .powerPerf, .powerStopped, .regs, .supAllocs, .supCmds, .supEventNow, .supEvents, .supInputs, .supNextEvent, .supSideOrder, .supW1cSet] : List StatePart)) (a0 : Sys2Proof.Machine.State) (a1 : Nat) (a2 : Sys2Proof.Machine.PerfChange) :
    part (perfEnd a0 a1 a2) p = part a0 p := by
  simp at h
  unfold perfEnd
  repeat' (first | (simp [h]; done) | split | (dsimp only; split))

@[simp] theorem perfDrop_part (p : StatePart) (h : p ∉ ([.powerPerf, .regs, .supAllocs, .supCmds, .supEventNow, .supEvents, .supInputs, .supNextEvent, .supSideOrder, .supW1cSet] : List StatePart)) (a0 : Sys2Proof.Machine.State) (a1 : Nat) :
    part (perfDrop a0 a1) p = part a0 p := by
  simp at h
  unfold perfDrop
  repeat' (first | (simp [h]; done) | split | (dsimp only; split))

@[simp] theorem dozeBank_part (p : StatePart) (h : p ∉ ([.banksCollations, .banksPauses, .fabricSlots, .regs] : List StatePart)) (a0 : Sys2Proof.Machine.State) (a1 : Nat) :
    part (dozeBank a0 a1) p = part a0 p := by
  simp at h
  unfold dozeBank
  repeat' split
  all_goals simp [h]

@[simp] theorem dozeBanks_part (p : StatePart) (h : p ∉ ([.banksCollations, .banksPauses, .fabricSlots, .regs] : List StatePart)) (a0 : Sys2Proof.Machine.State) (a1 : Nat) :
    part (dozeBanks a0 a1) p = part a0 p := by
  simp at h
  unfold dozeBanks
  repeat' split
  all_goals simp [h]

@[simp] theorem withdrawReady_part (p : StatePart) (h : p ∉ ([.boots] : List StatePart)) (a0 : Sys2Proof.Machine.State) (a1 : Nat) :
    part (withdrawReady a0 a1) p = part a0 p := by
  simp at h
  unfold withdrawReady
  repeat' split
  all_goals simp [h]

/-! ### Replicas -/

@[simp] theorem djobCfgWrite_part (p : StatePart) (h : p ∉ ([.regs] : List StatePart)) (a0 : Sys2Proof.Machine.State) (a1 : Nat) (a2 : Nat) (a3 : Nat) (a4 : Sys2Proof.Word) :
    part (djobCfgWrite a0 a1 a2 a3 a4) p = part a0 p := by
  simp at h
  unfold djobCfgWrite
  repeat' split
  all_goals simp [h]

@[simp] theorem djobKeyWrite_part (p : StatePart) (h : p ∉ ([.regs] : List StatePart)) (a0 : Sys2Proof.Machine.State) (a1 : Nat) (a2 : Nat) (a3 : Nat) (a4 : Nat) (a5 : Sys2Proof.Word) :
    part (djobKeyWrite a0 a1 a2 a3 a4 a5) p = part a0 p := by
  simp at h
  unfold djobKeyWrite
  repeat' split
  all_goals simp [h]

@[simp] theorem ballotSet_part (p : StatePart) (h : p ∉ ([.replicasBallots] : List StatePart)) (a0 : Sys2Proof.Machine.State) (a1 : Nat) (a2 : Nat) (a3 : Sys2Proof.Machine.Ballot) :
    part (ballotSet a0 a1 a2 a3) p = part a0 p := by
  simp at h
  unfold ballotSet
  repeat' split
  all_goals simp [h]

@[simp] theorem ballotCfgWrite_part (p : StatePart) (h : p ∉ ([.queuesCopies, .regs, .supEventNow, .supEvents, .supNextEvent] : List StatePart)) (a0 : Sys2Proof.Machine.State) (a1 : Nat) (a2 : Nat) (a3 : Nat) (a4 : Sys2Proof.Word) :
    part (ballotCfgWrite a0 a1 a2 a3 a4) p = part a0 p := by
  simp at h
  unfold ballotCfgWrite
  repeat' split
  all_goals simp [h]

@[simp] theorem postVerdict_part (p : StatePart) (h : p ∉ ([.banksCollations, .banksLastActive, .banksMem, .banksMerge, .banksPauses, .banksSeals, .banksValid, .draws, .fabricAccs, .fabricCounters, .fabricSlots, .powerDoms, .queuesPortB, .queuesResults, .regs, .remoteOutMsgs, .replicasBallots, .replicasBaroCorr, .streamsCtxs, .supEventNow, .supEvents, .supNextEvent] : List StatePart)) (a0 : Sys2Proof.Machine.State) (a1 : Nat) (a2 : Nat) :
    part (postVerdict a0 a1 a2) p = part a0 p := by
  simp at h
  unfold postVerdict
  repeat' split
  all_goals simp [h]

@[simp] theorem ballotOddWrite_part (p : StatePart) (h : p ∉ ([.replicasBallots] : List StatePart)) (a0 : Sys2Proof.Machine.State) (a1 : Nat) (a2 : Nat) (a3 : Nat) :
    part (ballotOddWrite a0 a1 a2 a3) p = part a0 p := by
  simp at h
  unfold ballotOddWrite
  repeat' split
  all_goals simp [h]

@[simp] theorem stepHoldWrite_part (p : StatePart) (h : p ∉ ([.regs, .replicasStrays, .replicasUnsafeRegs, .supEventNow, .supEvents, .supNextEvent] : List StatePart)) (a0 : Sys2Proof.Machine.State) (a1 : Nat) (a2 : Nat) (a3 : Nat) (a4 : Sys2Proof.Word) :
    part (stepHoldWrite a0 a1 a2 a3 a4) p = part a0 p := by
  simp at h
  unfold stepHoldWrite
  repeat' split
  all_goals simp [h]

@[simp] theorem xchkRun_part (p : StatePart) (h : p ∉ ([.fabricCounters, .replicasLfsr] : List StatePart)) (a0 : Sys2Proof.Machine.State) (a1 : Nat) :
    part (xchkRun a0 a1) p = part a0 p := by
  simp at h
  unfold xchkRun
  repeat' split
  all_goals simp [h]

@[simp] theorem xchkMismatch_part (p : StatePart) (h : p ∉ ([.fabricCounters, .regs, .supEventNow, .supEvents, .supNextEvent, .supW1cSet] : List StatePart)) (a0 : Sys2Proof.Machine.State) (a1 : Nat) (a2 : Nat) (a3 : Nat) (a4 : Bool) :
    part (xchkMismatch a0 a1 a2 a3 a4) p = part a0 p := by
  simp at h
  unfold xchkMismatch
  repeat' split
  all_goals simp [h]

@[simp] theorem powerCycle_part (p : StatePart) (h : p ∉ ([.banksCacheLru, .banksCacheWays, .banksClassMap, .banksCollations, .banksLastActive, .banksLost, .banksMerge, .banksPauses, .banksSealMap, .banksSeals, .banksTags, .banksValid, .banksZeroing, .draws, .fabricPlan, .fabricSlots, .powerDoms, .powerRecord, .queuesComb, .queuesResults, .queuesSlipq, .regs, .remoteOutMsgs, .remoteOutStage, .remoteTranslator, .replicasStrays, .replicasUnsafeRegs, .streamsAborts, .streamsCtxs, .streamsTiles, .supAllocs, .supCatFreed, .supCatReported, .supCatUpsets, .supCmds, .supEventNow, .supEvents, .supInputs, .supNextEvent, .supSideOrder, .supW1cSet] : List StatePart)) (a0 : Sys2Proof.Machine.State) (a1 : Nat) (a2 : Nat) :
    part (powerCycle a0 a1 a2) p = part a0 p := by
  simp at h
  unfold powerCycle
  repeat' split
  all_goals simp [h]

@[simp] theorem scanOver_part (p : StatePart) (h : p ∉ ([.banksCacheLru, .banksCacheWays, .banksClassMap, .banksCollations, .banksLastActive, .banksLost, .banksMerge, .banksPauses, .banksSealMap, .banksSeals, .banksTags, .banksValid, .banksZeroing, .draws, .fabricPlan, .fabricSlots, .powerDoms, .powerRecord, .queuesComb, .queuesResults, .queuesSlipq, .regs, .remoteOutMsgs, .remoteOutStage, .remoteTranslator, .replicasScans, .replicasStrays, .replicasUnsafeRegs, .replicasWrappers, .streamsAborts, .streamsCtxs, .streamsTiles, .supAllocs, .supCatFreed, .supCatReported, .supCatUpsets, .supCmds, .supEventNow, .supEvents, .supInputs, .supNextEvent, .supSideOrder, .supW1cSet] : List StatePart)) (a0 : Sys2Proof.Machine.State) (a1 : Nat) (a2 : Sys2Proof.Machine.Scan) (a3 : Sys2Proof.ScanOutcome) :
    part (scanOver a0 a1 a2 a3) p = part a0 p := by
  simp at h
  unfold scanOver
  repeat' split
  all_goals simp [h]

@[simp] theorem loseReg_part (p : StatePart) (h : p ∉ ([.banksLastActive, .banksMerge, .banksSealMap, .banksSeals, .fabricGuests, .fabricPlan, .fabricSlots, .queuesComb, .queuesResults, .queuesSlipq, .regs, .remoteOutMsgs, .remoteOutStage, .replicasBallots, .streamsAborts, .streamsCtxs, .streamsTiles, .supAllocs, .supCmds, .supEventNow, .supEvents, .supInputs, .supNextEvent, .supSideOrder, .supW1cSet] : List StatePart)) (a0 : Sys2Proof.Machine.State) (a1 : Nat) (a2 : Sys2Proof.Machine.Reg) :
    part (loseReg a0 a1 a2) p = part a0 p := by
  simp at h
  cases a2 <;> simp [loseReg, h]
  all_goals (split <;> simp [h])

@[simp] theorem sampleDomain_part (p : StatePart) (h : p ∉ ([.replicasBaro, .replicasBaroCorr] : List StatePart)) (a0 : Sys2Proof.Machine.State) (a1 : Nat) (a2 : Nat) (a3 : Option Nat) :
    part (sampleDomain a0 a1 a2 a3) p = part a0 p := by
  simp at h
  unfold sampleDomain
  repeat' split
  all_goals simp [h]

/-! ### Security -/

@[simp] theorem eraseSlot_part (p : StatePart) (h : p ∉ ([.banksLastActive, .banksMerge, .fabricCounters, .fabricPlan, .fabricSlots, .out, .queuesNextOp, .queuesOps, .queuesSlipq, .regs, .remoteCounters, .remoteStaged, .securityKeySlots] : List StatePart)) (a0 : Sys2Proof.Machine.State) (a1 : Nat) (a2 : Nat) (a3 : Nat) :
    part (eraseSlot a0 a1 a2 a3) p = part a0 p := by
  simp at h
  unfold eraseSlot
  repeat' split
  all_goals simp [h]

@[simp] theorem eraseTransport_part (p : StatePart) (h : p ∉ ([.regs, .securityTransport] : List StatePart)) (a0 : Sys2Proof.Machine.State) (a1 : Nat) (a2 : Nat) :
    part (eraseTransport a0 a1 a2) p = part a0 p := by
  simp at h
  unfold eraseTransport
  repeat' split
  all_goals simp [h]

@[simp] theorem eraseDjobs_part (p : StatePart) (h : p ∉ ([.regs] : List StatePart)) (a0 : Sys2Proof.Machine.State) (a1 : Nat) (a2 : Nat → Bool) :
    part (eraseDjobs a0 a1 a2) p = part a0 p := by
  simp at h
  unfold eraseDjobs
  repeat' split
  all_goals simp [h]

@[simp] theorem eraseTenancy_part (p : StatePart) (h : p ∉ ([.banksLastActive, .banksMerge, .fabricCounters, .fabricPlan, .fabricSlots, .out, .queuesNextOp, .queuesOps, .queuesSlipq, .regs, .remoteCounters, .remoteStaged, .securityKeySlots, .securityTransport] : List StatePart)) (a0 : Sys2Proof.Machine.State) (a1 : Nat) (a2 : Nat) :
    part (eraseTenancy a0 a1 a2) p = part a0 p := by
  simp at h
  unfold eraseTenancy
  repeat' split
  all_goals simp [h]

@[simp] theorem eraseAll_part (p : StatePart) (h : p ∉ ([.banksLastActive, .banksMerge, .fabricCounters, .fabricPlan, .fabricSlots, .out, .queuesNextOp, .queuesOps, .queuesSlipq, .regs, .remoteCounters, .remoteStaged, .securityKeySlots, .securityTransport] : List StatePart)) (a0 : Sys2Proof.Machine.State) (a1 : Nat) :
    part (eraseAll a0 a1) p = part a0 p := by
  simp at h
  unfold eraseAll
  repeat' split
  all_goals simp [h]

@[simp] theorem checkChain_part (p : StatePart) (h : p ∉ ([.regs, .securityCertBad, .supEventNow, .supEvents, .supNextEvent] : List StatePart)) (a0 : Sys2Proof.Machine.State) (a1 : Nat) :
    part (checkChain a0 a1) p = part a0 p := by
  simp at h
  unfold checkChain
  repeat' split
  all_goals simp [h]

@[simp] theorem closeTasks_part (p : StatePart) (h : p ∉ ([.banksLastActive, .banksMerge, .banksSealMap, .banksSeals, .fabricPlan, .fabricSlots, .queuesSlipq, .regs, .remoteOutMsgs, .remoteOutStage, .streamsAborts, .streamsCtxs, .streamsTiles, .supAllocs, .supCmds, .supEventNow, .supEvents, .supInputs, .supNextEvent, .supSideOrder, .supW1cSet] : List StatePart)) (a0 : Sys2Proof.Machine.State) (a1 : Nat) (a2 : Nat) :
    part (closeTasks a0 a1 a2) p = part a0 p := by
  simp at h
  unfold closeTasks
  repeat' split
  all_goals simp [h]

@[simp] theorem closeWindows_part (p : StatePart) (h : p ∉ ([.banksLastActive, .banksMerge, .fabricCounters, .fabricPlan, .fabricSlots, .out, .queuesNextOp, .queuesOps, .queuesSlipq, .regs, .remoteCounters, .remoteStaged] : List StatePart)) (a0 : Sys2Proof.Machine.State) (a1 : Nat) (a2 : Nat) :
    part (closeWindows a0 a1 a2) p = part a0 p := by
  simp at h
  unfold closeWindows
  repeat' (first | (simp [h]; done) | split | (intro _) | (refine (foldl_part p _ ?_ _ _).trans ?_; intro s a) | (dsimp only; split) | (simp [h]; split) | simp [h])

@[simp] theorem closeStructs_part (p : StatePart) (h : p ∉ ([.banksLastActive, .banksMerge, .banksSealMap, .banksSeals, .fabricPlan, .fabricSlots, .queuesComb, .queuesResults, .queuesSlipq, .regs, .remoteOutMsgs, .remoteOutStage, .replicasBallots, .streamsAborts, .streamsBarrierCount, .streamsBarrierRoot, .streamsCtxs, .streamsTiles, .supAllocs, .supCmds, .supEventNow, .supEvents, .supInputs, .supNextEvent, .supSideOrder, .supW1cSet] : List StatePart)) (a0 : Sys2Proof.Machine.State) (a1 : Nat) (a2 : Nat) :
    part (closeStructs a0 a1 a2) p = part a0 p := by
  simp at h
  unfold closeStructs
  dsimp only
  repeat' (first | (simp [h]; done) | split | (intro _) | (refine (foldl_part p _ ?_ _ _).trans ?_; intro s a) | (dsimp only; split) | simp [h])

@[simp] theorem closeTags_part (p : StatePart) (h : p ∉ ([.banksCacheLru, .banksCacheWays, .regs, .replicasStrays, .replicasUnsafeRegs, .supEventNow, .supEvents, .supNextEvent] : List StatePart)) (a0 : Sys2Proof.Machine.State) (a1 : Nat) (a2 : Nat) :
    part (closeTags a0 a1 a2) p = part a0 p := by
  simp at h
  unfold closeTags
  repeat' (first | (simp [h]; done) | split | (intro _) | (refine (foldl_part p _ ?_ _ _).trans ?_; intro s a) | (dsimp only; split) | (simp [h]; split) | simp [h])

@[simp] theorem closeObjects_part (p : StatePart) (h : p ∉ ([.banksCacheLru, .banksCacheWays, .banksLastActive, .banksMerge, .banksSealMap, .banksSeals, .fabricCounters, .fabricPlan, .fabricSlots, .out, .queuesComb, .queuesNextOp, .queuesOps, .queuesResults, .queuesSlipq, .regs, .remoteCounters, .remoteOutMsgs, .remoteOutStage, .remoteStaged, .remoteTranslator, .replicasBallots, .replicasStrays, .replicasUnsafeRegs, .securityKeySlots, .securityTransport, .streamsAborts, .streamsBarrierCount, .streamsBarrierRoot, .streamsCtxs, .streamsTiles, .supAllocs, .supCatFreed, .supCatReported, .supCatUpsets, .supCmds, .supEventNow, .supEvents, .supInputs, .supNextEvent, .supSideOrder, .supW1cSet] : List StatePart)) (a0 : Sys2Proof.Machine.State) (a1 : Nat) (a2 : Nat) :
    part (closeObjects a0 a1 a2) p = part a0 p := by
  simp at h
  unfold closeObjects
  repeat' split
  all_goals simp [h]

@[simp] theorem closeBank_part (p : StatePart) (h : p ∉ ([.banksLastActive, .banksMerge, .banksPauses, .banksSealMap, .banksSeals, .banksTags, .banksValid, .banksZeroing, .fabricPlan, .fabricSlots, .powerDoms, .powerMarchDoms, .powerMarches, .queuesComb, .queuesResults, .queuesSlipq, .regs, .remoteOutMsgs, .remoteOutStage, .replicasStrays, .replicasUnsafeRegs, .streamsAborts, .streamsCtxs, .streamsTiles, .supAllocs, .supCmds, .supEventNow, .supEvents, .supInputs, .supNextEvent, .supSideOrder, .supW1cSet] : List StatePart)) (a0 : Nat) (a1 : Sys2Proof.Machine.State) (a2 : Nat) :
    part (closeBank a0 a1 a2) p = part a1 p := by
  simp at h
  unfold closeBank
  repeat' split
  all_goals simp [h]

@[simp] theorem setCloseStep_part (p : StatePart) (h : p ∉ ([.securityClosing] : List StatePart)) (a0 : Sys2Proof.Machine.State) (a1 : Nat) (a2 : Nat) (a3 : Nat) :
    part (setCloseStep a0 a1 a2 a3) p = part a0 p := by
  simp at h
  unfold setCloseStep
  repeat' split
  all_goals simp [h]

@[simp] theorem closeGoOn_part (p : StatePart) (h : p ∉ ([.banksCacheLru, .banksCacheWays, .banksLastActive, .banksMerge, .banksPauses, .banksSealMap, .banksSeals, .banksTags, .banksValid, .banksZeroing, .fabricCounters, .fabricPlan, .fabricSlots, .out, .powerDoms, .powerMarchDoms, .powerMarches, .queuesComb, .queuesNextOp, .queuesOps, .queuesResults, .queuesSlipq, .regs, .remoteCounters, .remoteOutMsgs, .remoteOutStage, .remoteStaged, .remoteTranslator, .replicasBallots, .replicasStrays, .replicasUnsafeRegs, .securityClosing, .securityKeySlots, .securityTransport, .streamsAborts, .streamsBarrierCount, .streamsBarrierRoot, .streamsCtxs, .streamsTiles, .supAllocs, .supCatFreed, .supCatReported, .supCatUpsets, .supCmds, .supEventNow, .supEvents, .supInputs, .supNextEvent, .supSideOrder, .supW1cSet] : List StatePart)) (a0 : Sys2Proof.Machine.State) (a1 : Sys2Proof.CmdSrc) (a2 : Nat) :
    part (closeGoOn a0 a1 a2) p = part a0 p := by
  simp at h
  unfold closeGoOn
  repeat' split
  all_goals simp [h]

@[simp] theorem lcStart_part (p : StatePart) (h : p ∉ ([.banksCollations, .banksLastActive, .banksMerge, .banksPauses, .banksValid, .banksZeroing, .fabricCounters, .fabricPlan, .fabricSlots, .out, .powerDoms, .powerMarchDoms, .powerMarches, .queuesNextOp, .queuesOps, .queuesSlipq, .regs, .remoteCounters, .remoteStaged, .securityKeySlots, .securityLcBusy, .securityTransport, .supAllocs, .supCmds, .supEventNow, .supEvents, .supInputs, .supNextEvent, .supSideOrder, .supW1cSet] : List StatePart)) (a0 : Sys2Proof.Machine.State) (a1 : Sys2Proof.CmdSrc) (a2 : Bool) (a3 : Bool) (a4 : BitVec 2) :
    part (lcStart a0 a1 a2 a3 a4) p = part a0 p := by
  simp at h
  unfold lcStart
  repeat' split
  all_goals simp [h]

@[simp] theorem alarmAction_part (p : StatePart) (h : p ∉ ([.banksCollations, .banksLastActive, .banksMerge, .banksPauses, .banksValid, .banksZeroing, .fabricCounters, .fabricPlan, .fabricSlots, .out, .powerDoms, .powerMarchDoms, .powerMarches, .queuesNextOp, .queuesOps, .queuesSlipq, .regs, .remoteCounters, .remoteStaged, .securityKeySlots, .securityTransport, .supAllocs, .supCmds, .supEventNow, .supEvents, .supInputs, .supNextEvent, .supSideOrder, .supW1cSet] : List StatePart)) (a0 : Sys2Proof.Machine.State) (a1 : Nat) (a2 : Nat) :
    part (alarmAction a0 a1 a2) p = part a0 p := by
  simp at h
  unfold alarmAction
  repeat' split
  all_goals simp [h]

@[simp] theorem noteAlarm_part (p : StatePart) (h : p ∉ ([.regs, .supEventNow, .supEvents, .supNextEvent, .supW1cSet] : List StatePart)) (a0 : Sys2Proof.Machine.State) (a1 : Nat) (a2 : Nat) (a3 : Nat) (a4 : Nat) (a5 : Bool) :
    part (noteAlarm a0 a1 a2 a3 a4 a5) p = part a0 p := by
  simp at h
  unfold noteAlarm
  repeat' split
  all_goals simp [h]

@[simp] theorem spreadAlarm_part (p : StatePart) (h : p ∉ ([.securityAlarms] : List StatePart)) (a0 : Sys2Proof.Machine.State) (a1 : Nat) (a2 : Nat) (a3 : Nat) :
    part (spreadAlarm a0 a1 a2 a3) p = part a0 p := by
  simp at h
  unfold spreadAlarm
  repeat' split
  all_goals simp [h]

/-! ### Boot -/

@[simp] theorem abortLost_part (p : StatePart) (h : p ∉ ([.banksLastActive, .banksMerge, .banksSealMap, .banksSeals, .fabricPlan, .fabricSlots, .queuesSlipq, .regs, .remoteOutMsgs, .remoteOutStage, .streamsAborts, .streamsCtxs, .streamsTiles, .supAllocs, .supCmds, .supEventNow, .supEvents, .supInputs, .supNextEvent, .supSideOrder, .supW1cSet] : List StatePart)) (a0 : Sys2Proof.Machine.State) (a1 : Nat) (a2 : Nat × Nat × Nat) :
    part (abortLost a0 a1 a2) p = part a0 p := by
  simp at h
  unfold abortLost
  repeat' (first | (simp [h]; done) | split | (dsimp only; split))

@[simp] theorem fenceTransfer_part (p : StatePart) (h : p ∉ ([.fabricAccs, .fabricSlots] : List StatePart)) (a0 : Sys2Proof.Machine.State) (a1 : Sys2Proof.Machine.Slot) :
    part (fenceTransfer a0 a1) p = part a0 p := by
  simp at h
  unfold fenceTransfer
  repeat' split
  all_goals simp [h]

@[simp] theorem resetTransfers_part (p : StatePart) (h : p ∉ ([.banksLastActive, .banksMerge, .fabricAccs, .fabricBooked, .fabricHolds, .fabricPlan, .fabricSlots] : List StatePart)) (a0 : Sys2Proof.Machine.State) (a1 : Nat) :
    part (resetTransfers a0 a1) p = part a0 p := by
  simp at h
  unfold resetTransfers
  repeat' split
  all_goals simp [h]

@[simp] theorem resetFabric_part (p : StatePart) (h : p ∉ ([.fabricAccs, .fabricBudgets, .fabricClearWanted, .fabricCounters, .fabricDecided, .fabricGuestCount, .fabricGuestNext, .fabricGuestPending, .fabricGuests, .fabricHolds, .fabricLocks, .fabricPlanResv, .fabricRotation, .fabricSnapWanted, .fabricSnaps, .fabricSquallNow, .fabricSquallSeen, .fabricSqualls, .fabricTenures, .fabricUsedIn, .fabricUsedNext, .fabricWdogFenced] : List StatePart)) (a0 : Sys2Proof.Machine.State) (a1 : Nat) :
    part (resetFabric a0 a1) p = part a0 p := by
  simp at h
  unfold resetFabric
  repeat' split
  all_goals simp [h]

@[simp] theorem resetBanks_part (p : StatePart) (h : p ∉ ([.banksCacheLru, .banksCacheWays, .banksClassMap, .banksCollations, .banksFolioClears, .banksLastActive, .banksLost, .banksMerge, .banksPauses, .banksRawOps, .banksRemapCopies, .banksSealMap, .banksSeals, .banksTags, .banksValid, .banksZeroing] : List StatePart)) (a0 : Sys2Proof.Machine.State) (a1 : Nat) :
    part (resetBanks a0 a1) p = part a0 p := by
  simp at h
  unfold resetBanks
  repeat' split
  all_goals simp [h]

@[simp] theorem resetStreams_part (p : StatePart) (h : p ∉ ([.streamsAborts, .streamsBarrierCount, .streamsBarrierRoot, .streamsCtxs, .streamsTiles, .streamsTokens] : List StatePart)) (a0 : Sys2Proof.Machine.State) (a1 : Nat) :
    part (resetStreams a0 a1) p = part a0 p := by
  simp at h
  unfold resetStreams
  repeat' split
  all_goals simp [h]

@[simp] theorem resetQueues_part (p : StatePart) (h : p ∉ ([.queuesComb, .queuesCopies, .queuesOps, .queuesResults, .queuesSlipq, .streamsCtxs] : List StatePart)) (a0 : Sys2Proof.Machine.State) (a1 : Nat) :
    part (resetQueues a0 a1) p = part a0 p := by
  simp at h
  unfold resetQueues
  repeat' split
  all_goals simp [h]

@[simp] theorem resetRemote_part (p : StatePart) (h : p ∉ ([.remoteCounters, .remoteOutMsgs, .remoteOutStage, .remoteOverdue, .remoteRingCount, .remoteStaged, .remoteSyncs, .remoteTranslator] : List StatePart)) (a0 : Sys2Proof.Machine.State) (a1 : Nat) :
    part (resetRemote a0 a1) p = part a0 p := by
  simp at h
  unfold resetRemote
  repeat' split
  all_goals simp [h]

@[simp] theorem resetReplicas_part (p : StatePart) (h : p ∉ ([.replicasBallots, .replicasLfsr, .replicasPosts, .replicasScans, .replicasStrays, .replicasUnsafeRegs, .replicasWrappers] : List StatePart)) (a0 : Sys2Proof.Machine.State) (a1 : Nat) :
    part (resetReplicas a0 a1) p = part a0 p := by
  simp at h
  unfold resetReplicas
  repeat' split
  all_goals simp [h]

@[simp] theorem resetSecurity_part (p : StatePart) (h : p ∉ ([.securityAlarms, .securityClosing, .securityDenialSeen, .securityKeySlots, .securityLcBusy, .securityTransport] : List StatePart)) (a0 : Sys2Proof.Machine.State) (a1 : Nat) :
    part (resetSecurity a0 a1) p = part a0 p := by
  simp at h
  unfold resetSecurity
  repeat' split
  all_goals simp [h]

@[simp] theorem resetPower_part (p : StatePart) (h : p ∉ ([.powerDoms, .powerMarchDoms, .powerMarches, .powerPerf, .powerStopped, .regs, .supAllocs, .supCmds, .supEventNow, .supEvents, .supInputs, .supNextEvent, .supSideOrder, .supW1cSet] : List StatePart)) (a0 : Sys2Proof.Machine.State) (a1 : Nat) :
    part (resetPower a0 a1) p = part a0 p := by
  simp at h
  unfold resetPower
  repeat' split
  all_goals simp [h]

@[simp] theorem resetSupervisor_part (p : StatePart) (h : p ∉ ([.supAllocs, .supAlmanacCount, .supAlmanacs, .supCatCorrected, .supCatFreed, .supCatReported, .supCatUpsets, .supCmds, .supEventNow, .supEvents, .supInputs, .supLastDispatch, .supNextEvent, .supNextSeq, .supQueued, .supSideOrder, .supStalled, .supTurn] : List StatePart)) (a0 : Sys2Proof.Machine.State) (a1 : Nat) :
    part (resetSupervisor a0 a1) p = part a0 p := by
  cases p <;> first | rfl | simp at h

@[simp] theorem resetRegs_part (p : StatePart) (h : p ∉ ([.pages, .pairHi, .pairLo, .regs] : List StatePart)) (a0 : Sys2Proof.Machine.State) (a1 : Nat) (a2 : Bool) (a3 : Option Nat) :
    part (resetRegs a0 a1 a2 a3) p = part a0 p := by
  simp at h
  unfold resetRegs
  repeat' split
  all_goals simp [h]

@[simp] theorem eraseDie_part (p : StatePart) (h : p ∉ ([.banksCacheLru, .banksCacheWays, .banksClassMap, .banksCollations, .banksFolioClears, .banksLastActive, .banksLost, .banksMerge, .banksPauses, .banksRawOps, .banksRemapCopies, .banksSealMap, .banksSeals, .banksTags, .banksValid, .banksZeroing, .fabricAccs, .fabricBooked, .fabricBudgets, .fabricClearWanted, .fabricCounters, .fabricDecided, .fabricGuestCount, .fabricGuestNext, .fabricGuestPending, .fabricGuests, .fabricHolds, .fabricLocks, .fabricPlan, .fabricPlanResv, .fabricRotation, .fabricSlots, .fabricSnapWanted, .fabricSnaps, .fabricSquallNow, .fabricSquallSeen, .fabricSqualls, .fabricTenures, .fabricUsedIn, .fabricUsedNext, .fabricWdogFenced, .pages, .pairHi, .pairLo, .powerDoms, .powerMarchDoms, .powerMarches, .powerPerf, .powerStopped, .queuesComb, .queuesCopies, .queuesOps, .queuesResults, .queuesSlipq, .regs, .remoteCounters, .remoteOutMsgs, .remoteOutStage, .remoteOverdue, .remoteRingCount, .remoteStaged, .remoteSyncs, .remoteTranslator, .replicasBallots, .replicasLfsr, .replicasPosts, .replicasScans, .replicasStrays, .replicasUnsafeRegs, .replicasWrappers, .securityAlarms, .securityClosing, .securityDenialSeen, .securityKeySlots, .securityLcBusy, .securityTransport, .streamsAborts, .streamsBarrierCount, .streamsBarrierRoot, .streamsCtxs, .streamsTiles, .streamsTokens, .supAllocs, .supAlmanacCount, .supAlmanacs, .supCatCorrected, .supCatFreed, .supCatReported, .supCatUpsets, .supCmds, .supEventNow, .supEvents, .supInputs, .supLastDispatch, .supNextEvent, .supNextSeq, .supQueued, .supSideOrder, .supStalled, .supTurn, .supW1cSet] : List StatePart)) (a0 : Sys2Proof.Machine.State) (a1 : Nat) (a2 : Bool) (a3 : Option Nat) :
    part (eraseDie a0 a1 a2 a3) p = part a0 p := by
  simp at h
  unfold eraseDie
  repeat' split
  all_goals simp [h]

@[simp] theorem fwSet_part (p : StatePart) (h : p ∉ ([.regs] : List StatePart)) (a0 : Sys2Proof.Machine.State) (a1 : Nat) (a2 : Nat) (a3 : Nat) :
    part (fwSet a0 a1 a2 a3) p = part a0 p := by
  simp at h
  unfold fwSet
  repeat' split
  all_goals simp [h]

@[simp] theorem settleCommit_part (p : StatePart) (h : p ∉ ([.draws, .flash] : List StatePart)) (a0 : Sys2Proof.Machine.State) (a1 : Nat) :
    part (settleCommit a0 a1) p = part a0 p := by
  simp at h
  unfold settleCommit
  repeat' (first | (simp [h]; done) | split | (dsimp only; split))

@[simp] theorem logCaches_part (p : StatePart) (h : p ∉ ([.regs, .supEventNow, .supEvents, .supNextEvent] : List StatePart)) (a0 : Sys2Proof.Machine.State) (a1 : Nat) (a2 : List (Nat × Nat)) :
    part (logCaches a0 a1 a2) p = part a0 p := by
  simp at h
  unfold logCaches
  repeat' split
  all_goals simp [h]

@[simp] theorem keepLog_part (p : StatePart) (h : p ∉ ([.supEvents, .supNextEvent] : List StatePart)) (a0 : Sys2Proof.Machine.State) (a1 : Sys2Proof.Machine.State) (a2 : Nat) :
    part (keepLog a0 a1 a2) p = part a0 p := by
  simp at h
  unfold keepLog
  exact onSup_events_nextEvent_part p _ _ _ (by simp [h]) (by simp [h])

@[simp] theorem resetDie_part (p : StatePart) (h : p ∉ ([.banksCacheLru, .banksCacheWays, .banksClassMap, .banksCollations, .banksFolioClears, .banksLastActive, .banksLost, .banksMerge, .banksPauses, .banksRawOps, .banksRemapCopies, .banksSealMap, .banksSeals, .banksTags, .banksValid, .banksZeroing, .boots, .draws, .fabricAccs, .fabricBooked, .fabricBudgets, .fabricClearWanted, .fabricCounters, .fabricDecided, .fabricGuestCount, .fabricGuestNext, .fabricGuestPending, .fabricGuests, .fabricHolds, .fabricLocks, .fabricPlan, .fabricPlanResv, .fabricRotation, .fabricSlots, .fabricSnapWanted, .fabricSnaps, .fabricSquallNow, .fabricSquallSeen, .fabricSqualls, .fabricTenures, .fabricUsedIn, .fabricUsedNext, .fabricWdogFenced, .flash, .pages, .pairHi, .pairLo, .powerDoms, .powerMarchDoms, .powerMarches, .powerPerf, .powerStopped, .queuesComb, .queuesCopies, .queuesOps, .queuesResults, .queuesSlipq, .regs, .remoteCounters, .remoteOutMsgs, .remoteOutStage, .remoteOverdue, .remoteRingCount, .remoteStaged, .remoteSyncs, .remoteTranslator, .replicasBallots, .replicasLfsr, .replicasPosts, .replicasScans, .replicasStrays, .replicasUnsafeRegs, .replicasWrappers, .securityAlarms, .securityClosing, .securityDenialSeen, .securityKeySlots, .securityLcBusy, .securityTransport, .streamsAborts, .streamsBarrierCount, .streamsBarrierRoot, .streamsCtxs, .streamsTiles, .streamsTokens, .supAllocs, .supAlmanacCount, .supAlmanacs, .supCatCorrected, .supCatFreed, .supCatReported, .supCatUpsets, .supCmds, .supEventNow, .supEvents, .supInputs, .supLastDispatch, .supNextEvent, .supNextSeq, .supQueued, .supSideOrder, .supStalled, .supTurn, .supW1cSet] : List StatePart)) (a0 : Sys2Proof.Machine.State) (a1 : Nat) (a2 : Nat) (a3 : Nat) (a4 : Bool) (a5 : Option Nat) :
    part (resetDie a0 a1 a2 a3 a4 a5) p = part a0 p := by
  simp at h
  unfold resetDie
  repeat' split
  all_goals simp [h]

@[simp] theorem activate_part (p : StatePart) (h : p ∉ ([.flash, .regs] : List StatePart)) (a0 : Sys2Proof.Machine.State) (a1 : Nat) :
    part (activate a0 a1) p = part a0 p := by
  simp at h
  unfold activate
  repeat' split
  all_goals simp [h]

@[simp] theorem measure_part (p : StatePart) (h : p ∉ ([.regs] : List StatePart)) (a0 : Sys2Proof.Machine.State) (a1 : Nat) (a2 : Nat) (a3 : List Sys2Proof.Byte) :
    part (measure a0 a1 a2 a3) p = part a0 p := by
  simp at h
  unfold Machine.measure
  simp [h]

@[simp] theorem romPhase_part (p : StatePart) (h : p ∉ ([.flash, .regs, .securityCertBad, .supEventNow, .supEvents, .supNextEvent] : List StatePart)) (a0 : Sys2Proof.Machine.State) (a1 : Nat) :
    part (romPhase a0 a1) p = part a0 p := by
  simp at h
  unfold romPhase
  repeat' split
  all_goals simp [h]

@[simp] theorem firmwarePhase_part (p : StatePart) (h : p ∉ ([.regs] : List StatePart)) (a0 : Sys2Proof.Machine.State) (a1 : Nat) :
    part (firmwarePhase a0 a1) p = part a0 p := by
  simp at h
  unfold firmwarePhase
  repeat' split
  all_goals simp [h]

@[simp] theorem applyFence_part (p : StatePart) (h : p ∉ ([.regs] : List StatePart)) (a0 : Sys2Proof.Machine.State) (a1 : Nat) (a2 : Nat) :
    part (applyFence a0 a1 a2) p = part a0 p := by
  simp at h
  unfold applyFence
  repeat' split
  all_goals simp [h]

@[simp] theorem applyRetire_part (p : StatePart) (h : p ∉ ([.banksZeroing, .regs] : List StatePart)) (a0 : Sys2Proof.Machine.State) (a1 : Nat) (a2 : Nat) (a3 : Nat) :
    part (applyRetire a0 a1 a2 a3) p = part a0 p := by
  simp at h
  unfold applyRetire
  repeat' split
  all_goals simp [h]

@[simp] theorem applyRemap_part (p : StatePart) (h : p ∉ ([.banksZeroing, .draws, .powerRecord, .regs, .replicasStrays, .replicasUnsafeRegs, .supEventNow, .supEvents, .supNextEvent] : List StatePart)) (a0 : Sys2Proof.Machine.State) (a1 : Nat) (a2 : Nat) (a3 : Nat) (a4 : Nat) :
    part (applyRemap a0 a1 a2 a3 a4) p = part a0 p := by
  simp at h
  unfold applyRemap
  repeat' (first | (simp [h]; done) | split | (dsimp only; split))

@[simp] theorem applyRepairs_part (p : StatePart) (h : p ∉ ([.banksZeroing, .draws, .powerRecord, .regs, .replicasStrays, .replicasUnsafeRegs, .supEventNow, .supEvents, .supNextEvent] : List StatePart)) (a0 : Sys2Proof.Machine.State) (a1 : Nat) :
    part (applyRepairs a0 a1) p = part a0 p := by
  simp at h
  unfold applyRepairs
  simp [h]
  repeat' (first | (simp [h]; done) | split | (intro _) | (refine (foldl_part p _ ?_ _ _).trans ?_; intro s a) | (dsimp only; split) | simp [h])

@[simp] theorem repairPhase_part (p : StatePart) (h : p ∉ ([.banksZeroing, .boots, .draws, .powerRecord, .regs, .replicasStrays, .replicasUnsafeRegs, .supEventNow, .supEvents, .supNextEvent] : List StatePart)) (a0 : Sys2Proof.Machine.State) (a1 : Nat) (a2 : Bool) :
    part (repairPhase a0 a1 a2) p = part a0 p := by
  simp at h
  unfold repairPhase
  repeat' split
  all_goals simp [h]

@[simp] theorem finishBoot_part (p : StatePart) (h : p ∉ ([.boots, .supLastDispatch] : List StatePart)) (a0 : Sys2Proof.Machine.State) (a1 : Nat) :
    part (finishBoot a0 a1) p = part a0 p := by
  simp at h
  unfold finishBoot
  repeat' split
  all_goals simp [h]

@[simp] theorem xcheckRest_part (p : StatePart) (h : p ∉ ([.fabricCounters, .replicasLfsr] : List StatePart)) (a0 : Sys2Proof.Machine.State) (a1 : Nat) :
    part (xcheckRest a0 a1) p = part a0 p := by
  simp at h
  unfold xcheckRest
  repeat' split
  all_goals simp [h]

@[simp] theorem afterMarch_part (p : StatePart) (h : p ∉ ([.boots, .supLastDispatch] : List StatePart)) (a0 : Sys2Proof.Machine.State) (a1 : Nat) :
    part (afterMarch a0 a1) p = part a0 p := by
  simp at h
  unfold afterMarch
  repeat' split
  all_goals simp [h]

@[simp] theorem afterRepair_part (p : StatePart) (h : p ∉ ([.banksLastActive, .banksPauses, .banksValid, .boots, .powerDoms, .powerMarchDoms, .powerMarches, .regs, .supAllocs, .supCmds, .supEventNow, .supEvents, .supInputs, .supLastDispatch, .supNextEvent, .supSideOrder, .supW1cSet] : List StatePart)) (a0 : Sys2Proof.Machine.State) (a1 : Nat) :
    part (afterRepair a0 a1) p = part a0 p := by
  simp at h
  unfold afterRepair
  repeat' split
  all_goals simp [h]

@[simp] theorem unlessClearing_part (p : StatePart) (s : State) (d : Nat) (t : State) (ht : part t p = part s p) :
    part (unlessClearing s d t) p = part s p := by
  unfold unlessClearing
  split
  · rfl
  · exact ht

@[simp] theorem phaseDone_part (p : StatePart) (h : p ∉ ([.banksLastActive, .banksPauses, .banksValid, .banksZeroing, .boots, .draws, .fabricCounters, .flash, .powerDoms, .powerMarchDoms, .powerMarches, .powerRecord, .regs, .replicasLfsr, .replicasStrays, .replicasUnsafeRegs, .securityCertBad, .supAllocs, .supCmds, .supEventNow, .supEvents, .supInputs, .supLastDispatch, .supNextEvent, .supSideOrder, .supW1cSet] : List StatePart)) (a0 : Sys2Proof.Machine.State) (a1 : Nat) (a2 : Bool) :
    part (phaseDone a0 a1 a2) p = part a0 p := by
  simp at h
  unfold phaseDone
  repeat' (first | (simp [h]; done) | split | (dsimp only; split))

@[simp] theorem ownChange_part (p : StatePart) (h : p ∉ ([.powerPerf] : List StatePart)) (a0 : Sys2Proof.Machine.State) (a1 : Nat) (a2 : BitVec 2) :
    part (ownChange a0 a1 a2) p = part a0 p := by
  simp at h
  unfold ownChange
  repeat' split
  all_goals simp [h]

@[simp] theorem hearBeacon_part (p : StatePart) (h : p ∉ ([.boots, .powerPerf] : List StatePart)) (a0 : Sys2Proof.Machine.State) (a1 : Nat) (a2 : Sys2Proof.Beacon) :
    part (hearBeacon a0 a1 a2) p = part a0 p := by
  simp at h
  unfold hearBeacon
  repeat' split
  all_goals simp [h]

@[simp] theorem openBypass_part (p : StatePart) (h : p ∉ ([.boots, .powerPerf] : List StatePart)) (a0 : Sys2Proof.Machine.State) (a1 : Nat) :
    part (openBypass a0 a1) p = part a0 p := by
  simp at h
  unfold openBypass
  repeat' (first | (simp [h]; done) | split | (dsimp only; split))

@[simp] theorem openMaster_part (p : StatePart) (h : p ∉ ([.boots, .frameBase, .powerPerf] : List StatePart)) (a0 : Sys2Proof.Machine.State) (a1 : Nat) :
    part (openMaster a0 a1) p = part a0 p := by
  simp at h
  unfold openMaster
  repeat' split
  all_goals simp [h]

@[simp] theorem settlePending_part (p : StatePart) (h : p ∉ ([.flash, .regs] : List StatePart)) (a0 : Sys2Proof.Machine.State) (a1 : Nat) :
    part (settlePending a0 a1) p = part a0 p := by
  simp at h
  unfold settlePending
  repeat' split
  all_goals simp [h]

@[simp] theorem commitAndReset_part (p : StatePart) (h : p ∉ ([.banksCacheLru, .banksCacheWays, .banksClassMap, .banksCollations, .banksFolioClears, .banksLastActive, .banksLost, .banksMerge, .banksPauses, .banksRawOps, .banksRemapCopies, .banksSealMap, .banksSeals, .banksTags, .banksValid, .banksZeroing, .boots, .draws, .fabricAccs, .fabricBooked, .fabricBudgets, .fabricClearWanted, .fabricCounters, .fabricDecided, .fabricGuestCount, .fabricGuestNext, .fabricGuestPending, .fabricGuests, .fabricHolds, .fabricLocks, .fabricPlan, .fabricPlanResv, .fabricRotation, .fabricSlots, .fabricSnapWanted, .fabricSnaps, .fabricSquallNow, .fabricSquallSeen, .fabricSqualls, .fabricTenures, .fabricUsedIn, .fabricUsedNext, .fabricWdogFenced, .flash, .pages, .pairHi, .pairLo, .powerDoms, .powerMarchDoms, .powerMarches, .powerPerf, .powerStopped, .queuesComb, .queuesCopies, .queuesOps, .queuesResults, .queuesSlipq, .regs, .remoteCounters, .remoteOutMsgs, .remoteOutStage, .remoteOverdue, .remoteRingCount, .remoteStaged, .remoteSyncs, .remoteTranslator, .replicasBallots, .replicasLfsr, .replicasPosts, .replicasScans, .replicasStrays, .replicasUnsafeRegs, .replicasWrappers, .securityAlarms, .securityClosing, .securityDenialSeen, .securityKeySlots, .securityLcBusy, .securityTransport, .streamsAborts, .streamsBarrierCount, .streamsBarrierRoot, .streamsCtxs, .streamsTiles, .streamsTokens, .supAllocs, .supAlmanacCount, .supAlmanacs, .supCatCorrected, .supCatFreed, .supCatReported, .supCatUpsets, .supCmds, .supEventNow, .supEvents, .supInputs, .supLastDispatch, .supNextEvent, .supNextSeq, .supQueued, .supSideOrder, .supStalled, .supTurn, .supW1cSet] : List StatePart)) (a0 : Sys2Proof.Machine.State) (a1 : Nat) :
    part (commitAndReset a0 a1) p = part a0 p := by
  simp at h
  unfold commitAndReset
  repeat' split
  all_goals simp [h]

@[simp] theorem openFollower_part (p : StatePart) (h : p ∉ ([.banksCacheLru, .banksCacheWays, .banksClassMap, .banksCollations, .banksFolioClears, .banksLastActive, .banksLost, .banksMerge, .banksPauses, .banksRawOps, .banksRemapCopies, .banksSealMap, .banksSeals, .banksTags, .banksValid, .banksZeroing, .boots, .draws, .fabricAccs, .fabricBooked, .fabricBudgets, .fabricClearWanted, .fabricCounters, .fabricDecided, .fabricGuestCount, .fabricGuestNext, .fabricGuestPending, .fabricGuests, .fabricHolds, .fabricLocks, .fabricPlan, .fabricPlanResv, .fabricRotation, .fabricSlots, .fabricSnapWanted, .fabricSnaps, .fabricSquallNow, .fabricSquallSeen, .fabricSqualls, .fabricTenures, .fabricUsedIn, .fabricUsedNext, .fabricWdogFenced, .flash, .pages, .pairHi, .pairLo, .powerDoms, .powerMarchDoms, .powerMarches, .powerPerf, .powerStopped, .queuesComb, .queuesCopies, .queuesOps, .queuesResults, .queuesSlipq, .regs, .remoteCounters, .remoteOutMsgs, .remoteOutStage, .remoteOverdue, .remoteRingCount, .remoteStaged, .remoteSyncs, .remoteTranslator, .replicasBallots, .replicasLfsr, .replicasPosts, .replicasScans, .replicasStrays, .replicasUnsafeRegs, .replicasWrappers, .securityAlarms, .securityClosing, .securityDenialSeen, .securityKeySlots, .securityLcBusy, .securityTransport, .streamsAborts, .streamsBarrierCount, .streamsBarrierRoot, .streamsCtxs, .streamsTiles, .streamsTokens, .supAllocs, .supAlmanacCount, .supAlmanacs, .supCatCorrected, .supCatFreed, .supCatReported, .supCatUpsets, .supCmds, .supEventNow, .supEvents, .supInputs, .supLastDispatch, .supNextEvent, .supNextSeq, .supQueued, .supSideOrder, .supStalled, .supTurn, .supW1cSet] : List StatePart)) (a0 : Sys2Proof.Machine.State) (a1 : Nat) (a2 : Nat) :
    part (openFollower a0 a1 a2) p = part a0 p := by
  simp at h
  unfold openFollower
  repeat' split
  all_goals simp [h]

@[simp] theorem takeCopies_part (p : StatePart) (h : p ∉ ([.regs, .replicasStrays, .replicasUnsafeRegs] : List StatePart)) (a0 : Sys2Proof.Machine.State) (a1 : Nat) (a2 : Nat) :
    part (takeCopies a0 a1 a2) p = part a0 p := by
  simp at h
  unfold takeCopies
  repeat' split
  all_goals simp [h]

@[simp] theorem rstCtlWrite_part (p : StatePart) (h : p ∉ ([.boots, .regs] : List StatePart)) (a0 : Sys2Proof.Machine.State) (a1 : Nat) (a2 : Nat) (a3 : Sys2Proof.Word) :
    part (rstCtlWrite a0 a1 a2 a3) p = part a0 p := by
  simp at h
  unfold rstCtlWrite
  repeat' split
  all_goals simp [h]

/-! ### Firmware -/

@[simp] theorem fwChecked_part (p : StatePart) (h : p ∉ ([.regs, .supAllocs, .supCmds, .supEventNow, .supEvents, .supInputs, .supNextEvent, .supSideOrder, .supW1cSet] : List StatePart)) (a0 : Sys2Proof.Machine.State) (a1 : Sys2Proof.CmdSrc) (a2 : List (Bool × Nat × Nat)) (a3 : State → State) (hf3 : ∀ s, part (a3 s) p = part s p) :
    part (fwChecked a0 a1 a2 a3) p = part a0 p := by
  simp at h
  unfold fwChecked
  repeat' (first | (simp [h, *]; done) | split | (intro _) | (refine (foldl_part p _ ?_ _ _).trans ?_; intro s a) | (dsimp only; split) | (simp [h, *]; split) | simp [h, *])

@[simp] theorem callOff_part (p : StatePart) (h : p ∉ ([.flash, .regs] : List StatePart)) (a0 : Sys2Proof.Machine.State) (a1 : Nat) (a2 : Nat) :
    part (callOff a0 a1 a2) p = part a0 p := by
  simp at h
  unfold callOff
  repeat' split
  all_goals simp [h]

/-! ### Supervisor -/

@[simp] theorem misuse_part (p : StatePart) (h : p ∉ ([.regs] : List StatePart)) (a0 : Sys2Proof.Machine.State) (a1 : Sys2Proof.CmdSrc) :
    part (misuse a0 a1) p = part a0 p := by
  simp at h
  unfold misuse
  repeat' split
  all_goals simp [h]

@[simp] theorem releaseSlot_part (p : StatePart) (h : p ∉ ([.regs] : List StatePart)) (a0 : Sys2Proof.Machine.State) (a1 : Sys2Proof.CmdSrc) :
    part (releaseSlot a0 a1) p = part a0 p := by
  simp at h
  unfold releaseSlot
  repeat' split
  all_goals simp [h]

@[simp] theorem goSlot_part (p : StatePart) (h : p ∉ ([.regs, .supAllocs, .supCmds, .supEventNow, .supEvents, .supInputs, .supNextEvent, .supNextSeq, .supQueued, .supSideOrder, .supW1cSet] : List StatePart)) (a0 : Sys2Proof.Machine.State) (a1 : Sys2Proof.CmdSrc) :
    part (goSlot a0 a1) p = part a0 p := by
  simp at h
  unfold goSlot
  repeat' split
  all_goals simp [h]

@[simp] theorem ctlWrite_part (p : StatePart) (h : p ∉ ([.regs, .supAllocs, .supCmds, .supEventNow, .supEvents, .supInputs, .supNextEvent, .supNextSeq, .supQueued, .supSideOrder, .supW1cSet] : List StatePart)) (a0 : Sys2Proof.Machine.State) (a1 : Sys2Proof.CmdSrc) (a2 : Sys2Proof.Word) :
    part (ctlWrite a0 a1 a2) p = part a0 p := by
  simp at h
  unfold ctlWrite
  repeat' split
  all_goals simp [h]

@[simp] theorem argWrite_part (p : StatePart) (h : p ∉ ([.regs] : List StatePart)) (a0 : Sys2Proof.Machine.State) (a1 : Sys2Proof.CmdSrc) (a2 : Nat) (a3 : Sys2Proof.Word) :
    part (argWrite a0 a1 a2 a3) p = part a0 p := by
  simp at h
  unfold argWrite
  repeat' split
  all_goals simp [h]

@[simp] theorem cmdCntWrite_part (p : StatePart) (h : p ∉ ([.regs] : List StatePart)) (a0 : Sys2Proof.Machine.State) (a1 : Nat) (a2 : Nat) (a3 : Sys2Proof.Word) :
    part (cmdCntWrite a0 a1 a2 a3) p = part a0 p := by
  simp at h
  unfold cmdCntWrite
  repeat' split
  all_goals simp [h]

@[simp] theorem countAlmanac_part (p : StatePart) (h : p ∉ ([.supAlmanacCount] : List StatePart)) (a0 : Sys2Proof.Machine.State) (a1 : Nat) :
    part (countAlmanac a0 a1) p = part a0 p := by
  simp at h
  unfold countAlmanac
  repeat' split
  all_goals simp [h]

@[simp] theorem popEvent_part (p : StatePart) (h : p ∉ ([.regs, .supEventNow, .supEvents] : List StatePart)) (a0 : Sys2Proof.Machine.State) (a1 : Nat) (a2 : Bool) :
    part (popEvent a0 a1 a2) p = part a0 p := by
  simp at h
  unfold popEvent
  repeat' (first | (simp [h]; done) | split | (dsimp only; split))

@[simp] theorem evlogCtlWrite_part (p : StatePart) (h : p ∉ ([.regs, .supEventNow, .supEvents] : List StatePart)) (a0 : Sys2Proof.Machine.State) (a1 : Nat) (a2 : Nat) (a3 : Sys2Proof.Word) :
    part (evlogCtlWrite a0 a1 a2 a3) p = part a0 p := by
  simp at h
  unfold evlogCtlWrite
  repeat' split
  all_goals simp [h]

/-! ### RegWrite -/

@[simp] theorem plainLast_part (p : StatePart) (h : p ∉ ([.regs] : List StatePart)) (a0 : Sys2Proof.Machine.State) (a1 : Nat) (a2 : Nat) (a3 : Sys2Proof.Machine.Reg) (a4 : Nat) (a5 : Sys2Proof.Word) :
    part (plainLast a0 a1 a2 a3 a4 a5) p = part a0 p := by
  simp at h
  unfold plainLast
  repeat' split
  all_goals simp [h]

@[simp] theorem plainZero_part (p : StatePart) (h : p ∉ ([.regs] : List StatePart)) (a0 : Sys2Proof.Machine.State) (a1 : Nat) (a2 : Nat) (a3 : Sys2Proof.Machine.Reg) (a4 : Nat) :
    part (plainZero a0 a1 a2 a3 a4) p = part a0 p := by
  simp at h
  unfold plainZero
  repeat' split
  all_goals simp [h]

@[simp] theorem secPolicyWrite_part (p : StatePart) (h : p ∉ ([.regs, .supEventNow, .supEvents, .supNextEvent] : List StatePart)) (a0 : Sys2Proof.Machine.State) (a1 : Nat) (a2 : Nat) (a3 : Sys2Proof.Word) :
    part (secPolicyWrite a0 a1 a2 a3) p = part a0 p := by
  simp at h
  unfold secPolicyWrite
  repeat' split
  all_goals simp [h]

@[simp] theorem secAlarmWrite_part (p : StatePart) (h : p ∉ ([.regs] : List StatePart)) (a0 : Sys2Proof.Machine.State) (a1 : Nat) (a2 : Nat) (a3 : Sys2Proof.Word) :
    part (secAlarmWrite a0 a1 a2 a3) p = part a0 p := by
  simp at h
  unfold secAlarmWrite
  repeat' split
  all_goals simp [h]

@[simp] theorem remNodeWrite_part (p : StatePart) (h : p ∉ ([.regs, .replicasStrays, .replicasUnsafeRegs, .supEventNow, .supEvents, .supNextEvent] : List StatePart)) (a0 : Sys2Proof.Machine.State) (a1 : Nat) (a2 : Nat) (a3 : Sys2Proof.Word) :
    part (remNodeWrite a0 a1 a2 a3) p = part a0 p := by
  simp at h
  unfold remNodeWrite
  repeat' split
  all_goals simp [h]

@[simp] theorem hostIrqWrite_part (p : StatePart) (h : p ∉ ([.regs] : List StatePart)) (a0 : Sys2Proof.Machine.State) (a1 : Nat) (a2 : Nat) (a3 : Sys2Proof.Word) :
    part (hostIrqWrite a0 a1 a2 a3) p = part a0 p := by
  simp at h
  unfold hostIrqWrite
  repeat' split
  all_goals simp [h]

@[simp] theorem xchkStatWrite_part (p : StatePart) (h : p ∉ ([.regs] : List StatePart)) (a0 : Sys2Proof.Machine.State) (a1 : Nat) (a2 : Nat) (a3 : Sys2Proof.Word) :
    part (xchkStatWrite a0 a1 a2 a3) p = part a0 p := by
  simp at h
  unfold xchkStatWrite
  repeat' split
  all_goals simp [h]

@[simp] theorem rawCmdRegWrite_part (p : StatePart) (h : p ∉ ([.banksRawOps, .regs] : List StatePart)) (a0 : Sys2Proof.Machine.State) (a1 : Nat) (a2 : Nat) (a3 : Sys2Proof.Word) :
    part (rawCmdRegWrite a0 a1 a2 a3) p = part a0 p := by
  simp at h
  unfold rawCmdRegWrite
  repeat' split
  all_goals simp [h]

@[simp] theorem ecntWrite_part (p : StatePart) (h : p ∉ ([.regs] : List StatePart)) (a0 : Sys2Proof.Machine.State) (a1 : Nat) (a2 : Nat) (a3 : Nat) (a4 : Sys2Proof.Word) :
    part (ecntWrite a0 a1 a2 a3 a4) p = part a0 p := by
  simp at h
  unfold ecntWrite
  repeat' split
  all_goals simp [h]

@[simp] theorem rangeWrite_part (p : StatePart) (h : p ∉ ([.regs, .replicasStrays, .replicasUnsafeRegs, .supEventNow, .supEvents, .supNextEvent] : List StatePart)) (a0 : Sys2Proof.Machine.State) (a1 : Nat) (a2 : Nat) (a3 : Nat) (a4 : Nat → Sys2Proof.Machine.Reg) (a5 : Nat) (a6 : Nat) (a7 : Nat) (a8 : List Nat) (a9 : Sys2Proof.Word) :
    part (rangeWrite a0 a1 a2 a3 a4 a5 a6 a7 a8 a9) p = part a0 p := by
  simp at h
  unfold rangeWrite
  repeat' split
  all_goals simp [h]

@[simp] theorem storeRangeWrite_part (p : StatePart) (h : p ∉ ([.regs, .replicasStrays, .replicasUnsafeRegs, .supEventNow, .supEvents, .supNextEvent] : List StatePart)) (a0 : Sys2Proof.Machine.State) (a1 : Nat) (a2 : Nat) (a3 : Nat) (a4 : Nat) (a5 : Sys2Proof.Word) :
    part (storeRangeWrite a0 a1 a2 a3 a4 a5) p = part a0 p := by
  simp at h
  unfold storeRangeWrite
  repeat' split
  all_goals simp [h]

@[simp] theorem tagWrite_part (p : StatePart) (h : p ∉ ([.regs, .replicasStrays, .replicasUnsafeRegs, .supEventNow, .supEvents, .supNextEvent] : List StatePart)) (a0 : Sys2Proof.Machine.State) (a1 : Nat) (a2 : Nat) (a3 : Sys2Proof.Machine.Reg) (a4 : Option Nat) (a5 : Sys2Proof.Word) :
    part (tagWrite a0 a1 a2 a3 a4 a5) p = part a0 p := by
  simp at h
  unfold tagWrite
  repeat' split
  all_goals simp [h]

@[simp] theorem groupWrite_part (p : StatePart) (h : p ∉ ([.regs, .replicasStrays, .replicasUnsafeRegs, .supEventNow, .supEvents, .supNextEvent] : List StatePart)) (a0 : Sys2Proof.Machine.State) (a1 : Nat) (a2 : Nat) (a3 : Nat) (a4 : Nat) (a5 : Sys2Proof.Word) :
    part (groupWrite a0 a1 a2 a3 a4 a5) p = part a0 p := by
  simp at h
  unfold groupWrite
  repeat' split
  all_goals simp [h]

@[simp] theorem burstWrite_part (p : StatePart) (h : p ∉ ([.regs, .replicasStrays, .replicasUnsafeRegs, .supEventNow, .supEvents, .supNextEvent] : List StatePart)) (a0 : Sys2Proof.Machine.State) (a1 : Nat) (a2 : Nat) (a3 : Nat) (a4 : Sys2Proof.Word) :
    part (burstWrite a0 a1 a2 a3 a4) p = part a0 p := by
  simp at h
  unfold burstWrite
  repeat' split
  all_goals simp [h]

@[simp] theorem budgetWrite_part (p : StatePart) (h : p ∉ ([.regs, .replicasStrays, .replicasUnsafeRegs, .supEventNow, .supEvents, .supNextEvent] : List StatePart)) (a0 : Sys2Proof.Machine.State) (a1 : Nat) (a2 : Nat) (a3 : Nat) (a4 : Sys2Proof.Word) :
    part (budgetWrite a0 a1 a2 a3 a4) p = part a0 p := by
  simp at h
  unfold budgetWrite
  repeat' split
  all_goals simp [h]

@[simp] theorem guestSend_part (p : StatePart) (h : p ∉ ([.fabricGuestPending] : List StatePart)) (a0 : Sys2Proof.Machine.State) (a1 : Nat) (a2 : Nat) :
    part (guestSend a0 a1 a2) p = part a0 p := by
  simp at h
  unfold guestSend
  repeat' split
  all_goals simp [h]

@[simp] theorem guestRefuse_part (p : StatePart) (h : p ∉ ([.regs, .supEventNow, .supEvents, .supNextEvent] : List StatePart)) (a0 : Sys2Proof.Machine.State) (a1 : Nat) (a2 : Nat) (a3 : Sys2Proof.Machine.Reg) (a4 : Nat) :
    part (guestRefuse a0 a1 a2 a3 a4) p = part a0 p := by
  simp at h
  unfold guestRefuse
  repeat' split
  all_goals simp [h]

@[simp] theorem guestIdWrite_part (p : StatePart) (h : p ∉ ([.fabricGuestPending, .regs, .replicasStrays, .replicasUnsafeRegs, .supEventNow, .supEvents, .supNextEvent] : List StatePart)) (a0 : Sys2Proof.Machine.State) (a1 : Nat) (a2 : Nat) (a3 : Nat) (a4 : Sys2Proof.Word) :
    part (guestIdWrite a0 a1 a2 a3 a4) p = part a0 p := by
  simp at h
  unfold guestIdWrite
  repeat' split
  all_goals simp [h]

@[simp] theorem guestLimWrite_part (p : StatePart) (h : p ∉ ([.fabricGuestPending, .regs, .replicasStrays, .replicasUnsafeRegs, .supEventNow, .supEvents, .supNextEvent] : List StatePart)) (a0 : Sys2Proof.Machine.State) (a1 : Nat) (a2 : Nat) (a3 : Nat) (a4 : Sys2Proof.Word) :
    part (guestLimWrite a0 a1 a2 a3 a4) p = part a0 p := by
  simp at h
  unfold guestLimWrite
  repeat' split
  all_goals simp [h]

@[simp] theorem resvWrite_part (p : StatePart) (h : p ∉ ([.regs, .replicasStrays, .replicasUnsafeRegs, .supEventNow, .supEvents, .supNextEvent] : List StatePart)) (a0 : Sys2Proof.Machine.State) (a1 : Nat) (a2 : Nat) (a3 : Nat) (a4 : Nat) (a5 : Sys2Proof.Word) :
    part (resvWrite a0 a1 a2 a3 a4 a5) p = part a0 p := by
  simp at h
  unfold resvWrite
  repeat' split
  all_goals simp [h]

@[simp] theorem windowWrite_part (p : StatePart) (h : p ∉ ([.banksCollations, .banksLastActive, .banksMerge, .banksPauses, .banksRawOps, .banksRemapCopies, .banksSealMap, .banksSeals, .banksTags, .banksValid, .banksZeroing, .boots, .fabricClearWanted, .fabricCounters, .fabricGuestPending, .fabricNextSlot, .fabricPlan, .fabricSlots, .fabricSnapWanted, .fabricSquallNow, .fabricSqualls, .out, .powerDoms, .powerMarchDoms, .powerMarches, .queuesComb, .queuesCopies, .queuesNextOp, .queuesOps, .queuesResults, .queuesSlipq, .regs, .remoteCounters, .remoteOutMsgs, .remoteOutStage, .remoteRingCount, .remoteStaged, .remoteTranslator, .replicasBallots, .replicasStrays, .replicasUnsafeRegs, .streamsAborts, .streamsCtxs, .streamsTiles, .supAllocs, .supCatCorrected, .supCatReported, .supCmds, .supEventNow, .supEvents, .supInputs, .supNextEvent, .supNextSeq, .supQueued, .supSideOrder, .supW1cSet] : List StatePart)) (a0 : Sys2Proof.Machine.State) (a1 : Nat) (a2 : Nat) (a3 : Sys2Proof.Word) (a4 : Sys2Proof.Machine.Reg) :
    part (windowWrite a0 a1 a2 a3 a4) p = part a0 p := by
  simp at h
  unfold windowWrite
  repeat' split
  all_goals simp [h]

@[simp] theorem pairCommit_part (p : StatePart) (h : p ∉ ([.queuesCopies, .regs, .replicasLfsr, .replicasStrays, .replicasUnsafeRegs, .supEventNow, .supEvents, .supNextEvent] : List StatePart)) (a0 : Sys2Proof.Machine.State) (a1 : Nat) (a2 : Nat) (a3 : Sys2Proof.Machine.Reg) (a4 : Sys2Proof.Word) (a5 : Sys2Proof.Word) :
    part (pairCommit a0 a1 a2 a3 a4 a5) p = part a0 p := by
  simp at h
  unfold pairCommit
  repeat' split
  all_goals simp [h]

@[simp] theorem halfWrite_part (p : StatePart) (h : p ∉ ([.pairHi, .pairLo, .queuesCopies, .regs, .replicasLfsr, .replicasStrays, .replicasUnsafeRegs, .supEventNow, .supEvents, .supNextEvent] : List StatePart)) (a0 : Sys2Proof.Machine.State) (a1 : Nat) (a2 : Nat) (a3 : Sys2Proof.Machine.Reg) (a4 : Nat) (a5 : Bool) (a6 : Sys2Proof.Word) :
    part (halfWrite a0 a1 a2 a3 a4 a5 a6) p = part a0 p := by
  simp at h
  unfold halfWrite
  dsimp only
  have e : part { a0 with pairHi := SMap.erase a0.pairHi (pairKey a1 a2 a4) } p = part a0 p := set_pairHi_part p _ _ (by simp [h])
  split
  · rw [pairCommit_part p (by simp [h])]
    exact (set_pairLo_part p _ _ (by simp [h])).trans e
  · exact (set_pairLo_part p _ _ (by simp [h])).trans e

@[simp] theorem offsetWrite_part (p : StatePart) (h : p ∉ ([.banksCollations, .banksLastActive, .banksMerge, .banksPauses, .banksRawOps, .banksRemapCopies, .banksSealMap, .banksSeals, .banksTags, .banksValid, .banksZeroing, .boots, .fabricClearWanted, .fabricCounters, .fabricGuestPending, .fabricNextSlot, .fabricPlan, .fabricSlots, .fabricSnapWanted, .fabricSquallNow, .fabricSqualls, .out, .pages, .pairHi, .pairLo, .powerDoms, .powerMarchDoms, .powerMarches, .queuesComb, .queuesCopies, .queuesNextOp, .queuesOps, .queuesResults, .queuesSlipq, .regs, .remoteCounters, .remoteOutMsgs, .remoteOutStage, .remoteRingCount, .remoteStaged, .remoteTranslator, .replicasBallots, .replicasLfsr, .replicasStrays, .replicasUnsafeRegs, .streamsAborts, .streamsCtxs, .streamsTiles, .supAllocs, .supCatCorrected, .supCatReported, .supCmds, .supEventNow, .supEvents, .supInputs, .supNextEvent, .supNextSeq, .supQueued, .supSideOrder, .supW1cSet] : List StatePart)) (a0 : Sys2Proof.Machine.State) (a1 : Nat) (a2 : Nat) (a3 : Nat) (a4 : Sys2Proof.Word) :
    part (offsetWrite a0 a1 a2 a3 a4) p = part a0 p := by
  simp at h
  unfold offsetWrite
  repeat' split
  all_goals simp [h]

@[simp] theorem hallWrite_part (p : StatePart) (h : p ∉ ([.banksCollations, .banksLastActive, .banksMerge, .banksPauses, .banksValid, .fabricNextSlot, .fabricSlots, .powerDoms, .queuesNextOp, .queuesOps, .regs, .remoteTranslator, .supAllocs, .supCmds, .supEventNow, .supEvents, .supInputs, .supNextEvent, .supNextSeq, .supQueued, .supSideOrder, .supW1cSet] : List StatePart)) (a0 : Sys2Proof.Machine.State) (a1 : Nat) (a2 : Nat) (a3 : Nat) (a4 : Sys2Proof.Word) :
    part (hallWrite a0 a1 a2 a3 a4) p = part a0 p := by
  simp at h
  unfold hallWrite
  repeat' split
  all_goals simp [h]

/-! ### Step -/

@[simp] theorem State_withFetchWord_part (p : StatePart) (h : p ∉ ([.pending] : List StatePart)) (a0 : Sys2Proof.Machine.State) (a1 : Nat) (a2 : Nat) :
    part (State.withFetchWord a0 a1 a2) p = part a0 p := by
  simp at h
  unfold State.withFetchWord
  repeat' split
  all_goals simp [h]

end Sys2Proof.Laws
end

