-- ==== Sys2Proof/Laws/Commands.lean ====
section
/-! SUPPORT. What each command leaves alone: one lemma per meaning, for every part of State but the ones it lists. -/

namespace Sys2Proof.Laws

open Sys2Proof Sys2Proof.Machine

theorem act_part (p : StatePart) (s : State) (ds : List Nat) (t : State) (h : p ≠ .pending → p ≠ .package → part t p = part s p) :
    ∀ u, act s ds t = .next u → part u p = part s p := by
  intro u hu
  unfold act at hu
  split at hu
  · injection hu with hu
    subst hu
    by_cases h1 : p = .pending
    · subst h1; rfl
    by_cases h2 : p = .package
    · subst h2; rfl
    rw [← h h1 h2]
    cases p <;> first | rfl | contradiction
  · cases hu

theorem cmdAct_part (p : StatePart) (s : State) (src : CmdSrc) (op : Nat)
    (go : State → State) (hg : p ≠ .pending → p ≠ .package → ∀ s, part (go s) p = part s p) :
    ∀ u, cmdAct s src op go = .next u → part u p = part s p := by
  unfold cmdAct
  refine act_part p _ _ _ (fun h1 h2 => ?_)
  repeat' split
  · rfl
  · exact hg h1 h2 _

theorem turnAct_part (p : StatePart)
    (h : p ∉ ([.banksCollations, .banksLastActive, .banksMem, .banksMerge, .banksPauses, .banksSeals, .banksValid, .draws, .fabricAccs, .fabricBooked, .fabricCounters, .fabricHolds, .fabricSlots, .now, .powerDoms, .regs, .remoteOutMsgs, .replicasBaroCorr, .replicasStrays, .streamsCtxs, .streamsTokens, .supEventNow, .supEvents, .supNextEvent] : List StatePart)) (s : State) (c : CtxId)
    (f : SInstr → Option (State → State))
    (hf : p ≠ .pending → p ≠ .package → ∀ i g, f i = some g → ∀ s, part (g s) p = part s p) :
    ∀ u, turnAct s c f = .next u → part u p = part s p := by
  unfold turnAct
  exact act_part p _ _ _ (fun h1 h2 => turn_part p h _ _ _ (hf h1 h2))

/-! ### Cache -/

theorem execCarrelCacheEnter_part (p : StatePart) (h : p ∉ ([.banksCollations, .banksLastActive, .banksMerge, .banksPauses, .banksValid, .fabricNextSlot, .fabricSlots, .powerDoms, .regs, .remoteTranslator] : List StatePart)) (a0 : Sys2Proof.Die) (a1 : Sys2Proof.CoreNo) (a2 : Sys2Proof.CarrelWriter) (a3 : Sys2Proof.Word) (a4 : Sys2Proof.Machine.State) :
    ∀ t, execCarrelCacheEnter a0 a1 a2 a3 a4 = .next t → part t p = part a4 p := by
  simp at h
  unfold execCarrelCacheEnter
  refine act_part p _ _ _ (fun h1 h2 => ?_)
  simp [h]

theorem execCarrelCacheExit_part (p : StatePart) (h : p ∉ ([.banksCollations, .banksLastActive, .banksMerge, .banksPauses, .banksValid, .fabricNextSlot, .fabricSlots, .powerDoms, .regs, .remoteTranslator] : List StatePart)) (a0 : Sys2Proof.Die) (a1 : Sys2Proof.CoreNo) (a2 : Sys2Proof.CarrelWriter) (a3 : Sys2Proof.Word) (a4 : Sys2Proof.Machine.State) :
    ∀ t, execCarrelCacheExit a0 a1 a2 a3 a4 = .next t → part t p = part a4 p := by
  simp at h
  unfold execCarrelCacheExit
  refine act_part p _ _ _ (fun h1 h2 => ?_)
  simp [h]

theorem execCarrelClearEnd_part (p : StatePart) (h : p ∉ ([.banksCacheLru, .banksCacheWays, .banksCollations, .banksLastActive, .banksMem, .banksMerge, .banksPauses, .banksSeals, .banksValid, .draws, .fabricAccs, .fabricBooked, .fabricCounters, .fabricHolds, .fabricNextSlot, .fabricSlots, .now, .powerDoms, .regs, .remoteOutMsgs, .remoteTranslator, .replicasBaroCorr, .replicasStrays, .streamsCtxs, .streamsTokens, .supEventNow, .supEvents, .supNextEvent] : List StatePart)) (a0 : Sys2Proof.Die) (a1 : Sys2Proof.CoreNo) (a2 : Sys2Proof.Machine.State) :
    ∀ t, execCarrelClearEnd a0 a1 a2 = .next t → part t p = part a2 p := by
  simp at h
  unfold execCarrelClearEnd
  refine act_part p _ _ _ (fun h1 h2 => ?_)
  repeat' split
  all_goals simp [h]

theorem execPlainAccessRequest_part (p : StatePart) (h : p ∉ ([.banksCacheWays, .banksCollations, .banksLastActive, .banksMerge, .banksPauses, .banksValid, .fabricCounters, .fabricNextSlot, .fabricSlots, .out, .powerDoms, .regs, .remoteTranslator] : List StatePart)) (a0 : Sys2Proof.Die) (a1 : Sys2Proof.CoreNo) (a2 : Sys2Proof.OwnerPort) (a3 : Bool) (a4 : Sys2Proof.AccessTarget) (a5 : Nat) (a6 : List Sys2Proof.Byte) (a7 : Sys2Proof.Machine.State) :
    ∀ t, execPlainAccessRequest a0 a1 a2 a3 a4 a5 a6 a7 = .next t → part t p = part a7 p := by
  simp at h
  unfold execPlainAccessRequest
  refine act_part p _ _ _ (fun h1 h2 => ?_)
  simp [h]

theorem execHostWindowAccess_part (p : StatePart) (h : p ∉ ([.banksCollations, .banksLastActive, .banksMerge, .banksPauses, .banksValid, .fabricNextSlot, .fabricSlots, .out, .powerDoms, .regs, .remoteTranslator] : List StatePart)) (a0 : Sys2Proof.Die) (a1 : Sys2Proof.HostVia) (a2 : Sys2Proof.Win) (a3 : Bool) (a4 : Sys2Proof.TA) (a5 : Nat) (a6 : List Sys2Proof.Byte) (a7 : Sys2Proof.Machine.State) :
    ∀ t, execHostWindowAccess a0 a1 a2 a3 a4 a5 a6 a7 = .next t → part t p = part a7 p := by
  simp at h
  unfold execHostWindowAccess
  refine act_part p _ _ _ (fun h1 h2 => ?_)
  simp [h]

/-! ### Arbiter -/

theorem execPositionDecision_part (p : StatePart) (h : p ∉ ([.banksCacheLru, .banksCacheWays, .banksCollations, .banksLastActive, .banksMem, .banksMerge, .banksPauses, .banksSealMap, .banksSeals, .banksValid, .draws, .fabricAccs, .fabricBooked, .fabricCounters, .fabricDecided, .fabricHolds, .fabricJoint, .fabricPlanResv, .fabricRotation, .fabricSlots, .fabricSquallNow, .fabricSquallSeen, .fabricSqualls, .fabricTenures, .fabricUsedCc, .fabricUsedIn, .fabricUsedNext, .now, .powerDoms, .regs, .remoteOutMsgs, .replicasBaroCorr, .replicasStrays, .securityDenialSeen, .streamsCtxs, .streamsTokens, .supCatCorrected, .supCatReported, .supEventNow, .supEvents, .supNextEvent] : List StatePart)) (a0 : Sys2Proof.Die) (a1 : BitVec 7) (a2 : Sys2Proof.Machine.State) :
    ∀ t, execPositionDecision a0 a1 a2 = .next t → part t p = part a2 p := by
  simp at h
  unfold execPositionDecision
  refine act_part p _ _ _ (fun h1 h2 => ?_)
  simp [h]

theorem execVisitorDecision_part (p : StatePart) (h : p ∉ ([.banksCacheLru, .banksCacheWays, .banksCollations, .banksLastActive, .banksMem, .banksMerge, .banksPauses, .banksSealMap, .banksSeals, .banksValid, .draws, .fabricAccs, .fabricBooked, .fabricCounters, .fabricDecided, .fabricHolds, .fabricJoint, .fabricPlanResv, .fabricRotation, .fabricSlots, .fabricSquallNow, .fabricSquallSeen, .fabricSqualls, .fabricTenures, .fabricUsedCc, .fabricUsedIn, .fabricUsedNext, .now, .powerDoms, .regs, .remoteOutMsgs, .replicasBaroCorr, .replicasStrays, .securityDenialSeen, .streamsCtxs, .streamsTokens, .supCatCorrected, .supCatReported, .supEventNow, .supEvents, .supNextEvent] : List StatePart)) (a0 : Sys2Proof.Die) (a1 : Sys2Proof.CoreNo) (a2 : BitVec 7) (a3 : Sys2Proof.Machine.State) :
    ∀ t, execVisitorDecision a0 a1 a2 a3 = .next t → part t p = part a3 p := by
  simp at h
  unfold execVisitorDecision
  refine act_part p _ _ _ (fun h1 h2 => ?_)
  simp [h]

theorem execCarrelSwitchGrant_part (p : StatePart) (h : p ∉ ([.banksCacheLru, .banksCacheWays, .banksCollations, .banksLastActive, .banksMem, .banksMerge, .banksPauses, .banksSealMap, .banksSeals, .banksValid, .draws, .fabricAccs, .fabricBooked, .fabricCounters, .fabricHolds, .fabricNextSlot, .fabricSlots, .fabricUsedCc, .fabricUsedIn, .fabricUsedNext, .now, .powerDoms, .regs, .remoteOutMsgs, .remoteTranslator, .replicasBaroCorr, .replicasStrays, .securityDenialSeen, .streamsCtxs, .streamsTokens, .supCatCorrected, .supCatReported, .supEventNow, .supEvents, .supNextEvent] : List StatePart)) (a0 : Sys2Proof.Die) (a1 : Sys2Proof.CoreNo) (a2 : Sys2Proof.OwnerPort) (a3 : Sys2Proof.Machine.State) :
    ∀ t, execCarrelSwitchGrant a0 a1 a2 a3 = .next t → part t p = part a3 p := by
  simp at h
  unfold execCarrelSwitchGrant
  refine act_part p _ _ _ (fun h1 h2 => ?_)
  repeat' split
  all_goals simp [h]

theorem execRingPlanCollect_part (p : StatePart) (h : p ∉ ([.banksCollations, .banksLastActive, .banksMem, .banksMerge, .banksPauses, .banksSeals, .banksValid, .draws, .fabricAccs, .fabricBooked, .fabricCounters, .fabricGuestCount, .fabricGuestNext, .fabricHolds, .fabricPlan, .fabricSlots, .now, .powerDoms, .regs, .remoteOutMsgs, .replicasBaroCorr, .replicasStrays, .streamsCtxs, .streamsTokens, .supCatCorrected, .supCatReported, .supEventNow, .supEvents, .supNextEvent] : List StatePart)) (a0 : Sys2Proof.Die) (a1 : Sys2Proof.Machine.State) :
    ∀ t, execRingPlanCollect a0 a1 = .next t → part t p = part a1 p := by
  simp at h
  unfold execRingPlanCollect
  refine act_part p _ _ _ (fun h1 h2 => ?_)
  repeat' (first | (simp [h, *]; done) | split | (refine atCycle_part p (by simp [h]) _ _ _ (fun s => ?_)) | (refine (foldl_part p _ ?_ _ _).trans ?_; intro s a) | (dsimp only; split) | (simp [h, *]; split) | simp [h, *])

theorem execRingPlanInForce_part (p : StatePart) (h : p ∉ ([.draws, .fabricBooked, .fabricCounters, .fabricGuestCount, .fabricGuestNext, .fabricHolds, .fabricPlan, .fabricPlanResv, .fabricSlots] : List StatePart)) (a0 : Sys2Proof.Machine.State) :
    ∀ t, execRingPlanInForce a0 = .next t → part t p = part a0 p := by
  simp at h
  unfold execRingPlanInForce
  refine act_part p _ _ _ (fun h1 h2 => ?_)
  split
  · have e : part (if a0.fabric.plan.granted.isNone && a0.fabric.plan.frame + 2 = a0.frame && !a0.fabric.plan.dies.isEmpty
        then computePlan a0 else a0) p = part a0 p := by
      rw [part_ite, computePlan_part p (by simp [h]), ite_self]
    generalize (if a0.fabric.plan.granted.isNone && a0.fabric.plan.frame + 2 = a0.frame && !a0.fabric.plan.dies.isEmpty
        then computePlan a0 else a0) = s1 at e
    dsimp only
    repeat' (first | exact e | split | (refine (foldl_part p _ ?_ _ _).trans ?_; intro s a) | (simp [h, e]; done) | (dsimp only; split) | simp [h, e])
  · rfl

/-! ### StreamControl -/

theorem execLoop_part (p : StatePart) (h : p ∉ ([.banksCollations, .banksLastActive, .banksMem, .banksMerge, .banksPauses, .banksSeals, .banksValid, .draws, .fabricAccs, .fabricBooked, .fabricCounters, .fabricHolds, .fabricSlots, .now, .powerDoms, .regs, .remoteOutMsgs, .replicasBaroCorr, .replicasStrays, .streamsCtxs, .streamsTokens, .supEventNow, .supEvents, .supNextEvent] : List StatePart)) (a0 : Sys2Proof.CtxId) (a1 : Sys2Proof.Machine.State) :
    ∀ t, execLoop a0 a1 = .next t → part t p = part a1 p := by
  simp at h
  unfold execLoop
  refine turnAct_part p (by simp [h]) _ _ _ (fun h1 h2 i g hg s => ?_)
  split at hg
  all_goals first | cases hg | (injection hg with hg; subst hg)
  simp [h]

theorem execEndl_part (p : StatePart) (h : p ∉ ([.banksCollations, .banksLastActive, .banksMem, .banksMerge, .banksPauses, .banksSeals, .banksValid, .draws, .fabricAccs, .fabricBooked, .fabricCounters, .fabricHolds, .fabricSlots, .now, .powerDoms, .regs, .remoteOutMsgs, .replicasBaroCorr, .replicasStrays, .streamsCtxs, .streamsTokens, .supEventNow, .supEvents, .supNextEvent] : List StatePart)) (a0 : Sys2Proof.CtxId) (a1 : Sys2Proof.Machine.State) :
    ∀ t, execEndl a0 a1 = .next t → part t p = part a1 p := by
  simp at h
  unfold execEndl
  refine turnAct_part p (by simp [h]) _ _ _ (fun h1 h2 i g hg s => ?_)
  split at hg
  all_goals first | cases hg | (injection hg with hg; subst hg)
  simp [h]

theorem execBr_part (p : StatePart) (h : p ∉ ([.banksCollations, .banksLastActive, .banksMem, .banksMerge, .banksPauses, .banksSeals, .banksValid, .draws, .fabricAccs, .fabricBooked, .fabricCounters, .fabricHolds, .fabricSlots, .now, .powerDoms, .regs, .remoteOutMsgs, .replicasBaroCorr, .replicasStrays, .streamsCtxs, .streamsTokens, .supEventNow, .supEvents, .supNextEvent] : List StatePart)) (a0 : Sys2Proof.CtxId) (a1 : Sys2Proof.Machine.State) :
    ∀ t, execBr a0 a1 = .next t → part t p = part a1 p := by
  simp at h
  unfold execBr
  refine turnAct_part p (by simp [h]) _ _ _ (fun h1 h2 i g hg s => ?_)
  split at hg
  all_goals first | cases hg | (injection hg with hg; subst hg)
  simp [h]

theorem execSetI_part (p : StatePart) (h : p ∉ ([.banksCollations, .banksLastActive, .banksMem, .banksMerge, .banksPauses, .banksSeals, .banksValid, .draws, .fabricAccs, .fabricBooked, .fabricCounters, .fabricHolds, .fabricSlots, .now, .powerDoms, .regs, .remoteOutMsgs, .replicasBaroCorr, .replicasStrays, .streamsCtxs, .streamsTokens, .supEventNow, .supEvents, .supNextEvent] : List StatePart)) (a0 : Sys2Proof.CtxId) (a1 : Sys2Proof.Machine.State) :
    ∀ t, execSetI a0 a1 = .next t → part t p = part a1 p := by
  simp at h
  unfold execSetI
  refine turnAct_part p (by simp [h]) _ _ _ (fun h1 h2 i g hg s => ?_)
  split at hg
  all_goals first | cases hg | (injection hg with hg; subst hg)
  simp [h]

theorem execStepI_part (p : StatePart) (h : p ∉ ([.banksCollations, .banksLastActive, .banksMem, .banksMerge, .banksPauses, .banksSeals, .banksValid, .draws, .fabricAccs, .fabricBooked, .fabricCounters, .fabricHolds, .fabricSlots, .now, .powerDoms, .regs, .remoteOutMsgs, .replicasBaroCorr, .replicasStrays, .streamsCtxs, .streamsTokens, .supEventNow, .supEvents, .supNextEvent] : List StatePart)) (a0 : Sys2Proof.CtxId) (a1 : Sys2Proof.Machine.State) :
    ∀ t, execStepI a0 a1 = .next t → part t p = part a1 p := by
  simp at h
  unfold execStepI
  refine turnAct_part p (by simp [h]) _ _ _ (fun h1 h2 i g hg s => ?_)
  split at hg
  all_goals first | cases hg | (injection hg with hg; subst hg)
  simp [h]

theorem execSeth_part (p : StatePart) (h : p ∉ ([.banksCollations, .banksLastActive, .banksMem, .banksMerge, .banksPauses, .banksSeals, .banksValid, .draws, .fabricAccs, .fabricBooked, .fabricCounters, .fabricHolds, .fabricSlots, .now, .powerDoms, .regs, .remoteOutMsgs, .replicasBaroCorr, .replicasStrays, .streamsCtxs, .streamsTokens, .supEventNow, .supEvents, .supNextEvent] : List StatePart)) (a0 : Sys2Proof.CtxId) (a1 : Sys2Proof.Machine.State) :
    ∀ t, execSeth a0 a1 = .next t → part t p = part a1 p := by
  simp at h
  unfold execSeth
  refine turnAct_part p (by simp [h]) _ _ _ (fun h1 h2 i g hg s => ?_)
  split at hg
  all_goals first | cases hg | (injection hg with hg; subst hg)
  simp [h]

theorem execEndI_part (p : StatePart) (h : p ∉ ([.banksCollations, .banksLastActive, .banksMem, .banksMerge, .banksPauses, .banksSealMap, .banksSeals, .banksValid, .draws, .fabricAccs, .fabricBooked, .fabricCounters, .fabricHolds, .fabricSlots, .now, .powerDoms, .regs, .remoteOutMsgs, .replicasBaroCorr, .replicasStrays, .streamsCtxs, .streamsTokens, .supEventNow, .supEvents, .supNextEvent] : List StatePart)) (a0 : Sys2Proof.CtxId) (a1 : Sys2Proof.Machine.State) :
    ∀ t, execEndI a0 a1 = .next t → part t p = part a1 p := by
  simp at h
  unfold execEndI
  refine turnAct_part p (by simp [h]) _ _ _ (fun h1 h2 i g hg s => ?_)
  split at hg
  all_goals first | cases hg | (injection hg with hg; subst hg)
  simp [h]

theorem execFence_part (p : StatePart) (h : p ∉ ([.banksCollations, .banksLastActive, .banksMem, .banksMerge, .banksPauses, .banksSeals, .banksValid, .draws, .fabricAccs, .fabricBooked, .fabricCounters, .fabricHolds, .fabricSlots, .now, .powerDoms, .regs, .remoteOutMsgs, .replicasBaroCorr, .replicasStrays, .streamsCtxs, .streamsTokens, .supEventNow, .supEvents, .supNextEvent] : List StatePart)) (a0 : Sys2Proof.CtxId) (a1 : Sys2Proof.Machine.State) :
    ∀ t, execFence a0 a1 = .next t → part t p = part a1 p := by
  simp at h
  unfold execFence
  refine turnAct_part p (by simp [h]) _ _ _ (fun h1 h2 i g hg s => ?_)
  split at hg
  all_goals first | cases hg | (injection hg with hg; subst hg)
  simp [h]

theorem execEpoch_part (p : StatePart) (h : p ∉ ([.banksCollations, .banksLastActive, .banksMem, .banksMerge, .banksPauses, .banksSeals, .banksValid, .draws, .fabricAccs, .fabricBooked, .fabricCounters, .fabricHolds, .fabricSlots, .now, .powerDoms, .regs, .remoteOutMsgs, .replicasBaroCorr, .replicasStrays, .streamsCtxs, .streamsTokens, .supEventNow, .supEvents, .supNextEvent] : List StatePart)) (a0 : Sys2Proof.CtxId) (a1 : Sys2Proof.Machine.State) :
    ∀ t, execEpoch a0 a1 = .next t → part t p = part a1 p := by
  simp at h
  unfold execEpoch
  refine turnAct_part p (by simp [h]) _ _ _ (fun h1 h2 i g hg s => ?_)
  split at hg
  all_goals first | cases hg | (injection hg with hg; subst hg)
  simp [h]

theorem execTake_part (p : StatePart) (h : p ∉ ([.banksCollations, .banksLastActive, .banksMem, .banksMerge, .banksPauses, .banksSealMap, .banksSeals, .banksValid, .draws, .fabricAccs, .fabricBooked, .fabricCounters, .fabricHolds, .fabricPlan, .fabricSlots, .now, .powerDoms, .queuesNextOp, .queuesOps, .queuesSlipq, .regs, .remoteOutMsgs, .remoteOutStage, .replicasBaroCorr, .replicasStrays, .streamsAborts, .streamsCtxs, .streamsTiles, .streamsTokens, .supAllocs, .supCmds, .supEventNow, .supEvents, .supInputs, .supNextEvent, .supSideOrder, .supW1cSet] : List StatePart)) (a0 : Sys2Proof.CtxId) (a1 : Sys2Proof.Machine.State) :
    ∀ t, execTake a0 a1 = .next t → part t p = part a1 p := by
  simp at h
  unfold execTake
  refine turnAct_part p (by simp [h]) _ _ _ (fun h1 h2 i g hg s => ?_)
  split at hg
  all_goals first | cases hg | (injection hg with hg; subst hg)
  simp [h]

theorem execGive_part (p : StatePart) (h : p ∉ ([.banksCollations, .banksLastActive, .banksMem, .banksMerge, .banksPauses, .banksSealMap, .banksSeals, .banksValid, .draws, .fabricAccs, .fabricBooked, .fabricCounters, .fabricHolds, .fabricPlan, .fabricSlots, .now, .powerDoms, .queuesNextOp, .queuesOps, .queuesSlipq, .regs, .remoteOutMsgs, .remoteOutStage, .replicasBaroCorr, .replicasStrays, .streamsAborts, .streamsCtxs, .streamsTiles, .streamsTokens, .supAllocs, .supCmds, .supEventNow, .supEvents, .supInputs, .supNextEvent, .supSideOrder, .supW1cSet] : List StatePart)) (a0 : Sys2Proof.CtxId) (a1 : Sys2Proof.Machine.State) :
    ∀ t, execGive a0 a1 = .next t → part t p = part a1 p := by
  simp at h
  unfold execGive
  refine turnAct_part p (by simp [h]) _ _ _ (fun h1 h2 i g hg s => ?_)
  split at hg
  all_goals first | cases hg | (injection hg with hg; subst hg)
  simp [h]

theorem execWaitslip_part (p : StatePart) (h : p ∉ ([.banksCollations, .banksLastActive, .banksMem, .banksMerge, .banksPauses, .banksSealMap, .banksSeals, .banksValid, .draws, .fabricAccs, .fabricBooked, .fabricCounters, .fabricHolds, .fabricPlan, .fabricSlots, .now, .powerDoms, .queuesNextOp, .queuesOps, .queuesSlipq, .regs, .remoteOutMsgs, .remoteOutStage, .replicasBaroCorr, .replicasStrays, .streamsAborts, .streamsCtxs, .streamsTiles, .streamsTokens, .supAllocs, .supCmds, .supEventNow, .supEvents, .supInputs, .supNextEvent, .supSideOrder, .supW1cSet] : List StatePart)) (a0 : Sys2Proof.CtxId) (a1 : Sys2Proof.Machine.State) :
    ∀ t, execWaitslip a0 a1 = .next t → part t p = part a1 p := by
  simp at h
  unfold execWaitslip
  refine turnAct_part p (by simp [h]) _ _ _ (fun h1 h2 i g hg s => ?_)
  split at hg
  all_goals first | cases hg | (injection hg with hg; subst hg)
  repeat' split
  all_goals simp [h]

theorem execDigest_part (p : StatePart) (h : p ∉ ([.banksCollations, .banksLastActive, .banksMem, .banksMerge, .banksPauses, .banksSealMap, .banksSeals, .banksValid, .draws, .fabricAccs, .fabricBooked, .fabricCounters, .fabricHolds, .fabricPlan, .fabricSlots, .now, .powerDoms, .queuesNextOp, .queuesOps, .queuesSlipq, .regs, .remoteOutMsgs, .remoteOutStage, .replicasBaroCorr, .replicasNextPost, .replicasPosts, .replicasStrays, .streamsAborts, .streamsCtxs, .streamsTiles, .streamsTokens, .supAllocs, .supCmds, .supEventNow, .supEvents, .supInputs, .supNextEvent, .supSideOrder, .supW1cSet] : List StatePart)) (a0 : Sys2Proof.CtxId) (a1 : Sys2Proof.Machine.State) :
    ∀ t, execDigest a0 a1 = .next t → part t p = part a1 p := by
  simp at h
  unfold execDigest
  refine turnAct_part p (by simp [h]) _ _ _ (fun h1 h2 i g hg s => ?_)
  split at hg
  all_goals first | cases hg | (injection hg with hg; subst hg)
  repeat' split
  all_goals simp [h]

theorem execSignal_part (p : StatePart) (h : p ∉ ([.banksCollations, .banksLastActive, .banksMem, .banksMerge, .banksPauses, .banksSealMap, .banksSeals, .banksValid, .draws, .fabricAccs, .fabricBooked, .fabricCounters, .fabricHolds, .fabricPlan, .fabricSlots, .now, .powerDoms, .queuesSlipq, .regs, .remoteOutMsgs, .remoteOutStage, .replicasBaroCorr, .replicasStrays, .streamsAborts, .streamsCtxs, .streamsNextToken, .streamsTiles, .streamsTokens, .supAllocs, .supCmds, .supEventNow, .supEvents, .supInputs, .supNextEvent, .supSideOrder, .supW1cSet] : List StatePart)) (a0 : Sys2Proof.CtxId) (a1 : Sys2Proof.Machine.State) :
    ∀ t, execSignal a0 a1 = .next t → part t p = part a1 p := by
  simp at h
  unfold execSignal
  refine turnAct_part p (by simp [h]) _ _ _ (fun h1 h2 i g hg s => ?_)
  split at hg
  all_goals first | cases hg | (injection hg with hg; subst hg)
  simp [h]

theorem execStreamIllegal_part (p : StatePart) (h : p ∉ ([.banksCollations, .banksLastActive, .banksMem, .banksMerge, .banksPauses, .banksSealMap, .banksSeals, .banksValid, .draws, .fabricAccs, .fabricBooked, .fabricCounters, .fabricHolds, .fabricPlan, .fabricSlots, .now, .powerDoms, .queuesSlipq, .regs, .remoteOutMsgs, .remoteOutStage, .replicasBaroCorr, .replicasStrays, .streamsAborts, .streamsCtxs, .streamsTiles, .streamsTokens, .supAllocs, .supCmds, .supEventNow, .supEvents, .supInputs, .supNextEvent, .supSideOrder, .supW1cSet] : List StatePart)) (a0 : Sys2Proof.CtxId) (a1 : Sys2Proof.Machine.State) :
    ∀ t, execStreamIllegal a0 a1 = .next t → part t p = part a1 p := by
  simp at h
  unfold execStreamIllegal
  refine act_part p _ _ _ (fun h1 h2 => ?_)
  simp [h]

theorem execSequencerTake_part (p : StatePart) (h : p ∉ ([.streamsCtxs] : List StatePart)) (a0 : Sys2Proof.Die) (a1 : Sys2Proof.Cluster) (a2 : Sys2Proof.Machine.State) :
    ∀ t, execSequencerTake a0 a1 a2 = .next t → part t p = part a2 p := by
  simp at h
  unfold execSequencerTake
  refine act_part p _ _ _ (fun h1 h2 => ?_)
  repeat' split
  all_goals simp [h]

theorem execSequencerTimeslice_part (p : StatePart) (h : p ∉ ([.banksCollations, .banksLastActive, .banksMem, .banksMerge, .banksPauses, .banksSeals, .banksValid, .draws, .fabricAccs, .fabricBooked, .fabricCounters, .fabricHolds, .fabricSlots, .now, .powerDoms, .regs, .remoteOutMsgs, .replicasBaroCorr, .replicasStrays, .streamsCtxs, .streamsTokens, .supEventNow, .supEvents, .supNextEvent] : List StatePart)) (a0 : Sys2Proof.CtxId) (a1 : Sys2Proof.Machine.State) :
    ∀ t, execSequencerTimeslice a0 a1 = .next t → part t p = part a1 p := by
  simp at h
  unfold execSequencerTimeslice
  refine act_part p _ _ _ (fun h1 h2 => ?_)
  simp [h]

theorem execContextStartFrame_part (p : StatePart) (h : p ∉ ([.streamsCtxs] : List StatePart)) (a0 : Sys2Proof.CtxId) (a1 : Sys2Proof.Machine.State) :
    ∀ t, execContextStartFrame a0 a1 = .next t → part t p = part a1 p := by
  simp at h
  unfold execContextStartFrame
  refine act_part p _ _ _ (fun h1 h2 => ?_)
  simp [h]

theorem execWaitslipResultRetry_part (p : StatePart) (h : p ∉ ([.banksCollations, .banksLastActive, .banksMem, .banksMerge, .banksPauses, .banksSeals, .banksValid, .draws, .fabricAccs, .fabricBooked, .fabricCounters, .fabricHolds, .fabricSlots, .now, .powerDoms, .regs, .remoteOutMsgs, .replicasBaroCorr, .replicasStrays, .streamsCtxs, .streamsTokens, .supEventNow, .supEvents, .supNextEvent] : List StatePart)) (a0 : Sys2Proof.CtxId) (a1 : Sys2Proof.Machine.State) :
    ∀ t, execWaitslipResultRetry a0 a1 = .next t → part t p = part a1 p := by
  simp at h
  unfold execWaitslipResultRetry
  refine act_part p _ _ _ (fun h1 h2 => ?_)
  simp [h]

theorem execSlipqWaitRetry_part (p : StatePart) (h : p ∉ ([.banksCollations, .banksLastActive, .banksMem, .banksMerge, .banksPauses, .banksSeals, .banksValid, .draws, .fabricAccs, .fabricBooked, .fabricCounters, .fabricHolds, .fabricSlots, .now, .powerDoms, .queuesSlipq, .regs, .remoteOutMsgs, .replicasBaroCorr, .replicasStrays, .streamsCtxs, .streamsTokens, .supEventNow, .supEvents, .supNextEvent] : List StatePart)) (a0 : Sys2Proof.CtxId) (a1 : Sys2Proof.Machine.State) :
    ∀ t, execSlipqWaitRetry a0 a1 = .next t → part t p = part a1 p := by
  simp at h
  unfold execSlipqWaitRetry
  refine act_part p _ _ _ (fun h1 h2 => ?_)
  simp [h]

theorem execQueueStall_part (p : StatePart) (h : p ∉ ([.banksCollations, .banksLastActive, .banksMem, .banksMerge, .banksPauses, .banksSeals, .banksValid, .draws, .fabricAccs, .fabricBooked, .fabricCounters, .fabricHolds, .fabricSlots, .now, .powerDoms, .regs, .remoteOutMsgs, .replicasBaroCorr, .replicasStrays, .streamsCtxs, .streamsTokens, .supEventNow, .supEvents, .supNextEvent] : List StatePart)) (a0 : Sys2Proof.CtxId) (a1 : Sys2Proof.Machine.State) :
    ∀ t, execQueueStall a0 a1 = .next t → part t p = part a1 p := by
  simp at h
  unfold execQueueStall
  refine act_part p _ _ _ (fun h1 h2 => ?_)
  simp [h]

/-! ### StreamTransfer -/

theorem execEmit_part (p : StatePart) (h : p ∉ ([.banksCollations, .banksLastActive, .banksMem, .banksMerge, .banksPauses, .banksSealMap, .banksSeals, .banksValid, .draws, .fabricAccs, .fabricBooked, .fabricCounters, .fabricHolds, .fabricNextSlot, .fabricPlan, .fabricSlots, .now, .powerDoms, .queuesSlipq, .regs, .remoteOutMsgs, .remoteOutStage, .remoteTranslator, .replicasBaroCorr, .replicasStrays, .streamsAborts, .streamsCtxs, .streamsTiles, .streamsTokens, .supAllocs, .supCatCorrected, .supCatReported, .supCmds, .supEventNow, .supEvents, .supInputs, .supNextEvent, .supSideOrder, .supW1cSet] : List StatePart)) (a0 : Sys2Proof.CtxId) (a1 : Sys2Proof.Machine.State) :
    ∀ t, execEmit a0 a1 = .next t → part t p = part a1 p := by
  simp at h
  unfold execEmit
  refine turnAct_part p (by simp [h]) _ _ _ (fun h1 h2 i g hg s => ?_)
  split at hg
  all_goals first | cases hg | (injection hg with hg; subst hg)
  simp [h]

theorem execGather_part (p : StatePart) (h : p ∉ ([.banksCollations, .banksLastActive, .banksMem, .banksMerge, .banksPauses, .banksSealMap, .banksSeals, .banksValid, .draws, .fabricAccs, .fabricBooked, .fabricCounters, .fabricHolds, .fabricNextSlot, .fabricPlan, .fabricSlots, .now, .powerDoms, .queuesSlipq, .regs, .remoteOutMsgs, .remoteOutStage, .remoteTranslator, .replicasBaroCorr, .replicasStrays, .streamsAborts, .streamsCtxs, .streamsTiles, .streamsTokens, .supAllocs, .supCmds, .supEventNow, .supEvents, .supInputs, .supNextEvent, .supSideOrder, .supW1cSet] : List StatePart)) (a0 : Sys2Proof.CtxId) (a1 : Sys2Proof.Machine.State) :
    ∀ t, execGather a0 a1 = .next t → part t p = part a1 p := by
  simp at h
  unfold execGather
  refine turnAct_part p (by simp [h]) _ _ _ (fun h1 h2 i g hg s => ?_)
  split at hg
  all_goals first | cases hg | (injection hg with hg; subst hg)
  simp [h]

theorem execScatter_part (p : StatePart) (h : p ∉ ([.banksCollations, .banksLastActive, .banksMem, .banksMerge, .banksPauses, .banksSealMap, .banksSeals, .banksValid, .draws, .fabricAccs, .fabricBooked, .fabricCounters, .fabricHolds, .fabricNextSlot, .fabricPlan, .fabricSlots, .now, .powerDoms, .queuesSlipq, .regs, .remoteOutMsgs, .remoteOutStage, .remoteTranslator, .replicasBaroCorr, .replicasStrays, .streamsAborts, .streamsCtxs, .streamsTiles, .streamsTokens, .supAllocs, .supCmds, .supEventNow, .supEvents, .supInputs, .supNextEvent, .supSideOrder, .supW1cSet] : List StatePart)) (a0 : Sys2Proof.CtxId) (a1 : Sys2Proof.Machine.State) :
    ∀ t, execScatter a0 a1 = .next t → part t p = part a1 p := by
  simp at h
  unfold execScatter
  refine turnAct_part p (by simp [h]) _ _ _ (fun h1 h2 i g hg s => ?_)
  split at hg
  all_goals first | cases hg | (injection hg with hg; subst hg)
  simp [h]

theorem execXpose_part (p : StatePart) (h : p ∉ ([.banksCollations, .banksLastActive, .banksMem, .banksMerge, .banksPauses, .banksSealMap, .banksSeals, .banksValid, .draws, .fabricAccs, .fabricBooked, .fabricCounters, .fabricHolds, .fabricNextSlot, .fabricPlan, .fabricSlots, .now, .powerDoms, .queuesSlipq, .regs, .remoteOutMsgs, .remoteOutStage, .remoteTranslator, .replicasBaroCorr, .replicasStrays, .streamsAborts, .streamsCtxs, .streamsNextTile, .streamsTiles, .streamsTokens, .supAllocs, .supCmds, .supEventNow, .supEvents, .supInputs, .supNextEvent, .supSideOrder, .supW1cSet] : List StatePart)) (a0 : Sys2Proof.CtxId) (a1 : Sys2Proof.Machine.State) :
    ∀ t, execXpose a0 a1 = .next t → part t p = part a1 p := by
  simp at h
  unfold execXpose
  refine turnAct_part p (by simp [h]) _ _ _ (fun h1 h2 i g hg s => ?_)
  split at hg
  all_goals first | cases hg | (injection hg with hg; subst hg)
  simp [h]

theorem execCombine_part (p : StatePart) (h : p ∉ ([.banksCollations, .banksLastActive, .banksMem, .banksMerge, .banksPauses, .banksSealMap, .banksSeals, .banksValid, .draws, .fabricAccs, .fabricBooked, .fabricCounters, .fabricHolds, .fabricNextSlot, .fabricPlan, .fabricSlots, .now, .powerDoms, .queuesSlipq, .regs, .remoteOutMsgs, .remoteOutStage, .remoteTranslator, .replicasBaroCorr, .replicasStrays, .streamsAborts, .streamsCtxs, .streamsTiles, .streamsTokens, .supAllocs, .supCmds, .supEventNow, .supEvents, .supInputs, .supNextEvent, .supSideOrder, .supW1cSet] : List StatePart)) (a0 : Sys2Proof.CtxId) (a1 : Sys2Proof.Machine.State) :
    ∀ t, execCombine a0 a1 = .next t → part t p = part a1 p := by
  simp at h
  unfold execCombine
  refine turnAct_part p (by simp [h]) _ _ _ (fun h1 h2 i g hg s => ?_)
  split at hg
  all_goals first | cases hg | (injection hg with hg; subst hg)
  repeat' (first | (simp [h]; done) | split | (refine whenDrained_part p (by simp [h]) _ _ _ (fun s => ?_)) | (refine whenRoom_part p (by simp [h]) _ _ _ (fun s => ?_)) | (dsimp only; split))

theorem execSeal_part (p : StatePart) (h : p ∉ ([.banksCollations, .banksLastActive, .banksMem, .banksMerge, .banksPauses, .banksSealMap, .banksSeals, .banksValid, .draws, .fabricAccs, .fabricBooked, .fabricCounters, .fabricHolds, .fabricNextSlot, .fabricPlan, .fabricSlots, .now, .powerDoms, .queuesSlipq, .regs, .remoteOutMsgs, .remoteOutStage, .remoteTranslator, .replicasBaroCorr, .replicasStrays, .streamsAborts, .streamsCtxs, .streamsTiles, .streamsTokens, .supAllocs, .supCmds, .supEventNow, .supEvents, .supInputs, .supNextEvent, .supSideOrder, .supW1cSet] : List StatePart)) (a0 : Sys2Proof.CtxId) (a1 : Sys2Proof.Machine.State) :
    ∀ t, execSeal a0 a1 = .next t → part t p = part a1 p := by
  simp at h
  unfold execSeal
  refine turnAct_part p (by simp [h]) _ _ _ (fun h1 h2 i g hg s => ?_)
  split at hg
  all_goals first | cases hg | (injection hg with hg; subst hg)
  repeat' (first | (simp [h]; done) | split | (refine whenDrained_part p (by simp [h]) _ _ _ (fun s => ?_)) | (refine whenRoom_part p (by simp [h]) _ _ _ (fun s => ?_)) | (dsimp only; split))

/-! ### Signals -/

theorem execPointTokenReceive_part (p : StatePart) (h : p ∉ ([.streamsCtxs, .streamsNextToken, .streamsTokens] : List StatePart)) (a0 : Nat) (a1 : Sys2Proof.Machine.State) :
    ∀ t, execPointTokenReceive a0 a1 = .next t → part t p = part a1 p := by
  simp at h
  unfold execPointTokenReceive
  refine act_part p _ _ _ (fun h1 h2 => ?_)
  repeat' split
  all_goals simp [h]

theorem execPointAnswerReceive_part (p : StatePart) (h : p ∉ ([.banksLastActive, .banksMerge, .banksSealMap, .banksSeals, .fabricPlan, .fabricSlots, .queuesSlipq, .regs, .remoteOutMsgs, .remoteOutStage, .streamsAborts, .streamsCtxs, .streamsTiles, .streamsTokens, .supAllocs, .supCmds, .supEventNow, .supEvents, .supInputs, .supNextEvent, .supSideOrder, .supW1cSet] : List StatePart)) (a0 : Nat) (a1 : Sys2Proof.Machine.State) :
    ∀ t, execPointAnswerReceive a0 a1 = .next t → part t p = part a1 p := by
  simp at h
  unfold execPointAnswerReceive
  refine act_part p _ _ _ (fun h1 h2 => ?_)
  repeat' split
  all_goals simp [h]

theorem execBarrierArriveReceive_part (p : StatePart) (h : p ∉ ([.streamsBarrierCount, .streamsBarrierRoot, .streamsNextToken, .streamsTokens] : List StatePart)) (a0 : Nat) (a1 : Sys2Proof.Machine.State) :
    ∀ t, execBarrierArriveReceive a0 a1 = .next t → part t p = part a1 p := by
  simp at h
  unfold execBarrierArriveReceive
  refine act_part p _ _ _ (fun h1 h2 => ?_)
  repeat' split
  all_goals simp [h]

theorem execBarrierReleaseReceive_part (p : StatePart) (h : p ∉ ([.streamsCtxs, .streamsTokens] : List StatePart)) (a0 : Nat) (a1 : Sys2Proof.Machine.State) :
    ∀ t, execBarrierReleaseReceive a0 a1 = .next t → part t p = part a1 p := by
  simp at h
  unfold execBarrierReleaseReceive
  refine act_part p _ _ _ (fun h1 h2 => ?_)
  repeat' split
  all_goals simp [h]

/-! ### StreamCmds -/

theorem execArm_part (p : StatePart) (h : p ∉ ([.banksCollations, .banksLastActive, .banksMerge, .banksPauses, .banksValid, .fabricNextSlot, .fabricSlots, .powerDoms, .regs, .remoteTranslator, .streamsCtxs, .supAllocs, .supCmds, .supEventNow, .supEvents, .supInputs, .supNextEvent, .supSideOrder, .supW1cSet] : List StatePart)) (a0 : Sys2Proof.CmdSrc) (a1 : Sys2Proof.Machine.State) :
    ∀ t, execArm a0 a1 = .next t → part t p = part a1 p := by
  simp at h
  unfold execArm
  refine cmdAct_part p _ _ _ _ (fun h1 h2 s => ?_)
  simp [h]

theorem execRearm_part (p : StatePart) (h : p ∉ ([.banksCollations, .banksLastActive, .banksMerge, .banksPauses, .banksValid, .fabricNextSlot, .fabricSlots, .powerDoms, .regs, .remoteTranslator, .streamsCtxs, .supAllocs, .supCmds, .supEventNow, .supEvents, .supInputs, .supNextEvent, .supSideOrder, .supW1cSet] : List StatePart)) (a0 : Sys2Proof.CmdSrc) (a1 : Sys2Proof.Machine.State) :
    ∀ t, execRearm a0 a1 = .next t → part t p = part a1 p := by
  simp at h
  unfold execRearm
  refine cmdAct_part p _ _ _ _ (fun h1 h2 s => ?_)
  simp [h]

theorem execArmLoadDone_part (p : StatePart) (h : p ∉ ([.regs, .streamsCtxs, .supAllocs, .supCmds, .supEventNow, .supEvents, .supInputs, .supNextEvent, .supSideOrder, .supW1cSet] : List StatePart)) (a0 : Sys2Proof.CtxId) (a1 : Sys2Proof.Machine.State) :
    ∀ t, execArmLoadDone a0 a1 = .next t → part t p = part a1 p := by
  simp at h
  unfold execArmLoadDone
  refine act_part p _ _ _ (fun h1 h2 => ?_)
  repeat' split
  all_goals simp [h]

theorem execRearmLoadDone_part (p : StatePart) (h : p ∉ ([.regs, .streamsCtxs, .supAllocs, .supCmds, .supEventNow, .supEvents, .supInputs, .supNextEvent, .supSideOrder, .supW1cSet] : List StatePart)) (a0 : Sys2Proof.CtxId) (a1 : Sys2Proof.Machine.State) :
    ∀ t, execRearmLoadDone a0 a1 = .next t → part t p = part a1 p := by
  simp at h
  unfold execRearmLoadDone
  refine act_part p _ _ _ (fun h1 h2 => ?_)
  repeat' split
  all_goals simp [h]

theorem execHalt_part (p : StatePart) (h : p ∉ ([.banksLastActive, .banksMerge, .banksSealMap, .banksSeals, .fabricPlan, .fabricSlots, .queuesSlipq, .regs, .remoteOutMsgs, .remoteOutStage, .streamsAborts, .streamsCtxs, .streamsTiles, .supAllocs, .supCmds, .supEventNow, .supEvents, .supInputs, .supNextEvent, .supSideOrder, .supW1cSet] : List StatePart)) (a0 : Sys2Proof.CmdSrc) (a1 : Sys2Proof.Machine.State) :
    ∀ t, execHalt a0 a1 = .next t → part t p = part a1 p := by
  simp at h
  unfold execHalt
  refine cmdAct_part p _ _ _ _ (fun h1 h2 s => ?_)
  simp [h]

theorem execResume_part (p : StatePart) (h : p ∉ ([.queuesSlipq, .regs, .streamsCtxs, .supAllocs, .supCmds, .supEventNow, .supEvents, .supInputs, .supNextEvent, .supSideOrder, .supW1cSet] : List StatePart)) (a0 : Sys2Proof.CmdSrc) (a1 : Sys2Proof.Machine.State) :
    ∀ t, execResume a0 a1 = .next t → part t p = part a1 p := by
  simp at h
  unfold execResume
  refine cmdAct_part p _ _ _ _ (fun h1 h2 s => ?_)
  simp [h]

theorem execAbort_part (p : StatePart) (h : p ∉ ([.banksLastActive, .banksMerge, .banksSealMap, .banksSeals, .fabricPlan, .fabricSlots, .queuesSlipq, .regs, .remoteOutMsgs, .remoteOutStage, .streamsAborts, .streamsCtxs, .streamsTiles, .supAllocs, .supCmds, .supEventNow, .supEvents, .supInputs, .supNextEvent, .supSideOrder, .supW1cSet] : List StatePart)) (a0 : Sys2Proof.CmdSrc) (a1 : Sys2Proof.Machine.State) :
    ∀ t, execAbort a0 a1 = .next t → part t p = part a1 p := by
  simp at h
  unfold execAbort
  refine cmdAct_part p _ _ _ _ (fun h1 h2 s => ?_)
  simp [h]

theorem execQuery_part (p : StatePart) (h : p ∉ ([.regs, .supAllocs, .supCmds, .supEventNow, .supEvents, .supInputs, .supNextEvent, .supSideOrder, .supW1cSet] : List StatePart)) (a0 : Sys2Proof.CmdSrc) (a1 : Sys2Proof.Machine.State) :
    ∀ t, execQuery a0 a1 = .next t → part t p = part a1 p := by
  simp at h
  unfold execQuery
  refine cmdAct_part p _ _ _ _ (fun h1 h2 s => ?_)
  simp [h]

theorem execReplay_part (p : StatePart) (h : p ∉ ([.regs, .streamsCtxs, .supAllocs, .supCmds, .supEventNow, .supEvents, .supInputs, .supNextEvent, .supSideOrder, .supW1cSet] : List StatePart)) (a0 : Sys2Proof.CmdSrc) (a1 : Sys2Proof.Machine.State) :
    ∀ t, execReplay a0 a1 = .next t → part t p = part a1 p := by
  simp at h
  unfold execReplay
  refine cmdAct_part p _ _ _ _ (fun h1 h2 s => ?_)
  repeat' (first | (simp [h]; done) | split | (refine cmdChecked_part p (by simp [h]) _ _ _ _ (fun s => ?_)) | (dsimp only; split))

theorem execTaskAbortReceive_part (p : StatePart) (h : p ∉ ([.banksLastActive, .banksMerge, .banksSealMap, .banksSeals, .fabricPlan, .fabricSlots, .queuesSlipq, .regs, .remoteOutMsgs, .remoteOutStage, .streamsAborts, .streamsCtxs, .streamsTiles, .supAllocs, .supCmds, .supEventNow, .supEvents, .supInputs, .supNextEvent, .supSideOrder, .supW1cSet] : List StatePart)) (a0 : Sys2Proof.Die) (a1 : BitVec 16) (a2 : Sys2Proof.Win) (a3 : Sys2Proof.Machine.State) :
    ∀ t, execTaskAbortReceive a0 a1 a2 a3 = .next t → part t p = part a3 p := by
  simp at h
  unfold execTaskAbortReceive
  refine act_part p _ _ _ (fun h1 h2 => ?_)
  repeat' split
  all_goals simp [h]

/-! ### Catalogue -/

theorem execCatAlloc_part (p : StatePart) (h : p ∉ ([.banksFolioClears, .regs, .supAllocs, .supCmds, .supEventNow, .supEvents, .supInputs, .supNextEvent, .supSideOrder, .supW1cSet] : List StatePart)) (a0 : Sys2Proof.CmdSrc) (a1 : Sys2Proof.Machine.State) :
    ∀ t, execCatAlloc a0 a1 = .next t → part t p = part a1 p := by
  simp at h
  unfold execCatAlloc
  refine cmdAct_part p _ _ _ _ (fun h1 h2 s => ?_)
  simp [h]

theorem execFolioClassClear_part (p : StatePart) (h : p ∉ ([.banksClassMap, .banksCollations, .banksFolioClears, .banksLastActive, .banksLost, .banksMem, .banksMerge, .banksPauses, .banksSealMap, .banksSeals, .banksValid, .draws, .fabricAccs, .fabricBooked, .fabricCounters, .fabricHolds, .fabricSlots, .now, .powerDoms, .regs, .remoteOutMsgs, .replicasBaroCorr, .replicasStrays, .streamsCtxs, .streamsTokens, .supEventNow, .supEvents, .supNextEvent] : List StatePart)) (a0 : Sys2Proof.FolioNo) (a1 : Sys2Proof.Machine.State) :
    ∀ t, execFolioClassClear a0 a1 = .next t → part t p = part a1 p := by
  simp at h
  unfold execFolioClassClear
  refine act_part p _ _ _ (fun h1 h2 => ?_)
  repeat' split
  all_goals simp [h]

theorem execCatEntryInForce_part (p : StatePart) (h : p ∉ ([.banksFolioClears, .banksLost, .regs, .supAllocs, .supCatReported, .supCatUpsets, .supCmds, .supEventNow, .supEvents, .supInputs, .supNextEvent, .supSideOrder, .supW1cSet] : List StatePart)) (a0 : Sys2Proof.CmdSrc) (a1 : Sys2Proof.Machine.State) :
    ∀ t, execCatEntryInForce a0 a1 = .next t → part t p = part a1 p := by
  simp at h
  unfold execCatEntryInForce
  refine act_part p _ _ _ (fun h1 h2 => ?_)
  repeat' (first | (simp [h]; done) | split | (dsimp only; split))

theorem execCatFree_part (p : StatePart) (h : p ∉ ([.fabricSlots, .regs, .remoteTranslator, .supAllocs, .supCatCorrected, .supCatFreed, .supCatReported, .supCatUpsets, .supCmds, .supEventNow, .supEvents, .supInputs, .supNextEvent, .supSideOrder, .supW1cSet] : List StatePart)) (a0 : Sys2Proof.CmdSrc) (a1 : Sys2Proof.Machine.State) :
    ∀ t, execCatFree a0 a1 = .next t → part t p = part a1 p := by
  simp at h
  unfold execCatFree
  refine cmdAct_part p _ _ _ _ (fun h1 h2 s => ?_)
  simp [h]

theorem execCatUpdate_part (p : StatePart) (h : p ∉ ([.regs, .supAllocs, .supCatCorrected, .supCatReported, .supCmds, .supEventNow, .supEvents, .supInputs, .supNextEvent, .supSideOrder, .supW1cSet] : List StatePart)) (a0 : Sys2Proof.CmdSrc) (a1 : Sys2Proof.Machine.State) :
    ∀ t, execCatUpdate a0 a1 = .next t → part t p = part a1 p := by
  simp at h
  unfold execCatUpdate
  refine cmdAct_part p _ _ _ _ (fun h1 h2 s => ?_)
  simp [h]

theorem execWinSync_part (p : StatePart) (h : p ∉ ([.regs, .remoteSyncs, .supAllocs, .supCatCorrected, .supCatReported, .supCmds, .supEventNow, .supEvents, .supInputs, .supNextEvent, .supSideOrder, .supW1cSet] : List StatePart)) (a0 : Sys2Proof.CmdSrc) (a1 : Sys2Proof.Machine.State) :
    ∀ t, execWinSync a0 a1 = .next t → part t p = part a1 p := by
  simp at h
  unfold execWinSync
  refine cmdAct_part p _ _ _ _ (fun h1 h2 s => ?_)
  simp [h]

theorem execWinSyncDone_part (p : StatePart) (h : p ∉ ([.fabricSlots, .regs, .remoteSyncs, .remoteTranslator, .supAllocs, .supCmds, .supEventNow, .supEvents, .supInputs, .supNextEvent, .supSideOrder, .supW1cSet] : List StatePart)) (a0 : Sys2Proof.CmdSrc) (a1 : Sys2Proof.Machine.State) :
    ∀ t, execWinSyncDone a0 a1 = .next t → part t p = part a1 p := by
  simp at h
  unfold execWinSyncDone
  refine act_part p _ _ _ (fun h1 h2 => ?_)
  repeat' split
  all_goals simp [h]

theorem execTranslatorFill_part (p : StatePart) (h : p ∉ ([.banksCollations, .banksLastActive, .banksMerge, .banksPauses, .banksValid, .fabricCounters, .fabricSlots, .powerDoms, .regs, .remoteTranslator, .replicasBaroCorr, .streamsCtxs, .supCatCorrected, .supCatReported, .supEventNow, .supEvents, .supNextEvent] : List StatePart)) (a0 : Nat) (a1 : Sys2Proof.Machine.State) :
    ∀ t, execTranslatorFill a0 a1 = .next t → part t p = part a1 p := by
  simp at h
  unfold execTranslatorFill
  refine act_part p _ _ _ (fun h1 h2 => ?_)
  repeat' split
  all_goals simp [h]

/-! ### QueueCmds -/

theorem execQueueEngineOp_part (p : StatePart) (h : p ∉ ([.banksCollations, .banksLastActive, .banksMem, .banksMerge, .banksPauses, .banksSeals, .banksValid, .draws, .fabricAccs, .fabricBooked, .fabricCounters, .fabricHolds, .fabricLocks, .fabricSlots, .now, .powerDoms, .queuesOps, .queuesPortB, .queuesResults, .queuesServed, .queuesSlipq, .regs, .remoteOutMsgs, .replicasBaroCorr, .replicasStrays, .streamsCtxs, .streamsTokens, .supEventNow, .supEvents, .supNextEvent] : List StatePart)) (a0 : Nat) (a1 : Sys2Proof.Machine.State) :
    ∀ t, execQueueEngineOp a0 a1 = .next t → part t p = part a1 p := by
  simp at h
  unfold execQueueEngineOp
  refine act_part p _ _ _ (fun h1 h2 => ?_)
  repeat' split
  all_goals simp [h]

theorem execQueueOpStatusReturn_part (p : StatePart) (h : p ∉ ([.banksLastActive, .banksMerge, .banksSealMap, .banksSeals, .fabricCounters, .fabricPlan, .fabricSlots, .pages, .queuesOps, .queuesSlipq, .regs, .remoteOutMsgs, .remoteOutStage, .securityDenialSeen, .streamsAborts, .streamsCtxs, .streamsTiles, .supAllocs, .supCmds, .supEventNow, .supEvents, .supInputs, .supNextEvent, .supSideOrder, .supW1cSet] : List StatePart)) (a0 : Nat) (a1 : Sys2Proof.Machine.State) :
    ∀ t, execQueueOpStatusReturn a0 a1 = .next t → part t p = part a1 p := by
  simp at h
  unfold execQueueOpStatusReturn
  refine act_part p _ _ _ (fun h1 h2 => ?_)
  repeat' split
  all_goals simp [h]

theorem execSqGive_part (p : StatePart) (h : p ∉ ([.queuesNextOp, .queuesOps, .regs, .supAllocs, .supCmds, .supEventNow, .supEvents, .supInputs, .supNextEvent, .supSideOrder, .supW1cSet] : List StatePart)) (a0 : Sys2Proof.CmdSrc) (a1 : Sys2Proof.Machine.State) :
    ∀ t, execSqGive a0 a1 = .next t → part t p = part a1 p := by
  simp at h
  unfold execSqGive
  refine cmdAct_part p _ _ _ _ (fun h1 h2 s => ?_)
  simp [h]

theorem execSqTake_part (p : StatePart) (h : p ∉ ([.queuesNextOp, .queuesOps, .regs, .supAllocs, .supCmds, .supEventNow, .supEvents, .supInputs, .supNextEvent, .supSideOrder, .supW1cSet] : List StatePart)) (a0 : Sys2Proof.CmdSrc) (a1 : Sys2Proof.Machine.State) :
    ∀ t, execSqTake a0 a1 = .next t → part t p = part a1 p := by
  simp at h
  unfold execSqTake
  refine cmdAct_part p _ _ _ _ (fun h1 h2 s => ?_)
  simp [h]

theorem execRsPost_part (p : StatePart) (h : p ∉ ([.queuesNextOp, .queuesOps, .regs, .supAllocs, .supCmds, .supEventNow, .supEvents, .supInputs, .supNextEvent, .supSideOrder, .supW1cSet] : List StatePart)) (a0 : Sys2Proof.CmdSrc) (a1 : Sys2Proof.Machine.State) :
    ∀ t, execRsPost a0 a1 = .next t → part t p = part a1 p := by
  simp at h
  unfold execRsPost
  refine cmdAct_part p _ _ _ _ (fun h1 h2 s => ?_)
  simp [h]

theorem execRsRead_part (p : StatePart) (h : p ∉ ([.queuesNextOp, .queuesOps, .regs, .supAllocs, .supCmds, .supEventNow, .supEvents, .supInputs, .supNextEvent, .supSideOrder, .supW1cSet] : List StatePart)) (a0 : Sys2Proof.CmdSrc) (a1 : Sys2Proof.Machine.State) :
    ∀ t, execRsRead a0 a1 = .next t → part t p = part a1 p := by
  simp at h
  unfold execRsRead
  refine cmdAct_part p _ _ _ _ (fun h1 h2 s => ?_)
  simp [h]

theorem execRsConsume_part (p : StatePart) (h : p ∉ ([.queuesNextOp, .queuesOps, .regs, .supAllocs, .supCmds, .supEventNow, .supEvents, .supInputs, .supNextEvent, .supSideOrder, .supW1cSet] : List StatePart)) (a0 : Sys2Proof.CmdSrc) (a1 : Sys2Proof.Machine.State) :
    ∀ t, execRsConsume a0 a1 = .next t → part t p = part a1 p := by
  simp at h
  unfold execRsConsume
  refine cmdAct_part p _ _ _ _ (fun h1 h2 s => ?_)
  simp [h]

theorem execQopGive_part (p : StatePart) (h : p ∉ ([.queuesNextOp, .queuesOps, .regs] : List StatePart)) (a0 : Sys2Proof.Die) (a1 : Sys2Proof.CoreNo) (a2 : Sys2Proof.Word) (a3 : Sys2Proof.Machine.State) :
    ∀ t, execQopGive a0 a1 a2 a3 = .next t → part t p = part a3 p := by
  simp at h
  unfold execQopGive
  refine act_part p _ _ _ (fun h1 h2 => ?_)
  simp [h]

theorem execQopTake_part (p : StatePart) (h : p ∉ ([.queuesNextOp, .queuesOps, .regs] : List StatePart)) (a0 : Sys2Proof.Die) (a1 : Sys2Proof.CoreNo) (a2 : Sys2Proof.Word) (a3 : Sys2Proof.Machine.State) :
    ∀ t, execQopTake a0 a1 a2 a3 = .next t → part t p = part a3 p := by
  simp at h
  unfold execQopTake
  refine act_part p _ _ _ (fun h1 h2 => ?_)
  simp [h]

theorem execQopRsPost_part (p : StatePart) (h : p ∉ ([.queuesNextOp, .queuesOps, .regs] : List StatePart)) (a0 : Sys2Proof.Die) (a1 : Sys2Proof.CoreNo) (a2 : Sys2Proof.Word) (a3 : Sys2Proof.Machine.State) :
    ∀ t, execQopRsPost a0 a1 a2 a3 = .next t → part t p = part a3 p := by
  simp at h
  unfold execQopRsPost
  refine act_part p _ _ _ (fun h1 h2 => ?_)
  simp [h]

theorem execQopRsRead_part (p : StatePart) (h : p ∉ ([.queuesNextOp, .queuesOps, .regs] : List StatePart)) (a0 : Sys2Proof.Die) (a1 : Sys2Proof.CoreNo) (a2 : Sys2Proof.Word) (a3 : Sys2Proof.Machine.State) :
    ∀ t, execQopRsRead a0 a1 a2 a3 = .next t → part t p = part a3 p := by
  simp at h
  unfold execQopRsRead
  refine act_part p _ _ _ (fun h1 h2 => ?_)
  simp [h]

theorem execQopRsConsume_part (p : StatePart) (h : p ∉ ([.queuesNextOp, .queuesOps, .regs] : List StatePart)) (a0 : Sys2Proof.Die) (a1 : Sys2Proof.CoreNo) (a2 : Sys2Proof.Word) (a3 : Sys2Proof.Machine.State) :
    ∀ t, execQopRsConsume a0 a1 a2 a3 = .next t → part t p = part a3 p := by
  simp at h
  unfold execQopRsConsume
  refine act_part p _ _ _ (fun h1 h2 => ?_)
  simp [h]

theorem execCqStart_part (p : StatePart) (h : p ∉ ([.banksCollations, .banksLastActive, .banksMerge, .banksPauses, .banksValid, .fabricSlots, .powerDoms, .queuesComb, .regs, .supEventNow, .supEvents, .supNextEvent] : List StatePart)) (a0 : Sys2Proof.Die) (a1 : Sys2Proof.Win) (a2 : Sys2Proof.Cluster) (a3 : BitVec 4) (a4 : Sys2Proof.Word) (a5 : Sys2Proof.Machine.State) :
    ∀ t, execCqStart a0 a1 a2 a3 a4 a5 = .next t → part t p = part a5 p := by
  simp at h
  unfold execCqStart
  refine act_part p _ _ _ (fun h1 h2 => ?_)
  simp [h]

theorem execCqZeroingDone_part (p : StatePart) (h : p ∉ ([.banksCollations, .banksLastActive, .banksMem, .banksMerge, .banksPauses, .banksSeals, .banksValid, .draws, .fabricAccs, .fabricBooked, .fabricCounters, .fabricHolds, .fabricSlots, .now, .powerDoms, .queuesComb, .regs, .remoteOutMsgs, .replicasBaroCorr, .replicasStrays, .streamsCtxs, .streamsTokens, .supEventNow, .supEvents, .supNextEvent] : List StatePart)) (a0 : Sys2Proof.Die) (a1 : Sys2Proof.Cluster) (a2 : BitVec 4) (a3 : Sys2Proof.Machine.State) :
    ∀ t, execCqZeroingDone a0 a1 a2 a3 = .next t → part t p = part a3 p := by
  simp at h
  unfold execCqZeroingDone
  refine act_part p _ _ _ (fun h1 h2 => ?_)
  repeat' (first | (simp [h]; done) | split | (refine atCycle_part p (by simp [h]) _ _ _ (fun s => ?_)) | (dsimp only; split))

theorem execCqPostRetry_part (p : StatePart) (h : p ∉ ([.banksCollations, .banksLastActive, .banksMem, .banksMerge, .banksPauses, .banksSeals, .banksValid, .draws, .fabricAccs, .fabricBooked, .fabricCounters, .fabricHolds, .fabricSlots, .now, .powerDoms, .queuesComb, .queuesPortB, .queuesResults, .regs, .remoteOutMsgs, .replicasBaroCorr, .replicasStrays, .streamsCtxs, .streamsTokens, .supEventNow, .supEvents, .supNextEvent] : List StatePart)) (a0 : Sys2Proof.Die) (a1 : Sys2Proof.Cluster) (a2 : BitVec 4) (a3 : Sys2Proof.Machine.State) :
    ∀ t, execCqPostRetry a0 a1 a2 a3 = .next t → part t p = part a3 p := by
  simp at h
  unfold execCqPostRetry
  refine act_part p _ _ _ (fun h1 h2 => ?_)
  simp [h]

theorem execCombineSlotArrive_part (p : StatePart) (h : p ∉ ([.banksCollations, .banksLastActive, .banksMem, .banksMerge, .banksPauses, .banksSealMap, .banksSeals, .banksValid, .draws, .fabricAccs, .fabricBooked, .fabricCounters, .fabricHolds, .fabricLocks, .fabricNextSlot, .fabricPlan, .fabricSlots, .now, .powerDoms, .queuesComb, .queuesPortB, .queuesResults, .queuesSlipq, .regs, .remoteOutMsgs, .remoteOutStage, .remoteTranslator, .replicasBaroCorr, .replicasStrays, .securityDenialSeen, .streamsAborts, .streamsCtxs, .streamsTiles, .streamsTokens, .supAllocs, .supCmds, .supEventNow, .supEvents, .supInputs, .supNextEvent, .supSideOrder, .supW1cSet] : List StatePart)) (a0 : Nat) (a1 : Sys2Proof.Machine.State) :
    ∀ t, execCombineSlotArrive a0 a1 = .next t → part t p = part a1 p := by
  simp at h
  unfold execCombineSlotArrive
  refine act_part p _ _ _ (fun h1 h2 => ?_)
  split
  · rfl
  · split
    · dsimp only
      split
      · rfl
      · split
        · refine atSlot_part p (by simp [h]) _ _ _ _ (fun u y e => ?_)
          split
          · rfl
          · simp [h, e]
        · split
          · refine atSlot_part p (by simp [h]) _ _ _ _ (fun u y e => ?_)
            split
            · rfl
            · simp [h, e]
          · split
            · simp [h]
            · split
              · rfl
              · refine atSlot_part p (by simp [h]) _ _ _ _ (fun u y e => ?_)
                split
                · rfl
                · simp [h, e]
    · rfl

theorem execStructureConfigWrite_part (p : StatePart) (h : p ∉ ([.banksCollations, .banksLastActive, .banksMerge, .banksPauses, .banksSealMap, .banksSeals, .banksValid, .fabricPlan, .fabricSlots, .powerDoms, .queuesComb, .queuesCopies, .queuesResults, .queuesSlipq, .regs, .remoteOutMsgs, .remoteOutStage, .replicasStrays, .replicasUnsafeRegs, .streamsAborts, .streamsCtxs, .streamsTiles, .supAllocs, .supCmds, .supEventNow, .supEvents, .supInputs, .supNextEvent, .supSideOrder, .supW1cSet] : List StatePart)) (a0 : Sys2Proof.Die) (a1 : Sys2Proof.Win) (a2 : Sys2Proof.Word) (a3 : Sys2Proof.Word) (a4 : Sys2Proof.Machine.State) :
    ∀ t, execStructureConfigWrite a0 a1 a2 a3 a4 = .next t → part t p = part a4 p := by
  simp at h
  unfold execStructureConfigWrite
  refine act_part p _ _ _ (fun h1 h2 => ?_)
  repeat' split
  all_goals simp [h]

/-! ### RemoteOut -/

theorem execPutHandoff_part (p : StatePart) (h : p ∉ ([.banksCollations, .banksLastActive, .banksMem, .banksMerge, .banksPauses, .banksSealMap, .banksSeals, .banksValid, .draws, .fabricAccs, .fabricBooked, .fabricCounters, .fabricHolds, .fabricNextSlot, .fabricPlan, .fabricSlots, .now, .out, .powerDoms, .queuesSlipq, .regs, .remoteCounters, .remoteOutMsgs, .remoteOutStage, .remoteOverdue, .remoteTranslator, .replicasBaroCorr, .replicasStrays, .streamsAborts, .streamsCtxs, .streamsTiles, .streamsTokens, .supAllocs, .supCmds, .supEventNow, .supEvents, .supInputs, .supNextEvent, .supSideOrder, .supW1cSet] : List StatePart)) (a0 : Nat) (a1 : Sys2Proof.Machine.State) :
    ∀ t, execPutHandoff a0 a1 = .next t → part t p = part a1 p := by
  simp at h
  unfold execPutHandoff
  refine act_part p _ _ _ (fun h1 h2 => ?_)
  split
  · refine atDue_part p (by simp [h]) _ _ _ (fun u y e => ?_)
    try dsimp only
    repeat' split
    all_goals first | rfl | simp [h, e]
  · rfl

theorem execGetRequestAtEngine_part (p : StatePart) (h : p ∉ ([.banksCollations, .banksLastActive, .banksMerge, .banksPauses, .banksSealMap, .banksSeals, .banksValid, .fabricCounters, .fabricNextSlot, .fabricPlan, .fabricSlots, .out, .powerDoms, .queuesSlipq, .regs, .remoteCounters, .remoteOutMsgs, .remoteOutStage, .remoteOverdue, .remoteTranslator, .securityDenialSeen, .streamsAborts, .streamsCtxs, .streamsTiles, .supAllocs, .supCmds, .supEventNow, .supEvents, .supInputs, .supNextEvent, .supSideOrder, .supW1cSet] : List StatePart)) (a0 : Nat) (a1 : Sys2Proof.Machine.State) :
    ∀ t, execGetRequestAtEngine a0 a1 = .next t → part t p = part a1 p := by
  simp at h
  unfold execGetRequestAtEngine
  refine act_part p _ _ _ (fun h1 h2 => ?_)
  repeat' split
  all_goals simp [h]

theorem execGetdataReceive_part (p : StatePart) (h : p ∉ ([.banksCollations, .banksLastActive, .banksMerge, .banksPauses, .banksValid, .fabricCounters, .fabricPlan, .fabricSlots, .powerDoms, .regs, .remoteOutMsgs, .remoteOverdue] : List StatePart)) (a0 : Sys2Proof.Die) (a1 : Sys2Proof.RemoteMsg) (a2 : Sys2Proof.Machine.State) :
    ∀ t, execGetdataReceive a0 a1 a2 = .next t → part t p = part a2 p := by
  simp at h
  unfold execGetdataReceive
  refine act_part p _ _ _ (fun h1 h2 => ?_)
  repeat' split
  all_goals simp [h]

theorem execRemoteStatusReceive_part (p : StatePart) (h : p ∉ ([.banksCollations, .banksLastActive, .banksMerge, .banksPauses, .banksSealMap, .banksSeals, .banksValid, .fabricCounters, .fabricNextSlot, .fabricPlan, .fabricSlots, .powerDoms, .queuesSlipq, .regs, .remoteOutMsgs, .remoteOutStage, .remoteOverdue, .remoteTranslator, .streamsAborts, .streamsCtxs, .streamsTiles, .supAllocs, .supCmds, .supEventNow, .supEvents, .supInputs, .supNextEvent, .supSideOrder, .supW1cSet] : List StatePart)) (a0 : Sys2Proof.Die) (a1 : Sys2Proof.RemoteMsg) (a2 : Sys2Proof.Machine.State) :
    ∀ t, execRemoteStatusReceive a0 a1 a2 = .next t → part t p = part a2 p := by
  simp at h
  unfold execRemoteStatusReceive
  refine act_part p _ _ _ (fun h1 h2 => ?_)
  repeat' split
  all_goals simp [h]

theorem execRemoteOverdue_part (p : StatePart) (h : p ∉ ([.banksCollations, .banksLastActive, .banksMem, .banksMerge, .banksPauses, .banksSeals, .banksValid, .draws, .fabricAccs, .fabricBooked, .fabricCounters, .fabricHolds, .fabricSlots, .now, .powerDoms, .regs, .remoteOutMsgs, .remoteOverdue, .replicasBaroCorr, .replicasStrays, .streamsCtxs, .streamsTokens, .supEventNow, .supEvents, .supNextEvent] : List StatePart)) (a0 : Nat) (a1 : Sys2Proof.Machine.State) :
    ∀ t, execRemoteOverdue a0 a1 = .next t → part t p = part a1 p := by
  simp at h
  unfold execRemoteOverdue
  refine act_part p _ _ _ (fun h1 h2 => ?_)
  repeat' split
  all_goals simp [h]

/-! ### RemoteIn -/

theorem execRemoteMessageArrive_part (p : StatePart) (h : p ∉ ([.fabricCounters, .out, .remoteCounters, .remoteNextMsg, .remoteStaged] : List StatePart)) (a0 : Sys2Proof.Die) (a1 : Sys2Proof.RemoteMsg) (a2 : Sys2Proof.Machine.State) :
    ∀ t, execRemoteMessageArrive a0 a1 a2 = .next t → part t p = part a2 p := by
  simp at h
  unfold execRemoteMessageArrive
  refine act_part p _ _ _ (fun h1 h2 => ?_)
  simp [h]

theorem execInboundCloseComplete_part (p : StatePart) (h : p ∉ ([.regs] : List StatePart)) (a0 : Sys2Proof.Die) (a1 : BitVec 10) (a2 : Sys2Proof.Machine.State) :
    ∀ t, execInboundCloseComplete a0 a1 a2 = .next t → part t p = part a2 p := by
  simp at h
  unfold execInboundCloseComplete
  refine act_part p _ _ _ (fun h1 h2 => ?_)
  simp [h]

theorem execRemoteMessageStaged_part (p : StatePart) (h : p ∉ ([.banksCollations, .banksLastActive, .banksMerge, .banksPauses, .banksValid, .fabricCounters, .fabricNextSlot, .fabricPlan, .fabricSlots, .out, .powerDoms, .queuesNextOp, .queuesOps, .queuesSlipq, .regs, .remoteCounters, .remoteRingCount, .remoteStaged, .remoteTranslator, .supCatCorrected, .supCatReported, .supEventNow, .supEvents, .supNextEvent] : List StatePart)) (a0 : Nat) (a1 : Sys2Proof.Machine.State) :
    ∀ t, execRemoteMessageStaged a0 a1 = .next t → part t p = part a1 p := by
  simp at h
  unfold execRemoteMessageStaged
  refine act_part p _ _ _ (fun h1 h2 => ?_)
  repeat' split
  all_goals simp [h]

theorem execInboundWindowOpen_part (p : StatePart) (h : p ∉ ([.banksLastActive, .banksMerge, .fabricCounters, .fabricPlan, .fabricSlots, .out, .queuesNextOp, .queuesOps, .queuesSlipq, .regs, .remoteCounters, .remoteRingCount, .remoteStaged, .replicasStrays, .replicasUnsafeRegs, .supCatCorrected, .supCatReported, .supEventNow, .supEvents, .supNextEvent] : List StatePart)) (a0 : Sys2Proof.Die) (a1 : Sys2Proof.Win) (a2 : BitVec 10) (a3 : Sys2Proof.Word) (a4 : Sys2Proof.Machine.State) :
    ∀ t, execInboundWindowOpen a0 a1 a2 a3 a4 = .next t → part t p = part a4 p := by
  simp at h
  unfold execInboundWindowOpen
  refine act_part p _ _ _ (fun h1 h2 => ?_)
  simp [h]

theorem execInboundWindowClose_part (p : StatePart) (h : p ∉ ([.banksLastActive, .banksMerge, .fabricCounters, .fabricPlan, .fabricSlots, .out, .queuesNextOp, .queuesOps, .queuesSlipq, .regs, .remoteCounters, .remoteRingCount, .remoteStaged, .replicasStrays, .replicasUnsafeRegs, .supCatCorrected, .supCatReported, .supEventNow, .supEvents, .supNextEvent] : List StatePart)) (a0 : Sys2Proof.Die) (a1 : Sys2Proof.Win) (a2 : BitVec 10) (a3 : Sys2Proof.Word) (a4 : Sys2Proof.Machine.State) :
    ∀ t, execInboundWindowClose a0 a1 a2 a3 a4 = .next t → part t p = part a4 p := by
  simp at h
  unfold execInboundWindowClose
  refine act_part p _ _ _ (fun h1 h2 => ?_)
  simp [h]

theorem execRinHeadWrite_part (p : StatePart) (h : p ∉ ([.regs, .supEventNow, .supEvents, .supNextEvent] : List StatePart)) (a0 : Sys2Proof.Die) (a1 : Sys2Proof.RinWriter) (a2 : BitVec 10) (a3 : Sys2Proof.Word) (a4 : Sys2Proof.Machine.State) :
    ∀ t, execRinHeadWrite a0 a1 a2 a3 a4 = .next t → part t p = part a4 p := by
  simp at h
  unfold execRinHeadWrite
  refine act_part p _ _ _ (fun h1 h2 => ?_)
  simp [h]

theorem execRwinCfgWrite_part (p : StatePart) (h : p ∉ ([.regs, .replicasStrays, .replicasUnsafeRegs, .supEventNow, .supEvents, .supNextEvent] : List StatePart)) (a0 : Sys2Proof.Die) (a1 : Sys2Proof.Win) (a2 : BitVec 10) (a3 : Sys2Proof.RwinReg) (a4 : Sys2Proof.Word) (a5 : Sys2Proof.Machine.State) :
    ∀ t, execRwinCfgWrite a0 a1 a2 a3 a4 a5 = .next t → part t p = part a5 p := by
  simp at h
  unfold execRwinCfgWrite
  refine act_part p _ _ _ (fun h1 h2 => ?_)
  simp [h]

/-! ### Delivery -/

theorem execSlotDelivered_part (p : StatePart) (h : p ∉ ([.banksCacheLru, .banksCacheWays, .banksCollations, .banksLastActive, .banksMem, .banksMerge, .banksPauses, .banksSealMap, .banksSeals, .banksValid, .draws, .fabricAccs, .fabricBooked, .fabricCounters, .fabricHolds, .fabricNextSlot, .fabricPlan, .fabricSlots, .now, .out, .powerDoms, .queuesNextOp, .queuesOps, .queuesSlipq, .regs, .remoteCounters, .remoteOutMsgs, .remoteOutStage, .remoteOverdue, .remoteStaged, .remoteTranslator, .replicasBaroCorr, .replicasStrays, .streamsAborts, .streamsCtxs, .streamsTiles, .streamsTokens, .supAllocs, .supCmds, .supEventNow, .supEvents, .supInputs, .supNextEvent, .supSideOrder, .supW1cSet] : List StatePart)) (a0 : Nat) (a1 : Sys2Proof.Machine.State) :
    ∀ t, execSlotDelivered a0 a1 = .next t → part t p = part a1 p := by
  simp at h
  unfold execSlotDelivered
  refine act_part p _ _ _ (fun h1 h2 => ?_)
  split
  · rfl
  · refine atDue_part p (by simp [h]) _ _ _ (fun u y e => ?_)
    try dsimp only
    repeat' split
    all_goals first | rfl | simp [h, e]

theorem execStorePortResponse_part (p : StatePart) (h : p ∉ ([.banksCacheLru, .banksCacheWays, .banksCollations, .banksLastActive, .banksMem, .banksMerge, .banksPauses, .banksSealMap, .banksSeals, .banksValid, .fabricCounters, .fabricNextSlot, .fabricPlan, .fabricSlots, .out, .powerDoms, .queuesNextOp, .queuesOps, .queuesSlipq, .regs, .remoteCounters, .remoteOutMsgs, .remoteOutStage, .remoteOverdue, .remoteStaged, .remoteTranslator, .streamsAborts, .streamsCtxs, .streamsTiles, .supAllocs, .supCmds, .supEventNow, .supEvents, .supInputs, .supNextEvent, .supSideOrder, .supW1cSet] : List StatePart)) (a0 : Nat) (a1 : List Sys2Proof.Byte) (a2 : Sys2Proof.Machine.State) :
    ∀ t, execStorePortResponse a0 a1 a2 = .next t → part t p = part a2 p := by
  simp at h
  unfold execStorePortResponse
  refine act_part p _ _ _ (fun h1 h2 => ?_)
  repeat' split
  all_goals simp [h]

/-! ### FabricCmds -/

theorem execFrameStart_part (p : StatePart) (h : p ∉ ([.banksCollations, .banksLastActive, .banksMem, .banksMerge, .banksPauses, .banksSeals, .banksValid, .draws, .fabricAccs, .fabricBooked, .fabricClearWanted, .fabricCounters, .fabricHolds, .fabricSlots, .fabricSnapWanted, .fabricSnaps, .frame, .now, .powerDoms, .regs, .remoteOutMsgs, .replicasBaroCorr, .replicasStrays, .streamsCtxs, .streamsTokens, .supEventNow, .supEvents, .supNextEvent] : List StatePart)) (a0 : Sys2Proof.Machine.State) :
    ∀ t, execFrameStart a0 = .next t → part t p = part a0 p := by
  simp at h
  unfold execFrameStart
  refine act_part p _ _ _ (fun h1 h2 => ?_)
  simp [h]

theorem execRegWindowEdge_part (p : StatePart) (h : p ∉ ([.banksCollations, .banksLastActive, .banksMerge, .banksPauses, .banksValid, .fabricBudgets, .fabricCounters, .fabricGuestCount, .fabricGuestNext, .fabricGuestPending, .fabricGuests, .fabricSlots, .fabricTenures, .fabricUsedNext, .fabricWindow, .powerDoms, .queuesCopies, .regs, .replicasBallots, .replicasStrays, .replicasUnsafeRegs] : List StatePart)) (a0 : Sys2Proof.Machine.State) :
    ∀ t, execRegWindowEdge a0 = .next t → part t p = part a0 p := by
  simp at h
  unfold execRegWindowEdge
  refine act_part p _ _ _ (fun h1 h2 => ?_)
  simp [h]

theorem execSegmentFreeze_part (p : StatePart) (h : p ∉ ([.regs] : List StatePart)) (a0 : Sys2Proof.Die) (a1 : Sys2Proof.Win) (a2 : Sys2Proof.SegId) (a3 : Sys2Proof.Word) (a4 : Sys2Proof.Machine.State) :
    ∀ t, execSegmentFreeze a0 a1 a2 a3 a4 = .next t → part t p = part a4 p := by
  simp at h
  unfold execSegmentFreeze
  refine act_part p _ _ _ (fun h1 h2 => ?_)
  simp [h]

theorem execWatchdogFire_part (p : StatePart) (h : p ∉ ([.banksCollations, .banksLastActive, .banksMem, .banksMerge, .banksPauses, .banksSealMap, .banksSeals, .banksValid, .draws, .fabricAccs, .fabricBooked, .fabricCounters, .fabricHolds, .fabricPlan, .fabricSlots, .fabricTenures, .fabricWdogFenced, .now, .powerDoms, .queuesSlipq, .regs, .remoteOutMsgs, .replicasBaroCorr, .replicasStrays, .streamsAborts, .streamsCtxs, .streamsTiles, .streamsTokens, .supAllocs, .supCmds, .supEventNow, .supEvents, .supInputs, .supNextEvent, .supSideOrder, .supW1cSet] : List StatePart)) (a0 : Sys2Proof.Die) (a1 : Sys2Proof.SegId) (a2 : Sys2Proof.SlotClass) (a3 : Sys2Proof.Machine.State) :
    ∀ t, execWatchdogFire a0 a1 a2 a3 = .next t → part t p = part a3 p := by
  simp at h
  unfold execWatchdogFire
  refine act_part p _ _ _ (fun h1 h2 => ?_)
  repeat' split
  all_goals simp [h]

theorem execSquallPop_part (p : StatePart) (h : p ∉ ([.fabricSquallNow, .fabricSqualls, .regs] : List StatePart)) (a0 : Sys2Proof.Die) (a1 : Sys2Proof.Win) (a2 : Sys2Proof.Word) (a3 : Sys2Proof.Machine.State) :
    ∀ t, execSquallPop a0 a1 a2 a3 = .next t → part t p = part a3 p := by
  simp at h
  unfold execSquallPop
  refine act_part p _ _ _ (fun h1 h2 => ?_)
  simp [h]

theorem execSquallClrLost_part (p : StatePart) (h : p ∉ ([.fabricSquallNow, .fabricSqualls, .regs] : List StatePart)) (a0 : Sys2Proof.Die) (a1 : Sys2Proof.Win) (a2 : Sys2Proof.Word) (a3 : Sys2Proof.Machine.State) :
    ∀ t, execSquallClrLost a0 a1 a2 a3 = .next t → part t p = part a3 p := by
  simp at h
  unfold execSquallClrLost
  refine act_part p _ _ _ (fun h1 h2 => ?_)
  simp [h]

theorem execPerfSnap_part (p : StatePart) (h : p ∉ ([.fabricClearWanted, .fabricSnapWanted, .regs] : List StatePart)) (a0 : Sys2Proof.Die) (a1 : Sys2Proof.Win) (a2 : Sys2Proof.Word) (a3 : Sys2Proof.Machine.State) :
    ∀ t, execPerfSnap a0 a1 a2 a3 = .next t → part t p = part a3 p := by
  simp at h
  unfold execPerfSnap
  refine act_part p _ _ _ (fun h1 h2 => ?_)
  simp [h]

theorem execPerfClear_part (p : StatePart) (h : p ∉ ([.fabricClearWanted, .fabricSnapWanted, .regs] : List StatePart)) (a0 : Sys2Proof.Die) (a1 : Sys2Proof.Win) (a2 : Sys2Proof.Word) (a3 : Sys2Proof.Machine.State) :
    ∀ t, execPerfClear a0 a1 a2 a3 = .next t → part t p = part a3 p := by
  simp at h
  unfold execPerfClear
  refine act_part p _ _ _ (fun h1 h2 => ?_)
  simp [h]

theorem execCounterSnapshot_part (p : StatePart) (h : p ∉ ([.banksCollations, .banksLastActive, .banksMem, .banksMerge, .banksPauses, .banksSeals, .banksValid, .draws, .fabricAccs, .fabricBooked, .fabricClearWanted, .fabricCounters, .fabricHolds, .fabricSlots, .fabricSnapWanted, .fabricSnaps, .frame, .now, .powerDoms, .regs, .remoteOutMsgs, .replicasBaroCorr, .replicasStrays, .streamsCtxs, .streamsTokens, .supEventNow, .supEvents, .supNextEvent] : List StatePart)) (a0 : Sys2Proof.Die) (a1 : Sys2Proof.Machine.State) :
    ∀ t, execCounterSnapshot a0 a1 = .next t → part t p = part a1 p := by
  simp at h
  unfold execCounterSnapshot
  refine act_part p _ _ _ (fun h1 h2 => ?_)
  simp [h]

/-! ### Weeding -/

theorem execWeedPhase1End_part (p : StatePart) (h : p ∉ ([.banksCacheLru, .banksCacheWays, .banksClassMap, .banksCollations, .banksLastActive, .banksLost, .banksMem, .banksMerge, .banksPauses, .banksSealMap, .banksSeals, .banksTags, .banksValid, .banksZeroing, .draws, .fabricAccs, .fabricBooked, .fabricCounters, .fabricHolds, .fabricPlan, .fabricSlots, .now, .powerDoms, .powerRecord, .queuesComb, .queuesResults, .queuesSlipq, .regs, .remoteOutMsgs, .remoteOutStage, .remoteTranslator, .replicasBaroCorr, .replicasStrays, .replicasUnsafeRegs, .streamsAborts, .streamsCtxs, .streamsTiles, .streamsTokens, .supAllocs, .supCatFreed, .supCatReported, .supCatUpsets, .supCmds, .supEventNow, .supEvents, .supInputs, .supNextEvent, .supSideOrder, .supW1cSet] : List StatePart)) (a0 : Sys2Proof.BankNo) (a1 : Sys2Proof.Machine.State) :
    ∀ t, execWeedPhase1End a0 a1 = .next t → part t p = part a1 p := by
  simp at h
  unfold execWeedPhase1End
  refine act_part p _ _ _ (fun h1 h2 => ?_)
  repeat' split
  all_goals simp [h]

theorem execBankOwnWrite_part (p : StatePart) (h : p ∉ ([.banksLastActive, .banksMerge, .banksPauses, .banksSealMap, .banksSeals, .banksTags, .banksValid, .banksZeroing, .fabricPlan, .fabricSlots, .powerDoms, .powerMarchDoms, .powerMarches, .queuesComb, .queuesResults, .queuesSlipq, .regs, .remoteOutMsgs, .remoteOutStage, .replicasStrays, .replicasUnsafeRegs, .streamsAborts, .streamsCtxs, .streamsTiles, .supAllocs, .supCmds, .supEventNow, .supEvents, .supInputs, .supNextEvent, .supSideOrder, .supW1cSet] : List StatePart)) (a0 : Sys2Proof.Die) (a1 : Sys2Proof.Win) (a2 : BitVec 13) (a3 : Sys2Proof.Word) (a4 : Sys2Proof.Machine.State) :
    ∀ t, execBankOwnWrite a0 a1 a2 a3 a4 = .next t → part t p = part a4 p := by
  simp at h
  unfold execBankOwnWrite
  refine act_part p _ _ _ (fun h1 h2 => ?_)
  simp [h]

theorem execHandoverTagsInForce_part (p : StatePart) (h : p ∉ ([.banksCollations, .banksLastActive, .banksMem, .banksMerge, .banksPauses, .banksSeals, .banksTags, .banksValid, .draws, .fabricAccs, .fabricBooked, .fabricCounters, .fabricHolds, .fabricSlots, .now, .powerDoms, .regs, .remoteOutMsgs, .replicasBaroCorr, .replicasStrays, .streamsCtxs, .streamsTokens, .supEventNow, .supEvents, .supNextEvent] : List StatePart)) (a0 : Sys2Proof.BankNo) (a1 : Sys2Proof.Machine.State) :
    ∀ t, execHandoverTagsInForce a0 a1 = .next t → part t p = part a1 p := by
  simp at h
  unfold execHandoverTagsInForce
  refine act_part p _ _ _ (fun h1 h2 => ?_)
  repeat' split
  all_goals simp [h]

theorem execWeedZeroRow_part (p : StatePart) (h : p ∉ ([.banksCollations, .banksLastActive, .banksMem, .banksMerge, .banksPauses, .banksSeals, .banksValid, .banksZeroing, .draws, .fabricAccs, .fabricBooked, .fabricCounters, .fabricHolds, .fabricSlots, .now, .powerDoms, .regs, .remoteOutMsgs, .replicasBaroCorr, .replicasStrays, .streamsCtxs, .streamsTokens, .supEventNow, .supEvents, .supNextEvent] : List StatePart)) (a0 : Sys2Proof.BankNo) (a1 : Sys2Proof.Machine.State) :
    ∀ t, execWeedZeroRow a0 a1 = .next t → part t p = part a1 p := by
  simp at h
  unfold execWeedZeroRow
  refine act_part p _ _ _ (fun h1 h2 => ?_)
  repeat' split
  all_goals simp [h]

theorem execWeedBank_part (p : StatePart) (h : p ∉ ([.banksLastActive, .banksPauses, .banksValid, .banksZeroing, .powerDoms, .powerMarchDoms, .powerMarches, .regs, .supAllocs, .supCmds, .supEventNow, .supEvents, .supInputs, .supNextEvent, .supSideOrder, .supW1cSet] : List StatePart)) (a0 : Sys2Proof.CmdSrc) (a1 : Sys2Proof.Machine.State) :
    ∀ t, execWeedBank a0 a1 = .next t → part t p = part a1 p := by
  simp at h
  unfold execWeedBank
  refine cmdAct_part p _ _ _ _ (fun h1 h2 s => ?_)
  repeat' split
  all_goals simp [h]

theorem execWeedAll_part (p : StatePart) (h : p ∉ ([.banksCollations, .banksLastActive, .banksMerge, .banksPauses, .banksValid, .banksZeroing, .fabricSlots, .powerDoms, .powerMarchDoms, .powerMarches, .regs, .supAllocs, .supCmds, .supEventNow, .supEvents, .supInputs, .supNextEvent, .supSideOrder, .supW1cSet] : List StatePart)) (a0 : Sys2Proof.CmdSrc) (a1 : Sys2Proof.Machine.State) :
    ∀ t, execWeedAll a0 a1 = .next t → part t p = part a1 p := by
  simp at h
  unfold execWeedAll
  refine cmdAct_part p _ _ _ _ (fun h1 h2 s => ?_)
  simp [h]

/-! ### Banks -/

theorem execBankWakeEnd_part (p : StatePart) (h : p ∉ ([.banksCollations, .banksLastActive, .banksMem, .banksMerge, .banksPauses, .banksSeals, .banksValid, .banksZeroing, .draws, .fabricAccs, .fabricBooked, .fabricCounters, .fabricHolds, .fabricSlots, .now, .powerDoms, .regs, .remoteOutMsgs, .replicasBaroCorr, .replicasStrays, .streamsCtxs, .streamsTokens, .supEventNow, .supEvents, .supNextEvent] : List StatePart)) (a0 : Sys2Proof.BankNo) (a1 : Sys2Proof.Machine.State) :
    ∀ t, execBankWakeEnd a0 a1 = .next t → part t p = part a1 p := by
  simp at h
  unfold execBankWakeEnd
  refine act_part p _ _ _ (fun h1 h2 => ?_)
  repeat' split
  all_goals simp [h]

theorem execMergeEntryDue_part (p : StatePart) (h : p ∉ ([.banksCollations, .banksLastActive, .banksMem, .banksMerge, .banksPauses, .banksSeals, .banksValid, .draws, .fabricAccs, .fabricBooked, .fabricCounters, .fabricHolds, .fabricSlots, .now, .powerDoms, .regs, .remoteOutMsgs, .replicasBaroCorr, .replicasStrays, .streamsCtxs, .streamsTokens, .supEventNow, .supEvents, .supNextEvent] : List StatePart)) (a0 : Nat) (a1 : Sys2Proof.Machine.State) :
    ∀ t, execMergeEntryDue a0 a1 = .next t → part t p = part a1 p := by
  simp at h
  unfold execMergeEntryDue
  refine act_part p _ _ _ (fun h1 h2 => ?_)
  repeat' split
  all_goals simp [h]

theorem execMergeFlush_part (p : StatePart) (h : p ∉ ([.banksCollations, .banksLastActive, .banksMem, .banksMerge, .banksPauses, .banksSeals, .banksValid, .draws, .fabricAccs, .fabricBooked, .fabricCounters, .fabricHolds, .fabricSlots, .now, .powerDoms, .regs, .remoteOutMsgs, .replicasBaroCorr, .replicasStrays, .streamsCtxs, .streamsTokens, .supEventNow, .supEvents, .supNextEvent] : List StatePart)) (a0 : Nat) (a1 : Sys2Proof.Machine.State) :
    ∀ t, execMergeFlush a0 a1 = .next t → part t p = part a1 p := by
  simp at h
  unfold execMergeFlush
  refine act_part p _ _ _ (fun h1 h2 => ?_)
  repeat' (first | (simp [h]; done) | split | (dsimp only; split))

theorem execMergeFlushAll_part (p : StatePart) (h : p ∉ ([.banksCollations, .banksLastActive, .banksMerge, .banksPauses, .banksValid, .fabricSlots, .powerDoms, .regs] : List StatePart)) (a0 : Sys2Proof.Die) (a1 : Sys2Proof.Win) (a2 : Sys2Proof.Cluster) (a3 : Sys2Proof.Word) (a4 : Sys2Proof.Machine.State) :
    ∀ t, execMergeFlushAll a0 a1 a2 a3 a4 = .next t → part t p = part a4 p := by
  simp at h
  unfold execMergeFlushAll
  refine act_part p _ _ _ (fun h1 h2 => ?_)
  simp [h]

theorem execCollationRead_part (p : StatePart) (h : p ∉ ([.banksCollations, .banksLastActive, .banksMem, .banksMerge, .banksPauses, .banksSeals, .banksValid, .draws, .fabricAccs, .fabricBooked, .fabricCounters, .fabricHolds, .fabricSlots, .now, .powerDoms, .regs, .remoteOutMsgs, .replicasBaroCorr, .replicasStrays, .streamsCtxs, .streamsTokens, .supEventNow, .supEvents, .supNextEvent] : List StatePart)) (a0 : Sys2Proof.FolioNo) (a1 : Sys2Proof.Machine.State) :
    ∀ t, execCollationRead a0 a1 = .next t → part t p = part a1 p := by
  simp at h
  unfold execCollationRead
  refine act_part p _ _ _ (fun h1 h2 => ?_)
  repeat' split
  all_goals simp [h]

theorem execCollationDone_part (p : StatePart) (h : p ∉ ([.banksCollations, .banksLastActive, .banksMem, .banksMerge, .banksPauses, .banksSeals, .banksValid, .draws, .fabricAccs, .fabricBooked, .fabricCounters, .fabricHolds, .fabricSlots, .now, .powerDoms, .regs, .remoteOutMsgs, .replicasBaroCorr, .replicasStrays, .streamsCtxs, .streamsTokens, .supEventNow, .supEvents, .supNextEvent] : List StatePart)) (a0 : Sys2Proof.FolioNo) (a1 : Sys2Proof.Machine.State) :
    ∀ t, execCollationDone a0 a1 = .next t → part t p = part a1 p := by
  simp at h
  unfold execCollationDone
  refine act_part p _ _ _ (fun h1 h2 => ?_)
  repeat' split
  all_goals simp [h]

theorem execCollationEntryDrop_part (p : StatePart) (h : p ∉ ([.banksCollations, .banksLastActive, .banksMem, .banksMerge, .banksPauses, .banksSeals, .banksValid, .draws, .fabricAccs, .fabricBooked, .fabricCounters, .fabricHolds, .fabricSlots, .now, .powerDoms, .regs, .remoteOutMsgs, .replicasBaroCorr, .replicasStrays, .streamsCtxs, .streamsTokens, .supEventNow, .supEvents, .supNextEvent] : List StatePart)) (a0 : Sys2Proof.FolioNo) (a1 : Sys2Proof.Machine.State) :
    ∀ t, execCollationEntryDrop a0 a1 = .next t → part t p = part a1 p := by
  simp at h
  unfold execCollationEntryDrop
  refine act_part p _ _ _ (fun h1 h2 => ?_)
  repeat' split
  all_goals simp [h]

theorem execSealParityWrite_part (p : StatePart) (h : p ∉ ([.banksCollations, .banksLastActive, .banksMem, .banksMerge, .banksPauses, .banksSealMap, .banksSeals, .banksValid, .draws, .fabricAccs, .fabricBooked, .fabricCounters, .fabricHolds, .fabricSlots, .now, .powerDoms, .regs, .remoteOutMsgs, .replicasBaroCorr, .replicasStrays, .streamsCtxs, .streamsTokens, .supEventNow, .supEvents, .supNextEvent] : List StatePart)) (a0 : Sys2Proof.FolioNo) (a1 : Sys2Proof.Machine.State) :
    ∀ t, execSealParityWrite a0 a1 = .next t → part t p = part a1 p := by
  simp at h
  unfold execSealParityWrite
  refine act_part p _ _ _ (fun h1 h2 => ?_)
  repeat' split
  all_goals simp [h]

theorem execBankRemapWrite_part (p : StatePart) (h : p ∉ ([.banksCollations, .banksLastActive, .banksMerge, .banksPauses, .banksRemapCopies, .banksValid, .fabricSlots, .powerDoms, .regs, .replicasStrays, .replicasUnsafeRegs, .supEventNow, .supEvents, .supNextEvent] : List StatePart)) (a0 : Sys2Proof.Die) (a1 : Sys2Proof.Win) (a2 : BitVec 13) (a3 : BitVec 2) (a4 : Sys2Proof.Word) (a5 : Sys2Proof.Machine.State) :
    ∀ t, execBankRemapWrite a0 a1 a2 a3 a4 a5 = .next t → part t p = part a5 p := by
  simp at h
  unfold execBankRemapWrite
  refine act_part p _ _ _ (fun h1 h2 => ?_)
  simp [h]

theorem execRemapCopy_part (p : StatePart) (h : p ∉ ([.banksCollations, .banksLastActive, .banksMem, .banksMerge, .banksPauses, .banksRemapCopies, .banksSeals, .banksValid, .draws, .fabricAccs, .fabricBooked, .fabricCounters, .fabricHolds, .fabricSlots, .now, .powerDoms, .regs, .remoteOutMsgs, .replicasBaroCorr, .replicasStrays, .streamsCtxs, .streamsTokens, .supEventNow, .supEvents, .supNextEvent] : List StatePart)) (a0 : Sys2Proof.BankNo) (a1 : BitVec 2) (a2 : Sys2Proof.Machine.State) :
    ∀ t, execRemapCopy a0 a1 a2 = .next t → part t p = part a2 p := by
  simp at h
  unfold execRemapCopy
  refine act_part p _ _ _ (fun h1 h2 => ?_)
  repeat' split
  all_goals simp [h]

theorem execRawRead_part (p : StatePart) (h : p ∉ ([.banksRawOps, .regs] : List StatePart)) (a0 : Sys2Proof.Die) (a1 : Sys2Proof.Win) (a2 : Sys2Proof.Machine.State) :
    ∀ t, execRawRead a0 a1 a2 = .next t → part t p = part a2 p := by
  simp at h
  unfold execRawRead
  refine act_part p _ _ _ (fun h1 h2 => ?_)
  simp [h]

theorem execRawWrite_part (p : StatePart) (h : p ∉ ([.banksRawOps, .regs] : List StatePart)) (a0 : Sys2Proof.Die) (a1 : Sys2Proof.Win) (a2 : Sys2Proof.Machine.State) :
    ∀ t, execRawWrite a0 a1 a2 = .next t → part t p = part a2 p := by
  simp at h
  unfold execRawWrite
  refine act_part p _ _ _ (fun h1 h2 => ?_)
  simp [h]

theorem execRawSealmark_part (p : StatePart) (h : p ∉ ([.banksRawOps, .regs] : List StatePart)) (a0 : Sys2Proof.Die) (a1 : Sys2Proof.Win) (a2 : Sys2Proof.Machine.State) :
    ∀ t, execRawSealmark a0 a1 a2 = .next t → part t p = part a2 p := by
  simp at h
  unfold execRawSealmark
  refine act_part p _ _ _ (fun h1 h2 => ?_)
  simp [h]

theorem execRawOpExecute_part (p : StatePart) (h : p ∉ ([.banksCollations, .banksLastActive, .banksMem, .banksMerge, .banksPauses, .banksRawOps, .banksSealMap, .banksSeals, .banksValid, .draws, .fabricAccs, .fabricBooked, .fabricCounters, .fabricHolds, .fabricSlots, .now, .powerDoms, .regs, .remoteOutMsgs, .replicasBaroCorr, .replicasStrays, .streamsCtxs, .streamsTokens, .supEventNow, .supEvents, .supNextEvent] : List StatePart)) (a0 : Sys2Proof.Die) (a1 : Sys2Proof.Machine.State) :
    ∀ t, execRawOpExecute a0 a1 = .next t → part t p = part a1 p := by
  simp at h
  unfold execRawOpExecute
  refine act_part p _ _ _ (fun h1 h2 => ?_)
  repeat' (first | (simp [h]; done) | split | (dsimp only; split))

theorem execBankEcntClr_part (p : StatePart) (h : p ∉ ([.regs] : List StatePart)) (a0 : Sys2Proof.Die) (a1 : Sys2Proof.Win) (a2 : BitVec 13) (a3 : Sys2Proof.Machine.State) :
    ∀ t, execBankEcntClr a0 a1 a2 a3 = .next t → part t p = part a3 p := by
  simp at h
  unfold execBankEcntClr
  refine act_part p _ _ _ (fun h1 h2 => ?_)
  simp [h]

/-! ### March -/

theorem execMarch_part (p : StatePart) (h : p ∉ ([.banksLastActive, .banksPauses, .banksValid, .powerDoms, .powerMarchDoms, .powerMarches, .regs, .supAllocs, .supCmds, .supEventNow, .supEvents, .supInputs, .supNextEvent, .supSideOrder, .supW1cSet] : List StatePart)) (a0 : Sys2Proof.CmdSrc) (a1 : Sys2Proof.Machine.State) :
    ∀ t, execMarch a0 a1 = .next t → part t p = part a1 p := by
  simp at h
  unfold execMarch
  refine cmdAct_part p _ _ _ _ (fun h1 h2 s => ?_)
  repeat' (first | (simp [h]; done) | split | (refine cmdChecked_part p (by simp [h]) _ _ _ _ (fun s => ?_)) | (dsimp only; split))

theorem execMarchOperation_part (p : StatePart) (h : p ∉ ([.banksCollations, .banksLastActive, .banksMem, .banksMerge, .banksPauses, .banksSeals, .banksValid, .banksZeroing, .draws, .fabricAccs, .fabricBooked, .fabricCounters, .fabricHolds, .fabricSlots, .now, .powerDoms, .powerMarchDoms, .powerMarches, .powerRecord, .regs, .remoteOutMsgs, .replicasBaroCorr, .replicasStrays, .replicasUnsafeRegs, .streamsCtxs, .streamsTokens, .supAllocs, .supCmds, .supEventNow, .supEvents, .supInputs, .supNextEvent, .supSideOrder, .supW1cSet] : List StatePart)) (a0 : Sys2Proof.BankNo) (a1 : Sys2Proof.MarchReads) (a2 : Sys2Proof.Machine.State) :
    ∀ t, execMarchOperation a0 a1 a2 = .next t → part t p = part a2 p := by
  simp at h
  unfold execMarchOperation
  refine act_part p _ _ _ (fun h1 h2 => ?_)
  repeat' split
  all_goals simp [h]

theorem execBankRetire_part (p : StatePart) (h : p ∉ ([.banksCacheLru, .banksCacheWays, .banksClassMap, .banksCollations, .banksLastActive, .banksLost, .banksMerge, .banksPauses, .banksSealMap, .banksSeals, .banksValid, .banksZeroing, .draws, .fabricPlan, .fabricSlots, .powerDoms, .powerMarchDoms, .powerMarches, .powerRecord, .queuesComb, .queuesResults, .queuesSlipq, .regs, .remoteOutMsgs, .remoteOutStage, .remoteTranslator, .streamsAborts, .streamsCtxs, .streamsTiles, .supAllocs, .supCatFreed, .supCatReported, .supCatUpsets, .supCmds, .supEventNow, .supEvents, .supInputs, .supNextEvent, .supSideOrder, .supW1cSet] : List StatePart)) (a0 : Sys2Proof.CmdSrc) (a1 : Sys2Proof.Machine.State) :
    ∀ t, execBankRetire a0 a1 = .next t → part t p = part a1 p := by
  simp at h
  unfold execBankRetire
  refine cmdAct_part p _ _ _ _ (fun h1 h2 s => ?_)
  repeat' split
  all_goals simp [h]

theorem execCoreFence_part (p : StatePart) (h : p ∉ ([.banksCacheLru, .banksCacheWays, .banksCollations, .banksLastActive, .banksMerge, .banksPauses, .banksValid, .banksZeroing, .draws, .fabricPlan, .fabricSlots, .powerDoms, .powerMarchDoms, .powerMarches, .powerRecord, .regs, .replicasStrays, .replicasUnsafeRegs, .supAllocs, .supCmds, .supEventNow, .supEvents, .supInputs, .supNextEvent, .supSideOrder, .supW1cSet] : List StatePart)) (a0 : Sys2Proof.CmdSrc) (a1 : Sys2Proof.Machine.State) :
    ∀ t, execCoreFence a0 a1 = .next t → part t p = part a1 p := by
  simp at h
  unfold execCoreFence
  refine cmdAct_part p _ _ _ _ (fun h1 h2 s => ?_)
  simp [h]

theorem execUnfence_part (p : StatePart) (h : p ∉ ([.fabricWdogFenced, .regs, .supAllocs, .supCmds, .supEventNow, .supEvents, .supInputs, .supNextEvent, .supSideOrder, .supW1cSet] : List StatePart)) (a0 : Sys2Proof.CmdSrc) (a1 : Sys2Proof.Machine.State) :
    ∀ t, execUnfence a0 a1 = .next t → part t p = part a1 p := by
  simp at h
  unfold execUnfence
  refine cmdAct_part p _ _ _ _ (fun h1 h2 s => ?_)
  simp [h]

/-! ### Power -/

theorem execPwrDown_part (p : StatePart) (h : p ∉ ([.banksCacheLru, .banksCacheWays, .banksCollations, .banksLastActive, .banksLost, .banksMem, .banksMerge, .banksPauses, .banksRemapCopies, .banksSealMap, .banksSeals, .banksTags, .banksValid, .banksZeroing, .fabricAccs, .fabricBooked, .fabricCounters, .fabricHolds, .fabricNextSlot, .fabricPlan, .fabricSlots, .out, .powerDoms, .powerMarchDoms, .powerMarches, .queuesComb, .queuesNextOp, .queuesOps, .queuesResults, .queuesSlipq, .regs, .remoteCounters, .remoteOutMsgs, .remoteOutStage, .remoteOverdue, .remoteStaged, .remoteTranslator, .replicasBaroCorr, .replicasPosts, .replicasUnsafeRegs, .streamsAborts, .streamsCtxs, .streamsTiles, .streamsTokens, .supAllocs, .supCatCorrected, .supCatReported, .supCatUpsets, .supCmds, .supEventNow, .supEvents, .supInputs, .supNextEvent, .supSideOrder, .supW1cSet] : List StatePart)) (a0 : Sys2Proof.CmdSrc) (a1 : Sys2Proof.Machine.State) :
    ∀ t, execPwrDown a0 a1 = .next t → part t p = part a1 p := by
  simp at h
  unfold execPwrDown
  refine cmdAct_part p _ _ _ _ (fun h1 h2 s => ?_)
  simp [h]

theorem execPwrDownComplete_part (p : StatePart) (h : p ∉ ([.powerDoms, .regs, .supAllocs, .supCmds, .supEventNow, .supEvents, .supInputs, .supNextEvent, .supSideOrder, .supW1cSet] : List StatePart)) (a0 : Sys2Proof.Die) (a1 : BitVec 6) (a2 : Sys2Proof.Machine.State) :
    ∀ t, execPwrDownComplete a0 a1 a2 = .next t → part t p = part a2 p := by
  simp at h
  unfold execPwrDownComplete
  refine act_part p _ _ _ (fun h1 h2 => ?_)
  simp [h]

theorem execPwrDownForce_part (p : StatePart) (h : p ∉ ([.banksCacheLru, .banksCacheWays, .banksCollations, .banksLastActive, .banksLost, .banksMem, .banksMerge, .banksPauses, .banksRemapCopies, .banksSealMap, .banksSeals, .banksTags, .banksValid, .banksZeroing, .fabricAccs, .fabricBooked, .fabricCounters, .fabricHolds, .fabricNextSlot, .fabricPlan, .fabricSlots, .out, .powerDoms, .powerMarchDoms, .powerMarches, .queuesComb, .queuesNextOp, .queuesOps, .queuesResults, .queuesSlipq, .regs, .remoteCounters, .remoteOutMsgs, .remoteOutStage, .remoteOverdue, .remoteStaged, .remoteTranslator, .replicasPosts, .replicasUnsafeRegs, .streamsAborts, .streamsCtxs, .streamsTiles, .streamsTokens, .supAllocs, .supCatCorrected, .supCatReported, .supCatUpsets, .supCmds, .supEventNow, .supEvents, .supInputs, .supNextEvent, .supSideOrder, .supW1cSet] : List StatePart)) (a0 : Sys2Proof.CmdSrc) (a1 : Sys2Proof.Machine.State) :
    ∀ t, execPwrDownForce a0 a1 = .next t → part t p = part a1 p := by
  simp at h
  unfold execPwrDownForce
  refine cmdAct_part p _ _ _ _ (fun h1 h2 s => ?_)
  simp [h]

theorem execPwrUp_part (p : StatePart) (h : p ∉ ([.powerDoms, .regs, .supAllocs, .supCmds, .supEventNow, .supEvents, .supInputs, .supNextEvent, .supSideOrder, .supW1cSet] : List StatePart)) (a0 : Sys2Proof.CmdSrc) (a1 : Sys2Proof.Machine.State) :
    ∀ t, execPwrUp a0 a1 = .next t → part t p = part a1 p := by
  simp at h
  unfold execPwrUp
  refine cmdAct_part p _ _ _ _ (fun h1 h2 s => ?_)
  simp [h]

theorem execPwrUpComplete_part (p : StatePart) (h : p ∉ ([.banksCacheLru, .banksCacheWays, .banksClassMap, .banksCollations, .banksLastActive, .banksLost, .banksMerge, .banksPauses, .banksSealMap, .banksSeals, .banksTags, .banksValid, .banksZeroing, .draws, .fabricPlan, .fabricSlots, .powerDoms, .powerRecord, .queuesComb, .queuesResults, .queuesSlipq, .regs, .remoteOutMsgs, .remoteOutStage, .remoteTranslator, .replicasStrays, .replicasUnsafeRegs, .streamsAborts, .streamsCtxs, .streamsTiles, .supAllocs, .supCatFreed, .supCatReported, .supCatUpsets, .supCmds, .supEventNow, .supEvents, .supInputs, .supNextEvent, .supSideOrder, .supW1cSet] : List StatePart)) (a0 : Sys2Proof.Die) (a1 : BitVec 6) (a2 : Sys2Proof.Machine.State) :
    ∀ t, execPwrUpComplete a0 a1 a2 = .next t → part t p = part a2 p := by
  simp at h
  unfold execPwrUpComplete
  refine act_part p _ _ _ (fun h1 h2 => ?_)
  simp [h]

theorem execBankPwrWrite_part (p : StatePart) (h : p ∉ ([.banksLastActive, .banksPauses, .banksValid, .powerDoms, .regs] : List StatePart)) (a0 : Sys2Proof.Die) (a1 : Sys2Proof.Win) (a2 : BitVec 13) (a3 : Sys2Proof.Word) (a4 : Sys2Proof.Machine.State) :
    ∀ t, execBankPwrWrite a0 a1 a2 a3 a4 = .next t → part t p = part a4 p := by
  simp at h
  unfold execBankPwrWrite
  refine act_part p _ _ _ (fun h1 h2 => ?_)
  simp [h]

theorem execBankClockGate_part (p : StatePart) (h : p ∉ ([.banksCollations, .banksLastActive, .banksMem, .banksMerge, .banksPauses, .banksSeals, .banksValid, .draws, .fabricAccs, .fabricBooked, .fabricCounters, .fabricHolds, .fabricSlots, .now, .powerDoms, .regs, .remoteOutMsgs, .replicasBaroCorr, .replicasStrays, .streamsCtxs, .streamsTokens, .supEventNow, .supEvents, .supNextEvent] : List StatePart)) (a0 : Sys2Proof.BankNo) (a1 : Sys2Proof.Machine.State) :
    ∀ t, execBankClockGate a0 a1 = .next t → part t p = part a1 p := by
  simp at h
  unfold execBankClockGate
  refine act_part p _ _ _ (fun h1 h2 => ?_)
  simp [h]

theorem execBankSleep_part (p : StatePart) (h : p ∉ ([.banksCollations, .banksLastActive, .banksMem, .banksMerge, .banksPauses, .banksSeals, .banksValid, .draws, .fabricAccs, .fabricBooked, .fabricCounters, .fabricHolds, .fabricSlots, .now, .powerDoms, .regs, .remoteOutMsgs, .replicasBaroCorr, .replicasStrays, .streamsCtxs, .streamsTokens, .supEventNow, .supEvents, .supNextEvent] : List StatePart)) (a0 : Sys2Proof.BankNo) (a1 : Sys2Proof.Machine.State) :
    ∀ t, execBankSleep a0 a1 = .next t → part t p = part a1 p := by
  simp at h
  unfold execBankSleep
  refine act_part p _ _ _ (fun h1 h2 => ?_)
  simp [h]

theorem execRetBankEnterOff_part (p : StatePart) (h : p ∉ ([.banksCollations, .banksLastActive, .banksMem, .banksMerge, .banksPauses, .banksSeals, .banksValid, .draws, .fabricAccs, .fabricBooked, .fabricCounters, .fabricHolds, .fabricSlots, .now, .powerDoms, .regs, .remoteOutMsgs, .replicasBaroCorr, .replicasStrays, .streamsCtxs, .streamsTokens, .supEventNow, .supEvents, .supNextEvent] : List StatePart)) (a0 : Sys2Proof.BankNo) (a1 : Sys2Proof.Machine.State) :
    ∀ t, execRetBankEnterOff a0 a1 = .next t → part t p = part a1 p := by
  simp at h
  unfold execRetBankEnterOff
  refine act_part p _ _ _ (fun h1 h2 => ?_)
  simp [h]

theorem execRegulatorLowEntry_part (p : StatePart) (h : p ∉ ([.banksCollations, .banksLastActive, .banksMem, .banksMerge, .banksPauses, .banksSeals, .banksValid, .draws, .fabricAccs, .fabricBooked, .fabricCounters, .fabricHolds, .fabricSlots, .now, .powerDoms, .regs, .remoteOutMsgs, .replicasBaroCorr, .replicasStrays, .streamsCtxs, .streamsTokens, .supEventNow, .supEvents, .supNextEvent] : List StatePart)) (a0 : Sys2Proof.Die) (a1 : BitVec 6) (a2 : Sys2Proof.Machine.State) :
    ∀ t, execRegulatorLowEntry a0 a1 a2 = .next t → part t p = part a2 p := by
  simp at h
  unfold execRegulatorLowEntry
  refine act_part p _ _ _ (fun h1 h2 => ?_)
  simp [h]

theorem execBrownout_part (p : StatePart) (h : p ∉ ([.banksCacheLru, .banksCacheWays, .banksCollations, .banksLastActive, .banksLost, .banksMem, .banksMerge, .banksPauses, .banksRemapCopies, .banksSealMap, .banksSeals, .banksTags, .banksValid, .banksZeroing, .draws, .fabricAccs, .fabricBooked, .fabricCounters, .fabricHolds, .fabricNextSlot, .fabricPlan, .fabricSlots, .out, .powerDoms, .powerMarchDoms, .powerMarches, .queuesComb, .queuesNextOp, .queuesOps, .queuesResults, .queuesSlipq, .regs, .remoteCounters, .remoteOutMsgs, .remoteOutStage, .remoteOverdue, .remoteStaged, .remoteTranslator, .replicasPosts, .replicasScans, .replicasUnsafeRegs, .replicasWrappers, .streamsAborts, .streamsCtxs, .streamsTiles, .streamsTokens, .supAllocs, .supCatCorrected, .supCatReported, .supCatUpsets, .supCmds, .supEventNow, .supEvents, .supInputs, .supNextEvent, .supSideOrder, .supW1cSet] : List StatePart)) (a0 : Sys2Proof.Die) (a1 : BitVec 6) (a2 : Sys2Proof.Machine.State) :
    ∀ t, execBrownout a0 a1 a2 = .next t → part t p = part a2 p := by
  simp at h
  unfold execBrownout
  refine act_part p _ _ _ (fun h1 h2 => ?_)
  simp [h]

theorem execPerfSet_part (p : StatePart) (h : p ∉ ([.powerPerf, .regs, .supAllocs, .supCmds, .supEventNow, .supEvents, .supInputs, .supNextEvent, .supSideOrder, .supW1cSet] : List StatePart)) (a0 : Sys2Proof.CmdSrc) (a1 : Sys2Proof.Machine.State) :
    ∀ t, execPerfSet a0 a1 = .next t → part t p = part a1 p := by
  simp at h
  unfold execPerfSet
  refine cmdAct_part p _ _ _ _ (fun h1 h2 s => ?_)
  simp [h]

theorem execPerfChangeStart_part (p : StatePart) (h : p ∉ ([.powerPerf, .regs, .replicasLeftP0, .supAllocs, .supCmds, .supEventNow, .supEvents, .supInputs, .supNextEvent, .supSideOrder, .supW1cSet] : List StatePart)) (a0 : Sys2Proof.Die) (a1 : Sys2Proof.Machine.State) :
    ∀ t, execPerfChangeStart a0 a1 = .next t → part t p = part a1 p := by
  simp at h
  unfold execPerfChangeStart
  refine act_part p _ _ _ (fun h1 h2 => ?_)
  repeat' split
  all_goals simp [h]

theorem execPerfRampDone_part (p : StatePart) (h : p ∉ ([.banksLastActive, .banksPauses, .banksValid, .powerDoms, .powerPerf, .powerStopped, .regs, .supAllocs, .supCmds, .supEventNow, .supEvents, .supInputs, .supNextEvent, .supSideOrder, .supW1cSet] : List StatePart)) (a0 : Sys2Proof.Die) (a1 : Sys2Proof.Machine.State) :
    ∀ t, execPerfRampDone a0 a1 = .next t → part t p = part a1 p := by
  simp at h
  unfold execPerfRampDone
  refine act_part p _ _ _ (fun h1 h2 => ?_)
  repeat' split
  all_goals simp [h]

theorem execPerfRelockDone_part (p : StatePart) (h : p ∉ ([.banksLastActive, .banksPauses, .banksValid, .powerDoms, .powerPerf, .powerStopped, .regs, .supAllocs, .supCmds, .supEventNow, .supEvents, .supInputs, .supNextEvent, .supSideOrder, .supW1cSet] : List StatePart)) (a0 : Sys2Proof.Die) (a1 : Sys2Proof.Machine.State) :
    ∀ t, execPerfRelockDone a0 a1 = .next t → part t p = part a1 p := by
  simp at h
  unfold execPerfRelockDone
  refine act_part p _ _ _ (fun h1 h2 => ?_)
  repeat' split
  all_goals simp [h]

theorem execDoze_part (p : StatePart) (h : p ∉ ([.banksCollations, .banksPauses, .boots, .fabricSlots, .powerStopped, .regs, .supAllocs, .supCmds, .supEventNow, .supEvents, .supInputs, .supNextEvent, .supSideOrder, .supW1cSet] : List StatePart)) (a0 : Sys2Proof.CmdSrc) (a1 : Sys2Proof.Machine.State) :
    ∀ t, execDoze a0 a1 = .next t → part t p = part a1 p := by
  simp at h
  unfold execDoze
  refine cmdAct_part p _ _ _ _ (fun h1 h2 s => ?_)
  simp [h]

theorem execClkSwitch_part (p : StatePart) (h : p ∉ ([.powerPerf, .regs, .replicasLeftP0, .supAllocs, .supCmds, .supEventNow, .supEvents, .supInputs, .supNextEvent, .supSideOrder, .supW1cSet] : List StatePart)) (a0 : Sys2Proof.CmdSrc) (a1 : Sys2Proof.Machine.State) :
    ∀ t, execClkSwitch a0 a1 = .next t → part t p = part a1 p := by
  simp at h
  unfold execClkSwitch
  refine cmdAct_part p _ _ _ _ (fun h1 h2 s => ?_)
  simp [h]

/-! ### Replicas -/

theorem execDjobCfgWrite_part (p : StatePart) (h : p ∉ ([.regs] : List StatePart)) (a0 : Sys2Proof.Die) (a1 : Sys2Proof.Win) (a2 : BitVec 8) (a3 : Sys2Proof.Word) (a4 : Sys2Proof.Machine.State) :
    ∀ t, execDjobCfgWrite a0 a1 a2 a3 a4 = .next t → part t p = part a4 p := by
  simp at h
  unfold execDjobCfgWrite
  refine act_part p _ _ _ (fun h1 h2 => ?_)
  simp [h]

theorem execBallotCfgWrite_part (p : StatePart) (h : p ∉ ([.queuesCopies, .regs, .supEventNow, .supEvents, .supNextEvent] : List StatePart)) (a0 : Sys2Proof.Die) (a1 : Sys2Proof.Win) (a2 : BitVec 8) (a3 : Sys2Proof.Word) (a4 : Sys2Proof.Machine.State) :
    ∀ t, execBallotCfgWrite a0 a1 a2 a3 a4 = .next t → part t p = part a4 p := by
  simp at h
  unfold execBallotCfgWrite
  refine act_part p _ _ _ (fun h1 h2 => ?_)
  simp [h]

theorem execBallotPostArrive_part (p : StatePart) (h : p ∉ ([.replicasBallots, .replicasPosts] : List StatePart)) (a0 : Nat) (a1 : Sys2Proof.Machine.State) :
    ∀ t, execBallotPostArrive a0 a1 = .next t → part t p = part a1 p := by
  simp at h
  unfold execBallotPostArrive
  refine act_part p _ _ _ (fun h1 h2 => ?_)
  repeat' split
  all_goals simp [h]

theorem execBallotPostStatusReceive_part (p : StatePart) (h : p ∉ ([.banksLastActive, .banksMerge, .banksSealMap, .banksSeals, .fabricPlan, .fabricSlots, .queuesSlipq, .regs, .remoteOutMsgs, .remoteOutStage, .replicasPosts, .streamsAborts, .streamsCtxs, .streamsTiles, .supAllocs, .supCmds, .supEventNow, .supEvents, .supInputs, .supNextEvent, .supSideOrder, .supW1cSet] : List StatePart)) (a0 : Nat) (a1 : Sys2Proof.Machine.State) :
    ∀ t, execBallotPostStatusReceive a0 a1 = .next t → part t p = part a1 p := by
  simp at h
  unfold execBallotPostStatusReceive
  refine act_part p _ _ _ (fun h1 h2 => ?_)
  repeat' split
  all_goals simp [h]

theorem execBallotDecide_part (p : StatePart) (h : p ∉ ([.banksCollations, .banksLastActive, .banksMem, .banksMerge, .banksPauses, .banksSeals, .banksValid, .draws, .fabricAccs, .fabricCounters, .fabricSlots, .powerDoms, .queuesPortB, .queuesResults, .regs, .remoteOutMsgs, .replicasBallots, .replicasBaroCorr, .streamsCtxs, .supEventNow, .supEvents, .supNextEvent] : List StatePart)) (a0 : Sys2Proof.Die) (a1 : BitVec 8) (a2 : Sys2Proof.Machine.State) :
    ∀ t, execBallotDecide a0 a1 a2 = .next t → part t p = part a2 p := by
  simp at h
  unfold execBallotDecide
  refine act_part p _ _ _ (fun h1 h2 => ?_)
  simp [h]

theorem execBallotVerdictRetry_part (p : StatePart) (h : p ∉ ([.banksCollations, .banksLastActive, .banksMem, .banksMerge, .banksPauses, .banksSeals, .banksValid, .draws, .fabricAccs, .fabricBooked, .fabricCounters, .fabricHolds, .fabricSlots, .now, .powerDoms, .queuesPortB, .queuesResults, .regs, .remoteOutMsgs, .replicasBallots, .replicasBaroCorr, .replicasStrays, .streamsCtxs, .streamsTokens, .supEventNow, .supEvents, .supNextEvent] : List StatePart)) (a0 : Sys2Proof.Die) (a1 : BitVec 8) (a2 : Sys2Proof.Machine.State) :
    ∀ t, execBallotVerdictRetry a0 a1 a2 = .next t → part t p = part a2 p := by
  simp at h
  unfold execBallotVerdictRetry
  refine act_part p _ _ _ (fun h1 h2 => ?_)
  simp [h]

theorem execBallotReopen_part (p : StatePart) (h : p ∉ ([.replicasBallots] : List StatePart)) (a0 : Sys2Proof.Die) (a1 : Sys2Proof.Win) (a2 : BitVec 8) (a3 : Sys2Proof.Machine.State) :
    ∀ t, execBallotReopen a0 a1 a2 a3 = .next t → part t p = part a3 p := by
  simp at h
  unfold execBallotReopen
  refine act_part p _ _ _ (fun h1 h2 => ?_)
  simp [h]

theorem execBallotStall_part (p : StatePart) (h : p ∉ ([.banksCollations, .banksLastActive, .banksMem, .banksMerge, .banksPauses, .banksSeals, .banksValid, .draws, .fabricAccs, .fabricBooked, .fabricCounters, .fabricHolds, .fabricSlots, .now, .powerDoms, .regs, .remoteOutMsgs, .replicasBallots, .replicasBaroCorr, .replicasStrays, .streamsCtxs, .streamsTokens, .supEventNow, .supEvents, .supNextEvent] : List StatePart)) (a0 : Sys2Proof.Die) (a1 : BitVec 8) (a2 : Sys2Proof.Machine.State) :
    ∀ t, execBallotStall a0 a1 a2 = .next t → part t p = part a2 p := by
  simp at h
  unfold execBallotStall
  refine act_part p _ _ _ (fun h1 h2 => ?_)
  simp [h]

theorem execCrossCheck_part (p : StatePart) (h : p ∉ ([.fabricCounters, .regs, .replicasLfsr, .supEventNow, .supEvents, .supNextEvent, .supW1cSet] : List StatePart)) (a0 : Sys2Proof.Die) (a1 : BitVec 2) (a2 : BitVec 5) (a3 : Sys2Proof.XchkOutcome) (a4 : Sys2Proof.Machine.State) :
    ∀ t, execCrossCheck a0 a1 a2 a3 a4 = .next t → part t p = part a4 p := by
  simp at h
  unfold execCrossCheck
  refine act_part p _ _ _ (fun h1 h2 => ?_)
  repeat' split
  all_goals simp [h]

theorem execScan_part (p : StatePart) (h : p ∉ ([.banksCacheLru, .banksCacheWays, .banksCollations, .banksLastActive, .banksLost, .banksMem, .banksMerge, .banksPauses, .banksRemapCopies, .banksSealMap, .banksSeals, .banksTags, .banksValid, .banksZeroing, .fabricAccs, .fabricBooked, .fabricCounters, .fabricHolds, .fabricNextSlot, .fabricPlan, .fabricSlots, .out, .powerDoms, .powerMarchDoms, .powerMarches, .queuesComb, .queuesNextOp, .queuesOps, .queuesResults, .queuesSlipq, .regs, .remoteCounters, .remoteOutMsgs, .remoteOutStage, .remoteOverdue, .remoteStaged, .remoteTranslator, .replicasPosts, .replicasScans, .replicasUnsafeRegs, .replicasWrappers, .streamsAborts, .streamsCtxs, .streamsTiles, .streamsTokens, .supAllocs, .supCatCorrected, .supCatReported, .supCatUpsets, .supCmds, .supEventNow, .supEvents, .supInputs, .supNextEvent, .supSideOrder, .supW1cSet] : List StatePart)) (a0 : Sys2Proof.CmdSrc) (a1 : Sys2Proof.Machine.State) :
    ∀ t, execScan a0 a1 = .next t → part t p = part a1 p := by
  simp at h
  unfold execScan
  refine cmdAct_part p _ _ _ _ (fun h1 h2 s => ?_)
  simp [h]

theorem execScanComplete_part (p : StatePart) (h : p ∉ ([.banksCacheLru, .banksCacheWays, .banksClassMap, .banksCollations, .banksLastActive, .banksLost, .banksMerge, .banksPauses, .banksSealMap, .banksSeals, .banksTags, .banksValid, .banksZeroing, .draws, .fabricPlan, .fabricSlots, .powerDoms, .powerRecord, .queuesComb, .queuesResults, .queuesSlipq, .regs, .remoteOutMsgs, .remoteOutStage, .remoteTranslator, .replicasScans, .replicasStrays, .replicasUnsafeRegs, .replicasWrappers, .streamsAborts, .streamsCtxs, .streamsTiles, .supAllocs, .supCatFreed, .supCatReported, .supCatUpsets, .supCmds, .supEventNow, .supEvents, .supInputs, .supNextEvent, .supSideOrder, .supW1cSet] : List StatePart)) (a0 : Sys2Proof.Die) (a1 : Sys2Proof.ScanOutcome) (a2 : Sys2Proof.Machine.State) :
    ∀ t, execScanComplete a0 a1 a2 = .next t → part t p = part a2 p := by
  simp at h
  unfold execScanComplete
  refine act_part p _ _ _ (fun h1 h2 => ?_)
  repeat' split
  all_goals simp [h]

theorem execHardenFix_part (p : StatePart) (h : p ∉ ([.replicasStrays] : List StatePart)) (a0 : Sys2Proof.Die) (a1 : Sys2Proof.Word) (a2 : BitVec 2) (a3 : Sys2Proof.Machine.State) :
    ∀ t, execHardenFix a0 a1 a2 a3 = .next t → part t p = part a3 p := by
  simp at h
  unfold execHardenFix
  refine act_part p _ _ _ (fun h1 h2 => ?_)
  repeat' split
  all_goals simp [h]

theorem execHardenLost_part (p : StatePart) (h : p ∉ ([.banksCollations, .banksLastActive, .banksMerge, .banksPauses, .banksSealMap, .banksSeals, .banksValid, .fabricGuests, .fabricPlan, .fabricSlots, .powerDoms, .queuesComb, .queuesResults, .queuesSlipq, .regs, .remoteOutMsgs, .remoteOutStage, .replicasBallots, .replicasStrays, .replicasUnsafeRegs, .streamsAborts, .streamsCtxs, .streamsTiles, .supAllocs, .supCmds, .supEventNow, .supEvents, .supInputs, .supNextEvent, .supSideOrder, .supW1cSet] : List StatePart)) (a0 : Sys2Proof.Die) (a1 : Sys2Proof.Word) (a2 : Sys2Proof.Machine.State) :
    ∀ t, execHardenLost a0 a1 a2 = .next t → part t p = part a2 p := by
  simp at h
  unfold execHardenLost
  refine act_part p _ _ _ (fun h1 h2 => ?_)
  repeat' split
  all_goals simp [h]

theorem execBarometerSample_part (p : StatePart) (h : p ∉ ([.replicasBaro, .replicasBaroCorr, .replicasLeftP0, .replicasSampled] : List StatePart)) (a0 : Sys2Proof.Die) (a1 : List Nat) (a2 : Sys2Proof.Machine.State) :
    ∀ t, execBarometerSample a0 a1 a2 = .next t → part t p = part a2 p := by
  simp at h
  unfold execBarometerSample
  refine act_part p _ _ _ (fun h1 h2 => ?_)
  simp [h]

/-! ### Security -/

theorem execKeyLoad_part (p : StatePart) (h : p ∉ ([.regs, .remoteCounters, .securityKeySlots, .supAllocs, .supCmds, .supEventNow, .supEvents, .supInputs, .supNextEvent, .supSideOrder, .supW1cSet] : List StatePart)) (a0 : Sys2Proof.CmdSrc) (a1 : Sys2Proof.Machine.State) :
    ∀ t, execKeyLoad a0 a1 = .next t → part t p = part a1 p := by
  simp at h
  unfold execKeyLoad
  refine cmdAct_part p _ _ _ _ (fun h1 h2 s => ?_)
  repeat' (first | (simp [h]; done) | split | (refine cmdChecked_part p (by simp [h]) _ _ _ _ (fun s => ?_)) | (dsimp only; split))

theorem execKeyErase_part (p : StatePart) (h : p ∉ ([.banksLastActive, .banksMerge, .fabricCounters, .fabricPlan, .fabricSlots, .out, .queuesNextOp, .queuesOps, .queuesSlipq, .regs, .remoteCounters, .remoteStaged, .securityKeySlots, .supAllocs, .supCmds, .supEventNow, .supEvents, .supInputs, .supNextEvent, .supSideOrder, .supW1cSet] : List StatePart)) (a0 : Sys2Proof.CmdSrc) (a1 : Sys2Proof.Machine.State) :
    ∀ t, execKeyErase a0 a1 = .next t → part t p = part a1 p := by
  simp at h
  unfold execKeyErase
  refine cmdAct_part p _ _ _ _ (fun h1 h2 s => ?_)
  repeat' (first | (simp [h]; done) | split | (refine cmdChecked_part p (by simp [h]) _ _ _ _ (fun s => ?_)) | (dsimp only; split))

theorem execAttest_part (p : StatePart) (h : p ∉ ([.draws, .pages, .regs, .securityTransport, .supAllocs, .supCmds, .supEventNow, .supEvents, .supInputs, .supNextEvent, .supSideOrder, .supW1cSet] : List StatePart)) (a0 : Sys2Proof.CmdSrc) (a1 : Sys2Proof.Machine.State) :
    ∀ t, execAttest a0 a1 = .next t → part t p = part a1 p := by
  simp at h
  unfold execAttest
  refine cmdAct_part p _ _ _ _ (fun h1 h2 s => ?_)
  simp [h]

theorem execCertRead_part (p : StatePart) (h : p ∉ ([.pages, .regs, .supAllocs, .supCmds, .supEventNow, .supEvents, .supInputs, .supNextEvent, .supSideOrder, .supW1cSet] : List StatePart)) (a0 : Sys2Proof.CmdSrc) (a1 : Sys2Proof.Machine.State) :
    ∀ t, execCertRead a0 a1 = .next t → part t p = part a1 p := by
  simp at h
  unfold execCertRead
  refine cmdAct_part p _ _ _ _ (fun h1 h2 s => ?_)
  simp [h]

theorem execTenOpen_part (p : StatePart) (h : p ∉ ([.regs, .supAllocs, .supCmds, .supEventNow, .supEvents, .supInputs, .supNextEvent, .supSideOrder, .supW1cSet] : List StatePart)) (a0 : Sys2Proof.CmdSrc) (a1 : Sys2Proof.Machine.State) :
    ∀ t, execTenOpen a0 a1 = .next t → part t p = part a1 p := by
  simp at h
  unfold execTenOpen
  refine cmdAct_part p _ _ _ _ (fun h1 h2 s => ?_)
  simp [h]

theorem execTenClose_part (p : StatePart) (h : p ∉ ([.banksCacheLru, .banksCacheWays, .banksCollations, .banksLastActive, .banksMerge, .banksPauses, .banksSealMap, .banksSeals, .banksTags, .banksValid, .banksZeroing, .fabricCounters, .fabricPlan, .fabricSlots, .out, .powerDoms, .powerMarchDoms, .powerMarches, .queuesComb, .queuesNextOp, .queuesOps, .queuesResults, .queuesSlipq, .regs, .remoteCounters, .remoteOutMsgs, .remoteOutStage, .remoteStaged, .remoteTranslator, .replicasBallots, .replicasStrays, .replicasUnsafeRegs, .securityClosing, .securityKeySlots, .securityTransport, .streamsAborts, .streamsBarrierCount, .streamsBarrierRoot, .streamsCtxs, .streamsTiles, .supAllocs, .supCatFreed, .supCatReported, .supCatUpsets, .supCmds, .supEventNow, .supEvents, .supInputs, .supNextEvent, .supSideOrder, .supW1cSet] : List StatePart)) (a0 : Sys2Proof.CmdSrc) (a1 : Sys2Proof.Machine.State) :
    ∀ t, execTenClose a0 a1 = .next t → part t p = part a1 p := by
  simp at h
  unfold execTenClose
  refine cmdAct_part p _ _ _ _ (fun h1 h2 s => ?_)
  simp [h]

theorem execTenCloseDone_part (p : StatePart) (h : p ∉ ([.banksCacheLru, .banksCacheWays, .banksCollations, .banksLastActive, .banksMerge, .banksPauses, .banksSealMap, .banksSeals, .banksTags, .banksValid, .banksZeroing, .fabricCounters, .fabricPlan, .fabricSlots, .out, .powerDoms, .powerMarchDoms, .powerMarches, .queuesComb, .queuesNextOp, .queuesOps, .queuesResults, .queuesSlipq, .regs, .remoteCounters, .remoteOutMsgs, .remoteOutStage, .remoteStaged, .remoteTranslator, .replicasBallots, .replicasStrays, .replicasUnsafeRegs, .securityClosing, .securityKeySlots, .securityTransport, .streamsAborts, .streamsBarrierCount, .streamsBarrierRoot, .streamsCtxs, .streamsTiles, .supAllocs, .supCatFreed, .supCatReported, .supCatUpsets, .supCmds, .supEventNow, .supEvents, .supInputs, .supNextEvent, .supSideOrder, .supW1cSet] : List StatePart)) (a0 : Sys2Proof.CmdSrc) (a1 : Sys2Proof.Machine.State) :
    ∀ t, execTenCloseDone a0 a1 = .next t → part t p = part a1 p := by
  simp at h
  unfold execTenCloseDone
  refine act_part p _ _ _ (fun h1 h2 => ?_)
  simp [h]

theorem execLcProvision_part (p : StatePart) (h : p ∉ ([.banksCollations, .banksLastActive, .banksMerge, .banksPauses, .banksValid, .banksZeroing, .fabricCounters, .fabricPlan, .fabricSlots, .out, .powerDoms, .powerMarchDoms, .powerMarches, .queuesNextOp, .queuesOps, .queuesSlipq, .regs, .remoteCounters, .remoteStaged, .securityKeySlots, .securityLcBusy, .securityTransport, .supAllocs, .supCmds, .supEventNow, .supEvents, .supInputs, .supNextEvent, .supSideOrder, .supW1cSet] : List StatePart)) (a0 : Sys2Proof.CmdSrc) (a1 : Sys2Proof.Machine.State) :
    ∀ t, execLcProvision a0 a1 = .next t → part t p = part a1 p := by
  simp at h
  unfold execLcProvision
  refine cmdAct_part p _ _ _ _ (fun h1 h2 s => ?_)
  simp [h]

theorem execLcDeploy_part (p : StatePart) (h : p ∉ ([.banksCollations, .banksLastActive, .banksMerge, .banksPauses, .banksValid, .banksZeroing, .fabricCounters, .fabricPlan, .fabricSlots, .out, .powerDoms, .powerMarchDoms, .powerMarches, .queuesNextOp, .queuesOps, .queuesSlipq, .regs, .remoteCounters, .remoteStaged, .securityKeySlots, .securityLcBusy, .securityTransport, .supAllocs, .supCmds, .supEventNow, .supEvents, .supInputs, .supNextEvent, .supSideOrder, .supW1cSet] : List StatePart)) (a0 : Sys2Proof.CmdSrc) (a1 : Sys2Proof.Machine.State) :
    ∀ t, execLcDeploy a0 a1 = .next t → part t p = part a1 p := by
  simp at h
  unfold execLcDeploy
  refine cmdAct_part p _ _ _ _ (fun h1 h2 s => ?_)
  simp [h]

theorem execLcMaintain_part (p : StatePart) (h : p ∉ ([.banksCollations, .banksLastActive, .banksMerge, .banksPauses, .banksValid, .banksZeroing, .fabricCounters, .fabricPlan, .fabricSlots, .out, .powerDoms, .powerMarchDoms, .powerMarches, .queuesNextOp, .queuesOps, .queuesSlipq, .regs, .remoteCounters, .remoteStaged, .securityKeySlots, .securityLcBusy, .securityTransport, .supAllocs, .supCmds, .supEventNow, .supEvents, .supInputs, .supNextEvent, .supSideOrder, .supW1cSet] : List StatePart)) (a0 : Sys2Proof.CmdSrc) (a1 : Sys2Proof.Machine.State) :
    ∀ t, execLcMaintain a0 a1 = .next t → part t p = part a1 p := by
  simp at h
  unfold execLcMaintain
  refine cmdAct_part p _ _ _ _ (fun h1 h2 s => ?_)
  simp [h]

theorem execLcReturn_part (p : StatePart) (h : p ∉ ([.banksCollations, .banksLastActive, .banksMerge, .banksPauses, .banksValid, .banksZeroing, .fabricCounters, .fabricPlan, .fabricSlots, .out, .powerDoms, .powerMarchDoms, .powerMarches, .queuesNextOp, .queuesOps, .queuesSlipq, .regs, .remoteCounters, .remoteStaged, .securityKeySlots, .securityLcBusy, .securityTransport, .supAllocs, .supCmds, .supEventNow, .supEvents, .supInputs, .supNextEvent, .supSideOrder, .supW1cSet] : List StatePart)) (a0 : Sys2Proof.CmdSrc) (a1 : Sys2Proof.Machine.State) :
    ∀ t, execLcReturn a0 a1 = .next t → part t p = part a1 p := by
  simp at h
  unfold execLcReturn
  refine cmdAct_part p _ _ _ _ (fun h1 h2 s => ?_)
  simp [h]

theorem execLcFuseProgramDone_part (p : StatePart) (h : p ∉ ([.regs, .securityLcBusy, .supAllocs, .supCmds, .supEventNow, .supEvents, .supInputs, .supNextEvent, .supSideOrder, .supW1cSet] : List StatePart)) (a0 : Sys2Proof.Die) (a1 : Sys2Proof.Machine.State) :
    ∀ t, execLcFuseProgramDone a0 a1 = .next t → part t p = part a1 p := by
  simp at h
  unfold execLcFuseProgramDone
  refine act_part p _ _ _ (fun h1 h2 => ?_)
  repeat' split
  all_goals simp [h]

theorem execTamperRaise_part (p : StatePart) (h : p ∉ ([.banksCollations, .banksLastActive, .banksMerge, .banksPauses, .banksValid, .banksZeroing, .fabricCounters, .fabricPlan, .fabricSlots, .out, .powerDoms, .powerMarchDoms, .powerMarches, .queuesNextOp, .queuesOps, .queuesSlipq, .regs, .remoteCounters, .remoteStaged, .securityAlarms, .securityKeySlots, .securityTransport, .supAllocs, .supCmds, .supEventNow, .supEvents, .supInputs, .supNextEvent, .supSideOrder, .supW1cSet] : List StatePart)) (a0 : Sys2Proof.Die) (a1 : BitVec 2) (a2 : Sys2Proof.Machine.State) :
    ∀ t, execTamperRaise a0 a1 a2 = .next t → part t p = part a2 p := by
  simp at h
  unfold execTamperRaise
  refine act_part p _ _ _ (fun h1 h2 => ?_)
  simp [h]

theorem execTamperEnd_part (p : StatePart) (h : p ∉ ([.regs] : List StatePart)) (a0 : Sys2Proof.Die) (a1 : BitVec 2) (a2 : Sys2Proof.Machine.State) :
    ∀ t, execTamperEnd a0 a1 a2 = .next t → part t p = part a2 p := by
  simp at h
  unfold execTamperEnd
  refine act_part p _ _ _ (fun h1 h2 => ?_)
  simp [h]

theorem execAlarm_part (p : StatePart) (h : p ∉ ([.banksCollations, .banksLastActive, .banksMerge, .banksPauses, .banksValid, .banksZeroing, .fabricCounters, .fabricPlan, .fabricSlots, .out, .powerDoms, .powerMarchDoms, .powerMarches, .queuesNextOp, .queuesOps, .queuesSlipq, .regs, .remoteCounters, .remoteStaged, .securityAlarms, .securityKeySlots, .securityTransport, .supAllocs, .supCmds, .supEventNow, .supEvents, .supInputs, .supNextEvent, .supSideOrder, .supW1cSet] : List StatePart)) (a0 : Sys2Proof.CmdSrc) (a1 : Sys2Proof.Machine.State) :
    ∀ t, execAlarm a0 a1 = .next t → part t p = part a1 p := by
  simp at h
  unfold execAlarm
  refine cmdAct_part p _ _ _ _ (fun h1 h2 s => ?_)
  simp [h]

theorem execAlarmRingReceive_part (p : StatePart) (h : p ∉ ([.banksCollations, .banksLastActive, .banksMerge, .banksPauses, .banksValid, .banksZeroing, .fabricCounters, .fabricPlan, .fabricSlots, .out, .powerDoms, .powerMarchDoms, .powerMarches, .queuesNextOp, .queuesOps, .queuesSlipq, .regs, .remoteCounters, .remoteStaged, .securityAlarms, .securityKeySlots, .securityTransport, .supAllocs, .supCmds, .supEventNow, .supEvents, .supInputs, .supNextEvent, .supSideOrder, .supW1cSet] : List StatePart)) (a0 : Sys2Proof.Die) (a1 : Sys2Proof.Die) (a2 : BitVec 2) (a3 : Sys2Proof.Machine.State) :
    ∀ t, execAlarmRingReceive a0 a1 a2 a3 = .next t → part t p = part a3 p := by
  simp at h
  unfold execAlarmRingReceive
  refine act_part p _ _ _ (fun h1 h2 => ?_)
  repeat' split
  all_goals simp [h]

/-! ### Boot -/

theorem execPowerOn_part (p : StatePart) (h : p ∉ ([.banksCacheLru, .banksCacheWays, .banksClassMap, .banksCollations, .banksFolioClears, .banksLastActive, .banksLost, .banksMerge, .banksPauses, .banksRawOps, .banksRemapCopies, .banksSealMap, .banksSeals, .banksTags, .banksValid, .banksZeroing, .boots, .draws, .fabricAccs, .fabricBooked, .fabricBudgets, .fabricClearWanted, .fabricCounters, .fabricDecided, .fabricGuestCount, .fabricGuestNext, .fabricGuestPending, .fabricGuests, .fabricHolds, .fabricLocks, .fabricPlan, .fabricPlanResv, .fabricRotation, .fabricSlots, .fabricSnapWanted, .fabricSnaps, .fabricSquallNow, .fabricSquallSeen, .fabricSqualls, .fabricTenures, .fabricUsedIn, .fabricUsedNext, .fabricWdogFenced, .flash, .pages, .pairHi, .pairLo, .powerDoms, .powerMarchDoms, .powerMarches, .powerPerf, .powerStopped, .queuesComb, .queuesCopies, .queuesOps, .queuesResults, .queuesSlipq, .regs, .remoteCounters, .remoteOutMsgs, .remoteOutStage, .remoteOverdue, .remoteRingCount, .remoteStaged, .remoteSyncs, .remoteTranslator, .replicasBallots, .replicasLfsr, .replicasPosts, .replicasScans, .replicasStrays, .replicasUnsafeRegs, .replicasWrappers, .securityAlarms, .securityClosing, .securityDenialSeen, .securityKeySlots, .securityLcBusy, .securityTransport, .streamsAborts, .streamsBarrierCount, .streamsBarrierRoot, .streamsCtxs, .streamsTiles, .streamsTokens, .supAllocs, .supAlmanacCount, .supAlmanacs, .supCatCorrected, .supCatFreed, .supCatReported, .supCatUpsets, .supCmds, .supEventNow, .supEvents, .supInputs, .supLastDispatch, .supNextEvent, .supNextSeq, .supQueued, .supSideOrder, .supStalled, .supTurn, .supW1cSet] : List StatePart)) (a0 : Sys2Proof.Die) (a1 : Sys2Proof.Machine.State) :
    ∀ t, execPowerOn a0 a1 = .next t → part t p = part a1 p := by
  simp at h
  unfold execPowerOn
  refine act_part p _ _ _ (fun h1 h2 => ?_)
  simp [h]

theorem execChipReset_part (p : StatePart) (h : p ∉ ([.banksCacheLru, .banksCacheWays, .banksClassMap, .banksCollations, .banksFolioClears, .banksLastActive, .banksLost, .banksMerge, .banksPauses, .banksRawOps, .banksRemapCopies, .banksSealMap, .banksSeals, .banksTags, .banksValid, .banksZeroing, .boots, .draws, .fabricAccs, .fabricBooked, .fabricBudgets, .fabricClearWanted, .fabricCounters, .fabricDecided, .fabricGuestCount, .fabricGuestNext, .fabricGuestPending, .fabricGuests, .fabricHolds, .fabricLocks, .fabricPlan, .fabricPlanResv, .fabricRotation, .fabricSlots, .fabricSnapWanted, .fabricSnaps, .fabricSquallNow, .fabricSquallSeen, .fabricSqualls, .fabricTenures, .fabricUsedIn, .fabricUsedNext, .fabricWdogFenced, .flash, .pages, .pairHi, .pairLo, .powerDoms, .powerMarchDoms, .powerMarches, .powerPerf, .powerStopped, .queuesComb, .queuesCopies, .queuesOps, .queuesResults, .queuesSlipq, .regs, .remoteCounters, .remoteOutMsgs, .remoteOutStage, .remoteOverdue, .remoteRingCount, .remoteStaged, .remoteSyncs, .remoteTranslator, .replicasBallots, .replicasLfsr, .replicasPosts, .replicasScans, .replicasStrays, .replicasUnsafeRegs, .replicasWrappers, .securityAlarms, .securityClosing, .securityDenialSeen, .securityKeySlots, .securityLcBusy, .securityTransport, .streamsAborts, .streamsBarrierCount, .streamsBarrierRoot, .streamsCtxs, .streamsTiles, .streamsTokens, .supAllocs, .supAlmanacCount, .supAlmanacs, .supCatCorrected, .supCatFreed, .supCatReported, .supCatUpsets, .supCmds, .supEventNow, .supEvents, .supInputs, .supLastDispatch, .supNextEvent, .supNextSeq, .supQueued, .supSideOrder, .supStalled, .supTurn, .supW1cSet] : List StatePart)) (a0 : Sys2Proof.Die) (a1 : Sys2Proof.Machine.State) :
    ∀ t, execChipReset a0 a1 = .next t → part t p = part a1 p := by
  simp at h
  unfold execChipReset
  refine act_part p _ _ _ (fun h1 h2 => ?_)
  simp [h]

theorem execPowerLoss_part (p : StatePart) (h : p ∉ ([.banksCacheLru, .banksCacheWays, .banksClassMap, .banksCollations, .banksFolioClears, .banksLastActive, .banksLost, .banksMerge, .banksPauses, .banksRawOps, .banksRemapCopies, .banksSealMap, .banksSeals, .banksTags, .banksValid, .banksZeroing, .boots, .draws, .fabricAccs, .fabricBooked, .fabricBudgets, .fabricClearWanted, .fabricCounters, .fabricDecided, .fabricGuestCount, .fabricGuestNext, .fabricGuestPending, .fabricGuests, .fabricHolds, .fabricLocks, .fabricPlan, .fabricPlanResv, .fabricRotation, .fabricSlots, .fabricSnapWanted, .fabricSnaps, .fabricSquallNow, .fabricSquallSeen, .fabricSqualls, .fabricTenures, .fabricUsedIn, .fabricUsedNext, .fabricWdogFenced, .flash, .pages, .pairHi, .pairLo, .powerDoms, .powerMarchDoms, .powerMarches, .powerPerf, .powerStopped, .queuesComb, .queuesCopies, .queuesOps, .queuesResults, .queuesSlipq, .regs, .remoteCounters, .remoteOutMsgs, .remoteOutStage, .remoteOverdue, .remoteRingCount, .remoteStaged, .remoteSyncs, .remoteTranslator, .replicasBallots, .replicasLfsr, .replicasPosts, .replicasScans, .replicasStrays, .replicasUnsafeRegs, .replicasWrappers, .securityAlarms, .securityClosing, .securityDenialSeen, .securityKeySlots, .securityLcBusy, .securityTransport, .streamsAborts, .streamsBarrierCount, .streamsBarrierRoot, .streamsCtxs, .streamsTiles, .streamsTokens, .supAllocs, .supAlmanacCount, .supAlmanacs, .supCatCorrected, .supCatFreed, .supCatReported, .supCatUpsets, .supCmds, .supEventNow, .supEvents, .supInputs, .supLastDispatch, .supNextEvent, .supNextSeq, .supQueued, .supSideOrder, .supStalled, .supTurn, .supW1cSet] : List StatePart)) (a0 : Sys2Proof.Die) (a1 : Sys2Proof.Machine.State) :
    ∀ t, execPowerLoss a0 a1 = .next t → part t p = part a1 p := by
  simp at h
  unfold execPowerLoss
  refine act_part p _ _ _ (fun h1 h2 => ?_)
  simp [h]

theorem execDieReset_part (p : StatePart) (h : p ∉ ([.banksCacheLru, .banksCacheWays, .banksClassMap, .banksCollations, .banksFolioClears, .banksLastActive, .banksLost, .banksMerge, .banksPauses, .banksRawOps, .banksRemapCopies, .banksSealMap, .banksSeals, .banksTags, .banksValid, .banksZeroing, .boots, .draws, .fabricAccs, .fabricBooked, .fabricBudgets, .fabricClearWanted, .fabricCounters, .fabricDecided, .fabricGuestCount, .fabricGuestNext, .fabricGuestPending, .fabricGuests, .fabricHolds, .fabricLocks, .fabricPlan, .fabricPlanResv, .fabricRotation, .fabricSlots, .fabricSnapWanted, .fabricSnaps, .fabricSquallNow, .fabricSquallSeen, .fabricSqualls, .fabricTenures, .fabricUsedIn, .fabricUsedNext, .fabricWdogFenced, .flash, .pages, .pairHi, .pairLo, .powerDoms, .powerMarchDoms, .powerMarches, .powerPerf, .powerStopped, .queuesComb, .queuesCopies, .queuesOps, .queuesResults, .queuesSlipq, .regs, .remoteCounters, .remoteOutMsgs, .remoteOutStage, .remoteOverdue, .remoteRingCount, .remoteStaged, .remoteSyncs, .remoteTranslator, .replicasBallots, .replicasLfsr, .replicasPosts, .replicasScans, .replicasStrays, .replicasUnsafeRegs, .replicasWrappers, .securityAlarms, .securityClosing, .securityDenialSeen, .securityKeySlots, .securityLcBusy, .securityTransport, .streamsAborts, .streamsBarrierCount, .streamsBarrierRoot, .streamsCtxs, .streamsTiles, .streamsTokens, .supAllocs, .supAlmanacCount, .supAlmanacs, .supCatCorrected, .supCatFreed, .supCatReported, .supCatUpsets, .supCmds, .supEventNow, .supEvents, .supInputs, .supLastDispatch, .supNextEvent, .supNextSeq, .supQueued, .supSideOrder, .supStalled, .supTurn, .supW1cSet] : List StatePart)) (a0 : Sys2Proof.CmdSrc) (a1 : Sys2Proof.Machine.State) :
    ∀ t, execDieReset a0 a1 = .next t → part t p = part a1 p := by
  simp at h
  unfold execDieReset
  refine cmdAct_part p _ _ _ _ (fun h1 h2 s => ?_)
  simp [h]

theorem execResetRelease_part (p : StatePart) (h : p ∉ ([.banksCacheLru, .banksCacheWays, .banksClassMap, .banksCollations, .banksFolioClears, .banksLastActive, .banksLost, .banksMerge, .banksPauses, .banksRawOps, .banksRemapCopies, .banksSealMap, .banksSeals, .banksTags, .banksValid, .banksZeroing, .boots, .fabricAccs, .fabricBooked, .fabricBudgets, .fabricClearWanted, .fabricCounters, .fabricDecided, .fabricGuestCount, .fabricGuestNext, .fabricGuestPending, .fabricGuests, .fabricHolds, .fabricLocks, .fabricPlan, .fabricPlanResv, .fabricRotation, .fabricSlots, .fabricSnapWanted, .fabricSnaps, .fabricSquallNow, .fabricSquallSeen, .fabricSqualls, .fabricTenures, .fabricUsedIn, .fabricUsedNext, .fabricWdogFenced, .pages, .pairHi, .pairLo, .powerDoms, .powerMarchDoms, .powerMarches, .powerPerf, .powerStopped, .queuesComb, .queuesCopies, .queuesOps, .queuesResults, .queuesSlipq, .regs, .remoteCounters, .remoteOutMsgs, .remoteOutStage, .remoteOverdue, .remoteRingCount, .remoteStaged, .remoteSyncs, .remoteTranslator, .replicasBallots, .replicasLfsr, .replicasPosts, .replicasScans, .replicasStrays, .replicasUnsafeRegs, .replicasWrappers, .securityAlarms, .securityClosing, .securityDenialSeen, .securityKeySlots, .securityLcBusy, .securityTransport, .streamsAborts, .streamsBarrierCount, .streamsBarrierRoot, .streamsCtxs, .streamsTiles, .streamsTokens, .supAllocs, .supAlmanacCount, .supAlmanacs, .supCatCorrected, .supCatFreed, .supCatReported, .supCatUpsets, .supCmds, .supEventNow, .supEvents, .supInputs, .supLastDispatch, .supNextEvent, .supNextSeq, .supQueued, .supSideOrder, .supStalled, .supTurn, .supW1cSet] : List StatePart)) (a0 : Sys2Proof.Die) (a1 : Sys2Proof.Machine.State) :
    ∀ t, execResetRelease a0 a1 = .next t → part t p = part a1 p := by
  simp at h
  unfold execResetRelease
  refine act_part p _ _ _ (fun h1 h2 => ?_)
  simp [h]

theorem execBootPhaseComplete_part (p : StatePart) (h : p ∉ ([.banksCollations, .banksLastActive, .banksMerge, .banksPauses, .banksValid, .banksZeroing, .boots, .draws, .fabricCounters, .fabricSlots, .flash, .powerDoms, .powerMarchDoms, .powerMarches, .powerRecord, .regs, .replicasLfsr, .replicasStrays, .replicasUnsafeRegs, .securityCertBad, .supAllocs, .supCmds, .supEventNow, .supEvents, .supInputs, .supLastDispatch, .supNextEvent, .supSideOrder, .supW1cSet] : List StatePart)) (a0 : Sys2Proof.Die) (a1 : Sys2Proof.BootOutcome) (a2 : Sys2Proof.Machine.State) :
    ∀ t, execBootPhaseComplete a0 a1 a2 = .next t → part t p = part a2 p := by
  simp at h
  unfold execBootPhaseComplete
  refine act_part p _ _ _ (fun h1 h2 => ?_)
  repeat' split
  all_goals simp [h]

theorem execBeaconListenTimeout_part (p : StatePart) (h : p ∉ ([.boots] : List StatePart)) (a0 : Sys2Proof.Die) (a1 : Sys2Proof.Machine.State) :
    ∀ t, execBeaconListenTimeout a0 a1 = .next t → part t p = part a1 p := by
  simp at h
  unfold execBeaconListenTimeout
  refine act_part p _ _ _ (fun h1 h2 => ?_)
  simp [h]

theorem execBeaconReceive_part (p : StatePart) (h : p ∉ ([.boots, .powerPerf] : List StatePart)) (a0 : Sys2Proof.Die) (a1 : Sys2Proof.Beacon) (a2 : Sys2Proof.Machine.State) :
    ∀ t, execBeaconReceive a0 a1 a2 = .next t → part t p = part a2 p := by
  simp at h
  unfold execBeaconReceive
  refine act_part p _ _ _ (fun h1 h2 => ?_)
  simp [h]

theorem execReadyListenTimeout_part (p : StatePart) (h : p ∉ ([.banksCollations, .banksLastActive, .banksMem, .banksMerge, .banksPauses, .banksSeals, .banksValid, .boots, .draws, .fabricAccs, .fabricBooked, .fabricCounters, .fabricHolds, .fabricSlots, .now, .powerDoms, .regs, .remoteOutMsgs, .replicasBaroCorr, .replicasStrays, .streamsCtxs, .streamsTokens, .supEventNow, .supEvents, .supNextEvent] : List StatePart)) (a0 : Sys2Proof.Die) (a1 : Sys2Proof.Machine.State) :
    ∀ t, execReadyListenTimeout a0 a1 = .next t → part t p = part a1 p := by
  simp at h
  unfold execReadyListenTimeout
  refine act_part p _ _ _ (fun h1 h2 => ?_)
  simp [h]

theorem execBeaconMissing_part (p : StatePart) (h : p ∉ ([.boots] : List StatePart)) (a0 : Sys2Proof.Machine.State) :
    ∀ t, execBeaconMissing a0 = .next t → part t p = part a0 p := by
  simp at h
  unfold execBeaconMissing
  refine act_part p _ _ _ (fun h1 h2 => ?_)
  repeat' split
  all_goals simp [h]

theorem execBypassOpen_part (p : StatePart) (h : p ∉ ([.banksCacheLru, .banksCacheWays, .banksClassMap, .banksCollations, .banksFolioClears, .banksLastActive, .banksLost, .banksMerge, .banksPauses, .banksRawOps, .banksRemapCopies, .banksSealMap, .banksSeals, .banksTags, .banksValid, .banksZeroing, .boots, .draws, .fabricAccs, .fabricBooked, .fabricBudgets, .fabricClearWanted, .fabricCounters, .fabricDecided, .fabricGuestCount, .fabricGuestNext, .fabricGuestPending, .fabricGuests, .fabricHolds, .fabricLocks, .fabricPlan, .fabricPlanResv, .fabricRotation, .fabricSlots, .fabricSnapWanted, .fabricSnaps, .fabricSquallNow, .fabricSquallSeen, .fabricSqualls, .fabricTenures, .fabricUsedIn, .fabricUsedNext, .fabricWdogFenced, .flash, .frameBase, .pages, .pairHi, .pairLo, .powerDoms, .powerMarchDoms, .powerMarches, .powerPerf, .powerStopped, .queuesComb, .queuesCopies, .queuesOps, .queuesResults, .queuesSlipq, .regs, .remoteCounters, .remoteOutMsgs, .remoteOutStage, .remoteOverdue, .remoteRingCount, .remoteStaged, .remoteSyncs, .remoteTranslator, .replicasBallots, .replicasLfsr, .replicasPosts, .replicasScans, .replicasStrays, .replicasUnsafeRegs, .replicasWrappers, .securityAlarms, .securityClosing, .securityDenialSeen, .securityKeySlots, .securityLcBusy, .securityTransport, .streamsAborts, .streamsBarrierCount, .streamsBarrierRoot, .streamsCtxs, .streamsTiles, .streamsTokens, .supAllocs, .supAlmanacCount, .supAlmanacs, .supCatCorrected, .supCatFreed, .supCatReported, .supCatUpsets, .supCmds, .supEventNow, .supEvents, .supInputs, .supLastDispatch, .supNextEvent, .supNextSeq, .supQueued, .supSideOrder, .supStalled, .supTurn, .supW1cSet] : List StatePart)) (a0 : Sys2Proof.Die) (a1 : Sys2Proof.Machine.State) :
    ∀ t, execBypassOpen a0 a1 = .next t → part t p = part a1 p := by
  simp at h
  unfold execBypassOpen
  refine act_part p _ _ _ (fun h1 h2 => ?_)
  repeat' split
  all_goals simp [h]

theorem execDieAnnounceReceive_part (p : StatePart) (h : p ∉ ([.regs, .replicasStrays, .replicasUnsafeRegs] : List StatePart)) (a0 : Sys2Proof.Die) (a1 : Sys2Proof.Machine.State) :
    ∀ t, execDieAnnounceReceive a0 a1 = .next t → part t p = part a1 p := by
  simp at h
  unfold execDieAnnounceReceive
  refine act_part p _ _ _ (fun h1 h2 => ?_)
  repeat' split
  all_goals simp [h]

theorem execRstJoin_part (p : StatePart) (h : p ∉ ([.boots, .regs] : List StatePart)) (a0 : Sys2Proof.Die) (a1 : Sys2Proof.Win) (a2 : Sys2Proof.Word) (a3 : Sys2Proof.Machine.State) :
    ∀ t, execRstJoin a0 a1 a2 a3 = .next t → part t p = part a3 p := by
  simp at h
  unfold execRstJoin
  refine act_part p _ _ _ (fun h1 h2 => ?_)
  simp [h]

theorem execRstLeave_part (p : StatePart) (h : p ∉ ([.boots, .regs] : List StatePart)) (a0 : Sys2Proof.Die) (a1 : Sys2Proof.Win) (a2 : Sys2Proof.Word) (a3 : Sys2Proof.Machine.State) :
    ∀ t, execRstLeave a0 a1 a2 a3 = .next t → part t p = part a3 p := by
  simp at h
  unfold execRstLeave
  refine act_part p _ _ _ (fun h1 h2 => ?_)
  simp [h]

theorem execBypassClose_part (p : StatePart) (h : p ∉ ([.boots] : List StatePart)) (a0 : Sys2Proof.Die) (a1 : Sys2Proof.Machine.State) :
    ∀ t, execBypassClose a0 a1 = .next t → part t p = part a1 p := by
  simp at h
  unfold execBypassClose
  refine act_part p _ _ _ (fun h1 h2 => ?_)
  repeat' split
  all_goals simp [h]

/-! ### Firmware -/

theorem execFwBegin_part (p : StatePart) (h : p ∉ ([.flash, .regs, .supAllocs, .supCmds, .supEventNow, .supEvents, .supInputs, .supNextEvent, .supSideOrder, .supW1cSet] : List StatePart)) (a0 : Sys2Proof.CmdSrc) (a1 : Sys2Proof.Machine.State) :
    ∀ t, execFwBegin a0 a1 = .next t → part t p = part a1 p := by
  simp at h
  unfold execFwBegin
  refine cmdAct_part p _ _ _ _ (fun h1 h2 s => ?_)
  simp [h]

theorem execFwBlock_part (p : StatePart) (h : p ∉ ([.flash, .regs, .supAllocs, .supCmds, .supEventNow, .supEvents, .supInputs, .supNextEvent, .supSideOrder, .supW1cSet] : List StatePart)) (a0 : Sys2Proof.CmdSrc) (a1 : Sys2Proof.Machine.State) :
    ∀ t, execFwBlock a0 a1 = .next t → part t p = part a1 p := by
  simp at h
  unfold execFwBlock
  refine cmdAct_part p _ _ _ _ (fun h1 h2 s => ?_)
  simp [h]

theorem execFwVerify_part (p : StatePart) (h : p ∉ ([.regs, .supAllocs, .supCmds, .supEventNow, .supEvents, .supInputs, .supNextEvent, .supSideOrder, .supW1cSet] : List StatePart)) (a0 : Sys2Proof.CmdSrc) (a1 : Sys2Proof.Machine.State) :
    ∀ t, execFwVerify a0 a1 = .next t → part t p = part a1 p := by
  simp at h
  unfold execFwVerify
  refine cmdAct_part p _ _ _ _ (fun h1 h2 s => ?_)
  simp [h]

theorem execFwVerifyDone_part (p : StatePart) (h : p ∉ ([.regs, .supAllocs, .supCmds, .supEventNow, .supEvents, .supInputs, .supNextEvent, .supSideOrder, .supW1cSet] : List StatePart)) (a0 : Sys2Proof.Die) (a1 : Sys2Proof.Machine.State) :
    ∀ t, execFwVerifyDone a0 a1 = .next t → part t p = part a1 p := by
  simp at h
  unfold execFwVerifyDone
  refine act_part p _ _ _ (fun h1 h2 => ?_)
  simp [h]

theorem execFwQuery_part (p : StatePart) (h : p ∉ ([.pages, .regs, .supAllocs, .supCmds, .supEventNow, .supEvents, .supInputs, .supNextEvent, .supSideOrder, .supW1cSet] : List StatePart)) (a0 : Sys2Proof.CmdSrc) (a1 : Sys2Proof.Machine.State) :
    ∀ t, execFwQuery a0 a1 = .next t → part t p = part a1 p := by
  simp at h
  unfold execFwQuery
  refine cmdAct_part p _ _ _ _ (fun h1 h2 s => ?_)
  simp [h]

theorem execFwSchedule_part (p : StatePart) (h : p ∉ ([.flash, .regs, .supAllocs, .supCmds, .supEventNow, .supEvents, .supInputs, .supNextEvent, .supSideOrder, .supW1cSet] : List StatePart)) (a0 : Sys2Proof.CmdSrc) (a1 : Sys2Proof.Machine.State) :
    ∀ t, execFwSchedule a0 a1 = .next t → part t p = part a1 p := by
  simp at h
  unfold execFwSchedule
  refine cmdAct_part p _ _ _ _ (fun h1 h2 s => ?_)
  repeat' (first | (simp [h]; done) | split | (refine fwChecked_part p (by simp [h]) _ _ _ _ (fun s => ?_)) | (dsimp only; split))

theorem execFwCancel_part (p : StatePart) (h : p ∉ ([.flash, .regs, .supAllocs, .supCmds, .supEventNow, .supEvents, .supInputs, .supNextEvent, .supSideOrder, .supW1cSet] : List StatePart)) (a0 : Sys2Proof.CmdSrc) (a1 : Sys2Proof.Machine.State) :
    ∀ t, execFwCancel a0 a1 = .next t → part t p = part a1 p := by
  simp at h
  unfold execFwCancel
  refine cmdAct_part p _ _ _ _ (fun h1 h2 s => ?_)
  repeat' (first | (simp [h]; done) | split | (refine fwChecked_part p (by simp [h]) _ _ _ _ (fun s => ?_)) | (dsimp only; split))

theorem execFwDiscard_part (p : StatePart) (h : p ∉ ([.flash, .regs, .supAllocs, .supCmds, .supEventNow, .supEvents, .supInputs, .supNextEvent, .supSideOrder, .supW1cSet] : List StatePart)) (a0 : Sys2Proof.CmdSrc) (a1 : Sys2Proof.Machine.State) :
    ∀ t, execFwDiscard a0 a1 = .next t → part t p = part a1 p := by
  simp at h
  unfold execFwDiscard
  refine cmdAct_part p _ _ _ _ (fun h1 h2 s => ?_)
  simp [h]

theorem execFwPoll_part (p : StatePart) (h : p ∉ ([.flash, .regs] : List StatePart)) (a0 : Sys2Proof.Machine.State) :
    ∀ t, execFwPoll a0 = .next t → part t p = part a0 p := by
  simp at h
  unfold execFwPoll
  refine act_part p _ _ _ (fun h1 h2 => ?_)
  simp [h]

theorem execFwActivate_part (p : StatePart) (h : p ∉ ([.banksCacheLru, .banksCacheWays, .banksClassMap, .banksCollations, .banksFolioClears, .banksLastActive, .banksLost, .banksMerge, .banksPauses, .banksRawOps, .banksRemapCopies, .banksSealMap, .banksSeals, .banksTags, .banksValid, .banksZeroing, .boots, .draws, .fabricAccs, .fabricBooked, .fabricBudgets, .fabricClearWanted, .fabricCounters, .fabricDecided, .fabricGuestCount, .fabricGuestNext, .fabricGuestPending, .fabricGuests, .fabricHolds, .fabricLocks, .fabricPlan, .fabricPlanResv, .fabricRotation, .fabricSlots, .fabricSnapWanted, .fabricSnaps, .fabricSquallNow, .fabricSquallSeen, .fabricSqualls, .fabricTenures, .fabricUsedIn, .fabricUsedNext, .fabricWdogFenced, .flash, .pages, .pairHi, .pairLo, .powerDoms, .powerMarchDoms, .powerMarches, .powerPerf, .powerStopped, .queuesComb, .queuesCopies, .queuesOps, .queuesResults, .queuesSlipq, .regs, .remoteCounters, .remoteOutMsgs, .remoteOutStage, .remoteOverdue, .remoteRingCount, .remoteStaged, .remoteSyncs, .remoteTranslator, .replicasBallots, .replicasLfsr, .replicasPosts, .replicasScans, .replicasStrays, .replicasUnsafeRegs, .replicasWrappers, .securityAlarms, .securityClosing, .securityDenialSeen, .securityKeySlots, .securityLcBusy, .securityTransport, .streamsAborts, .streamsBarrierCount, .streamsBarrierRoot, .streamsCtxs, .streamsTiles, .streamsTokens, .supAllocs, .supAlmanacCount, .supAlmanacs, .supCatCorrected, .supCatFreed, .supCatReported, .supCatUpsets, .supCmds, .supEventNow, .supEvents, .supInputs, .supLastDispatch, .supNextEvent, .supNextSeq, .supQueued, .supSideOrder, .supStalled, .supTurn, .supW1cSet] : List StatePart)) (a0 : Sys2Proof.Machine.State) :
    ∀ t, execFwActivate a0 = .next t → part t p = part a0 p := by
  simp at h
  unfold execFwActivate
  refine act_part p _ _ _ (fun h1 h2 => ?_)
  simp [h]

/-! ### RegRead -/

theorem execRegisterPairRead_part (p : StatePart) (h : p ∉ ([.out, .pairHi] : List StatePart)) (a0 : Sys2Proof.Die) (a1 : Sys2Proof.Win) (a2 : Sys2Proof.Word) (a3 : Sys2Proof.Machine.State) :
    ∀ t, execRegisterPairRead a0 a1 a2 a3 = .next t → part t p = part a3 p := by
  simp at h
  unfold execRegisterPairRead
  try dsimp only
  refine act_part p _ _ _ (fun h1 h2 => ?_)
  split
  · simp [h]
  · split
    · exact (set_pairHi_part p _ _ (by simp [h])).trans (State_emitOut_part p (by simp [h]) _ _)
    · exact (set_pairHi_part p _ _ (by simp [h])).trans (State_emitOut_part p (by simp [h]) _ _)

/-! ### Supervisor -/

theorem execCmdGo_part (p : StatePart) (h : p ∉ ([.regs, .supAllocs, .supCmds, .supEventNow, .supEvents, .supInputs, .supNextEvent, .supNextSeq, .supQueued, .supSideOrder, .supW1cSet] : List StatePart)) (a0 : Sys2Proof.CmdSrc) (a1 : Sys2Proof.Word) (a2 : Sys2Proof.Machine.State) :
    ∀ t, execCmdGo a0 a1 a2 = .next t → part t p = part a2 p := by
  simp at h
  unfold execCmdGo
  refine act_part p _ _ _ (fun h1 h2 => ?_)
  simp [h]

theorem execSideGo_part (p : StatePart) (h : p ∉ ([.regs, .supAllocs, .supCmds, .supEventNow, .supEvents, .supInputs, .supNextEvent, .supNextSeq, .supQueued, .supSideOrder, .supW1cSet] : List StatePart)) (a0 : Sys2Proof.Die) (a1 : Sys2Proof.Win) (a2 : Sys2Proof.Word) (a3 : Sys2Proof.Machine.State) :
    ∀ t, execSideGo a0 a1 a2 a3 = .next t → part t p = part a3 p := by
  simp at h
  unfold execSideGo
  refine act_part p _ _ _ (fun h1 h2 => ?_)
  simp [h]

theorem execCmdRelease_part (p : StatePart) (h : p ∉ ([.regs, .supAllocs, .supCmds, .supEventNow, .supEvents, .supInputs, .supNextEvent, .supNextSeq, .supQueued, .supSideOrder, .supW1cSet] : List StatePart)) (a0 : Sys2Proof.CmdSrc) (a1 : Sys2Proof.Word) (a2 : Sys2Proof.Machine.State) :
    ∀ t, execCmdRelease a0 a1 a2 = .next t → part t p = part a2 p := by
  simp at h
  unfold execCmdRelease
  refine act_part p _ _ _ (fun h1 h2 => ?_)
  simp [h]

theorem execCmdCntClr_part (p : StatePart) (h : p ∉ ([.regs] : List StatePart)) (a0 : Sys2Proof.Die) (a1 : Sys2Proof.Win) (a2 : Sys2Proof.Machine.State) :
    ∀ t, execCmdCntClr a0 a1 a2 = .next t → part t p = part a2 p := by
  simp at h
  unfold execCmdCntClr
  refine act_part p _ _ _ (fun h1 h2 => ?_)
  simp [h]

theorem execCmdDispatch_part (p : StatePart) (h : p ∉ ([.regs, .supAllocs, .supCmds, .supEventNow, .supEvents, .supInputs, .supLastDispatch, .supNextEvent, .supQueued, .supSideOrder, .supStalled, .supTurn, .supW1cSet] : List StatePart)) (a0 : Sys2Proof.CmdSrc) (a1 : Sys2Proof.Machine.State) :
    ∀ t, execCmdDispatch a0 a1 = .next t → part t p = part a1 p := by
  simp at h
  unfold execCmdDispatch
  refine act_part p _ _ _ (fun h1 h2 => ?_)
  simp [h]

theorem execSupStall_part (p : StatePart) (h : p ∉ ([.banksCollations, .banksLastActive, .banksMem, .banksMerge, .banksPauses, .banksSeals, .banksValid, .draws, .fabricAccs, .fabricBooked, .fabricCounters, .fabricHolds, .fabricSlots, .now, .powerDoms, .regs, .remoteOutMsgs, .replicasBaroCorr, .replicasStrays, .streamsCtxs, .streamsTokens, .supEventNow, .supEvents, .supNextEvent, .supStalled, .supW1cSet] : List StatePart)) (a0 : Sys2Proof.Die) (a1 : Sys2Proof.Machine.State) :
    ∀ t, execSupStall a0 a1 = .next t → part t p = part a1 p := by
  simp at h
  unfold execSupStall
  refine act_part p _ _ _ (fun h1 h2 => ?_)
  repeat' split
  all_goals simp [h]

theorem execDrainStat_part (p : StatePart) (h : p ∉ ([.regs, .supAllocs, .supCmds, .supEventNow, .supEvents, .supInputs, .supNextEvent, .supSideOrder, .supW1cSet] : List StatePart)) (a0 : Sys2Proof.CmdSrc) (a1 : Sys2Proof.Machine.State) :
    ∀ t, execDrainStat a0 a1 = .next t → part t p = part a1 p := by
  simp at h
  unfold execDrainStat
  refine cmdAct_part p _ _ _ _ (fun h1 h2 s => ?_)
  simp [h]

theorem execAlmanac_part (p : StatePart) (h : p ∉ ([.pages, .regs, .supAllocs, .supAlmanacCount, .supAlmanacs, .supCmds, .supEventNow, .supEvents, .supInputs, .supNextEvent, .supSideOrder, .supW1cSet] : List StatePart)) (a0 : Sys2Proof.CmdSrc) (a1 : Sys2Proof.Machine.State) :
    ∀ t, execAlmanac a0 a1 = .next t → part t p = part a1 p := by
  simp at h
  unfold execAlmanac
  refine cmdAct_part p _ _ _ _ (fun h1 h2 s => ?_)
  simp [h]

theorem execAlmanacRemoteCapture_part (p : StatePart) (h : p ∉ ([.supAlmanacCount, .supAlmanacs] : List StatePart)) (a0 : Sys2Proof.Die) (a1 : Sys2Proof.Die) (a2 : Sys2Proof.Win) (a3 : Sys2Proof.Machine.State) :
    ∀ t, execAlmanacRemoteCapture a0 a1 a2 a3 = .next t → part t p = part a3 p := by
  simp at h
  unfold execAlmanacRemoteCapture
  refine act_part p _ _ _ (fun h1 h2 => ?_)
  simp [h]

theorem execAlmanacReplyReceive_part (p : StatePart) (h : p ∉ ([.pages, .regs, .supAllocs, .supAlmanacs, .supCmds, .supEventNow, .supEvents, .supInputs, .supNextEvent, .supSideOrder, .supW1cSet] : List StatePart)) (a0 : Sys2Proof.Die) (a1 : Sys2Proof.Win) (a2 : Sys2Proof.Machine.State) :
    ∀ t, execAlmanacReplyReceive a0 a1 a2 = .next t → part t p = part a2 p := by
  simp at h
  unfold execAlmanacReplyReceive
  refine act_part p _ _ _ (fun h1 h2 => ?_)
  repeat' split
  all_goals simp [h]

theorem execEvlogPop_part (p : StatePart) (h : p ∉ ([.regs, .supEventNow, .supEvents] : List StatePart)) (a0 : Sys2Proof.Die) (a1 : Sys2Proof.Win) (a2 : Sys2Proof.Machine.State) :
    ∀ t, execEvlogPop a0 a1 a2 = .next t → part t p = part a2 p := by
  simp at h
  unfold execEvlogPop
  refine act_part p _ _ _ (fun h1 h2 => ?_)
  simp [h]

theorem execEvlogClrLost_part (p : StatePart) (h : p ∉ ([.regs, .supEventNow, .supEvents] : List StatePart)) (a0 : Sys2Proof.Die) (a1 : Sys2Proof.Win) (a2 : Sys2Proof.Machine.State) :
    ∀ t, execEvlogClrLost a0 a1 a2 = .next t → part t p = part a2 p := by
  simp at h
  unfold execEvlogClrLost
  refine act_part p _ _ _ (fun h1 h2 => ?_)
  simp [h]

/-! ### RegWrite -/

theorem execRegisterWrite_part (p : StatePart) (h : p ∉ ([.banksCollations, .banksLastActive, .banksMerge, .banksPauses, .banksRawOps, .banksRemapCopies, .banksSealMap, .banksSeals, .banksTags, .banksValid, .banksZeroing, .boots, .fabricClearWanted, .fabricCounters, .fabricGuestPending, .fabricNextSlot, .fabricPlan, .fabricSlots, .fabricSnapWanted, .fabricSquallNow, .fabricSqualls, .out, .pages, .pairHi, .pairLo, .powerDoms, .powerMarchDoms, .powerMarches, .queuesComb, .queuesCopies, .queuesNextOp, .queuesOps, .queuesResults, .queuesSlipq, .regs, .remoteCounters, .remoteOutMsgs, .remoteOutStage, .remoteRingCount, .remoteStaged, .remoteTranslator, .replicasBallots, .replicasLfsr, .replicasStrays, .replicasUnsafeRegs, .streamsAborts, .streamsCtxs, .streamsTiles, .supAllocs, .supCatCorrected, .supCatReported, .supCmds, .supEventNow, .supEvents, .supInputs, .supNextEvent, .supNextSeq, .supQueued, .supSideOrder, .supW1cSet] : List StatePart)) (a0 : Sys2Proof.Die) (a1 : Sys2Proof.RegWriter) (a2 : Sys2Proof.Word) (a3 : Sys2Proof.Word) (a4 : Sys2Proof.Machine.State) :
    ∀ t, execRegisterWrite a0 a1 a2 a3 a4 = .next t → part t p = part a4 p := by
  simp at h
  unfold execRegisterWrite
  refine act_part p _ _ _ (fun h1 h2 => ?_)
  repeat' split
  all_goals simp [h]

theorem execRegisterPairWrite_part (p : StatePart) (h : p ∉ ([.banksCollations, .banksLastActive, .banksMerge, .banksPauses, .banksRawOps, .banksRemapCopies, .banksSealMap, .banksSeals, .banksTags, .banksValid, .banksZeroing, .boots, .fabricClearWanted, .fabricCounters, .fabricGuestPending, .fabricNextSlot, .fabricPlan, .fabricSlots, .fabricSnapWanted, .fabricSquallNow, .fabricSqualls, .out, .pages, .pairHi, .pairLo, .powerDoms, .powerMarchDoms, .powerMarches, .queuesComb, .queuesCopies, .queuesNextOp, .queuesOps, .queuesResults, .queuesSlipq, .regs, .remoteCounters, .remoteOutMsgs, .remoteOutStage, .remoteRingCount, .remoteStaged, .remoteTranslator, .replicasBallots, .replicasLfsr, .replicasStrays, .replicasUnsafeRegs, .streamsAborts, .streamsCtxs, .streamsTiles, .supAllocs, .supCatCorrected, .supCatReported, .supCmds, .supEventNow, .supEvents, .supInputs, .supNextEvent, .supNextSeq, .supQueued, .supSideOrder, .supW1cSet] : List StatePart)) (a0 : Sys2Proof.Die) (a1 : Sys2Proof.Win) (a2 : Sys2Proof.Word) (a3 : Sys2Proof.Word) (a4 : Sys2Proof.Machine.State) :
    ∀ t, execRegisterPairWrite a0 a1 a2 a3 a4 = .next t → part t p = part a4 p := by
  simp at h
  unfold execRegisterPairWrite
  refine act_part p _ _ _ (fun h1 h2 => ?_)
  simp [h]

end Sys2Proof.Laws
end

