-- ==== Sys2Proof/Laws/Maps.lean ====
section
/-! SUPPORT. What a map, memory, a register, a context, a domain or a die's start-up record reads as after one of them is
written. -/

namespace Sys2Proof.Laws

open Sys2Proof Sys2Proof.Machine

/-! ### Maps -/

/-- A lookup after a key is set: the new value at the key, the old one elsewhere. -/
theorem SMap_find_set {α : Type} (m : SMap α) (k j : Nat) (v : α) :
    SMap.find (SMap.set m k v) j = if j = k then some v else SMap.find m j := by
  induction m with
  | nil => by_cases h : k = j <;> simp [SMap.set, SMap.find, h, eq_comm]
  | cons e r ih =>
    obtain ⟨a, w⟩ := e
    simp only [SMap.set]
    by_cases h1 : a = k
    · subst h1
      by_cases h2 : a = j <;> simp [SMap.find, h2, eq_comm]
      intro h3; exact absurd h3.symm h2
    · by_cases h2 : k < a
      · rw [if_neg h1, if_pos h2]
        simp only [SMap.find]
        by_cases h3 : k = j
        · subst h3; simp
        · rw [if_neg h3, if_neg (Ne.symm h3)]
      · simp only [h1, h2, if_false, SMap.find, ih]
        by_cases h3 : a = j
        · subst h3; simp [h1]
        · simp [h3]

/-- A value is the lookup, or the default where nothing is listed. -/
theorem SMap_get_eq {α : Type} (m : SMap α) (k : Nat) (d : α) : SMap.get m k d = (SMap.find m k).getD d := by
  induction m with
  | nil => rfl
  | cons e r ih => obtain ⟨a, w⟩ := e; by_cases h : a = k <;> simp [SMap.get, SMap.find, h, ih]

/-- A value after a key is set. -/
theorem SMap_get_set {α : Type} (m : SMap α) (k j : Nat) (v d : α) :
    SMap.get (SMap.set m k v) j d = if j = k then v else SMap.get m j d := by
  rw [SMap_get_eq, SMap_find_set, SMap_get_eq]; split <;> rfl

@[simp] theorem SMap_get_set_same {α : Type} (m : SMap α) (k : Nat) (v d : α) : SMap.get (SMap.set m k v) k d = v := by
  rw [SMap_get_set]; simp

@[simp] theorem SMap_find_set_same {α : Type} (m : SMap α) (k : Nat) (v : α) : SMap.find (SMap.set m k v) k = some v := by
  rw [SMap_find_set]; simp

/-- A lookup after the keys that `p` picks are gone. -/
theorem SMap_find_eraseIf {α : Type} (m : SMap α) (p : Nat → Bool) (j : Nat) :
    SMap.find (SMap.eraseIf m p) j = if p j then none else SMap.find m j := by
  induction m with
  | nil => simp [SMap.eraseIf, SMap.find]
  | cons e r ih =>
    obtain ⟨a, w⟩ := e
    simp only [SMap.eraseIf, List.filter_cons] at ih ⊢
    by_cases h1 : p a = true
    · simp only [h1, Bool.not_true, Bool.false_eq_true, if_false, ih, SMap.find]
      by_cases h2 : a = j
      · subst h2; simp [h1]
      · simp [h2]
    · simp only [Bool.not_eq_true] at h1
      simp only [h1, Bool.not_false, if_true, SMap.find, ih]
      by_cases h2 : a = j
      · subst h2; simp [h1]
      · simp [h2]

/-- A lookup after a key is gone. -/
theorem SMap_find_erase {α : Type} (m : SMap α) (k j : Nat) :
    SMap.find (SMap.erase m k) j = if j = k then none else SMap.find m j := by
  have h := SMap_find_eraseIf m (fun a => a == k) j
  simp only [beq_iff_eq] at h
  exact h

/-! ### Memory -/

/-- A byte after a byte is written. -/
theorem Mem_read_write (m : List Host.Cell) (a x : Nat) (b : Byte) :
    Mem.read (Mem.write m a b) x = if x = a then b else Mem.read m x := by
  unfold Mem.read Mem.write
  by_cases h : b = Mem.blank
  · simp only [h, if_true]
    have e := SMap_find_erase m a x
    simp only [SMap.erase] at e
    rw [SMap_get_eq, SMap_get_eq, e]
    split <;> rfl
  · simp only [h, if_false]
    exact SMap_get_set m a x b Mem.blank

/-- A byte after several are written: the one written there, or the old one outside. -/
theorem Mem_read_writeN (l : List Byte) : ∀ (m : List Host.Cell) (a x : Nat),
    Mem.read (Mem.writeN m a l) x = if a ≤ x ∧ x < a + l.length then l.getD (x - a) 0 else Mem.read m x := by
  induction l with
  | nil => intro m a x; simp only [Mem.writeN, List.length_nil, Nat.add_zero]; rw [if_neg (by omega)]
  | cons b r ih =>
    intro m a x
    simp only [Mem.writeN, ih, Mem_read_write, List.length_cons]
    by_cases h1 : x = a
    · subst h1
      rw [if_neg (by omega), if_pos rfl, if_pos (by omega), Nat.sub_self]; rfl
    · rw [if_neg h1]
      by_cases h2 : a + 1 ≤ x ∧ x < a + 1 + r.length
      · rw [if_pos h2, if_pos (by omega)]
        obtain ⟨k, hk⟩ : ∃ k, x - a = k + 1 := ⟨x - a - 1, by omega⟩
        rw [hk, show x - (a + 1) = k by omega]; rfl
      · rw [if_neg h2, if_neg (by omega)]

/-! ### Registers, contexts, domains, start-up -/

/-- A register after one is written: the value written, or the old one of a register with another key. -/
theorem regGet_regSet (s : State) (d e : Nat) (r q : Reg) (v : Word) :
    regGet (regSet s d r v) e q = if key e q = key d r then v else regGet s e q := by
  unfold regGet regSet
  exact SMap_get_set _ _ _ _ _

@[simp] theorem regGet_regSet_same (s : State) (d : Nat) (r : Reg) (v : Word) : regGet (regSet s d r v) d r = v := by
  rw [regGet_regSet]; simp

/-- A context after one is replaced. -/
theorem ctxOf_ctxSet (s : State) (c e : CtxId) (x : Ctx) : ctxOf (ctxSet s c x) e = if e = c then x else ctxOf s e := by
  have h : (e.toNat = c.toNat) ↔ e = c := ⟨fun h => BitVec.eq_of_toNat_eq h, fun h => by rw [h]⟩
  unfold ctxOf ctxSet State.onStreams
  simp only [SMap_get_set, h]

@[simp] theorem ctxOf_ctxSet_same (s : State) (c : CtxId) (x : Ctx) : ctxOf (ctxSet s c x) c = x := by
  rw [ctxOf_ctxSet]; simp

/-- A context after one is changed. -/
theorem ctxOf_ctxMod (s : State) (c e : CtxId) (f : Ctx → Ctx) :
    ctxOf (ctxMod s c f) e = if e = c then f (ctxOf s c) else ctxOf s e := by
  unfold ctxMod; exact ctxOf_ctxSet s c e (f (ctxOf s c))

/-- A domain after one is set. -/
theorem dom_domSet (s : State) (d n e m : Nat) (v : Dom) :
    dom (domSet s d n v) e m = if domKey e m = domKey d n then v else dom s e m := by
  unfold dom domSet State.onPower
  exact SMap_get_set _ _ _ _ _

/-- A die's start-up record after one is changed. -/
theorem bootOf_bootSet (s : State) (d e : Nat) (f : BootSt → BootSt) :
    bootOf (bootSet s d f) e = if e = d then f (bootOf s d) else bootOf s e := by
  unfold bootOf bootSet
  exact SMap_get_set _ _ _ _ _

end Sys2Proof.Laws
end

