-- ==== Sys2Proof/Laws/Memory.lean ====
section
/-! SUPPORT. Every operation keeps the canonical form of memory. -/

namespace Sys2Proof.Laws

open Sys2Proof Sys2Proof.Machine

theorem Mem_rising_cons (c : Host.Cell) (m : List Host.Cell) :
    Mem.rising (c :: m) = true ↔ (∀ e ∈ m.head?, c.1 < e.1) ∧ Mem.rising m = true := by
  cases m with
  | nil => simp [Mem.rising]
  | cons e m => simp [Mem.rising]

theorem rising_pairwise (m : List Host.Cell) : Mem.rising m = true ↔ m.Pairwise (fun x y => x.1 < y.1) := by
  induction m with
  | nil => simp [Mem.rising]
  | cons c m ih =>
    rw [Mem_rising_cons, ih, List.pairwise_cons]
    constructor
    · rintro ⟨h1, h2⟩
      refine ⟨fun e he => ?_, h2⟩
      cases m with
      | nil => cases he
      | cons d m =>
        have hd := h1 d (by simp)
        rcases List.mem_cons.1 he with rfl | he
        · exact hd
        · exact Nat.lt_trans hd ((List.pairwise_cons.1 h2).1 e he)
    · rintro ⟨h1, h2⟩
      exact ⟨fun e he => h1 e (List.mem_of_mem_head? he), h2⟩

theorem Mem_wf_iff (m : List Host.Cell) :
    Mem.wf m = true ↔ m.Pairwise (fun x y => x.1 < y.1) ∧ ∀ e ∈ m, e.2 ≠ Mem.blank := by
  simp [Mem.wf, rising_pairwise]

theorem mem_SMap_set {α : Type} (m : SMap α) (k : Nat) (v : α) (e : Nat × α) (h : e ∈ SMap.set m k v) : e = (k, v) ∨ e ∈ m := by
  induction m with
  | nil => simpa [SMap.set] using h
  | cons c m ih =>
    obtain ⟨a, w⟩ := c
    simp only [SMap.set] at h
    split at h
    · rcases List.mem_cons.1 h with h | h
      · exact .inl h
      · exact .inr (List.mem_cons_of_mem _ h)
    · split at h
      · rcases List.mem_cons.1 h with h | h
        · exact .inl h
        · exact .inr h
      · rcases List.mem_cons.1 h with h | h
        · exact .inr (by simp [h])
        · rcases ih h with h | h
          · exact .inl h
          · exact .inr (List.mem_cons_of_mem _ h)

theorem SMap_set_rising {α : Type} (m : SMap α) (k : Nat) (v : α) (h : m.Pairwise (fun x y => x.1 < y.1)) :
    (SMap.set m k v).Pairwise (fun x y => x.1 < y.1) := by
  induction m with
  | nil => simp [SMap.set]
  | cons c m ih =>
    obtain ⟨a, w⟩ := c
    obtain ⟨h1, h2⟩ := List.pairwise_cons.1 h
    simp only [SMap.set]
    split
    · next e => subst e; exact List.pairwise_cons.2 ⟨h1, h2⟩
    · split
      · next hk =>
        refine List.pairwise_cons.2 ⟨fun e he => ?_, h⟩
        rcases List.mem_cons.1 he with rfl | he
        · exact hk
        · exact Nat.lt_trans hk (h1 e he)
      · refine List.pairwise_cons.2 ⟨fun e he => ?_, ih h2⟩
        rcases mem_SMap_set m k v e he with rfl | he
        · show a < k; omega
        · exact h1 e he

/-- Every write of a byte keeps the canonical form of memory. -/
theorem Mem_write_wf (m : List Host.Cell) (a : Nat) (b : Byte) (h : Mem.wf m = true) : Mem.wf (Mem.write m a b) = true := by
  rw [Mem_wf_iff] at *
  unfold Mem.write
  split
  · exact ⟨h.1.filter _, fun e he => h.2 e ((List.mem_filter.1 he).1)⟩
  · next hb =>
    refine ⟨SMap_set_rising m a b h.1, fun e he => ?_⟩
    rcases mem_SMap_set m a b e he with rfl | he
    · exact hb
    · exact h.2 e he

/-- Every write of several bytes keeps it. -/
@[simp] theorem Mem_writeN_wf (m : List Host.Cell) (a : Nat) (l : List Byte) (h : Mem.wf m = true) :
    Mem.wf (Mem.writeN m a l) = true := by
  induction l generalizing m a with
  | nil => exact h
  | cons b l ih => exact ih _ _ (Mem_write_wf m a b h)

/-- A write of memory alone. -/
@[simp] theorem onBanks_mem_wf (s : State) (a : Nat) (l : List Byte) (hm : Mem.wf (part s .banksMem) = true) :
    Mem.wf (part (s.onBanks (fun k => { k with mem := Mem.writeN k.mem a l })) .banksMem) = true := Mem_writeN_wf _ _ _ hm

theorem foldl_memOk {α : Type} (f : State → α → State) (h : ∀ s a, Mem.wf (part s .banksMem) = true → Mem.wf (part (f s a) .banksMem) = true) (l : List α) :
    ∀ s, Mem.wf (part s .banksMem) = true → Mem.wf (part (l.foldl f s) .banksMem) = true := by
  induction l with
  | nil => intro s hs; exact hs
  | cons a l ih => intro s hs; exact ih _ (h s a hs)

@[simp] theorem ite_memOk {c : Prop} [Decidable c] (a b : State) (ha : Mem.wf (part a .banksMem) = true) (hb : Mem.wf (part b .banksMem) = true) : Mem.wf (if c then part a .banksMem else part b .banksMem) = true := by
  split <;> assumption

@[simp] theorem cmdChecked_mem (s : State) (src : CmdSrc) (checks : List (Bool × Nat)) (go : State → State)
    (hg : ∀ s, Mem.wf (part s .banksMem) = true → Mem.wf (part (go s) .banksMem) = true) (hm : Mem.wf (part s .banksMem) = true) :
    Mem.wf (part (cmdChecked s src checks go) .banksMem) = true := by
  unfold cmdChecked
  dsimp only
  split
  · exact hg s hm
  · simp [hm]

theorem act_mem (s : State) (ds : List Nat) (t : State) (h : Mem.wf (part t .banksMem) = true) :
    ∀ u, act s ds t = .next u → Mem.wf (part u .banksMem) = true := by
  intro u hu
  unfold act at hu
  split at hu
  · injection hu with hu
    subst hu
    exact h
  · cases hu

/-! ### Lines -/

@[simp] theorem putRow_mem (s : State) (pl : Nat) (row : List Byte) (hm : Mem.wf (part s .banksMem) = true) :
    Mem.wf (part (putRow s pl row) .banksMem) = true := Mem_writeN_wf _ _ _ hm

@[simp] theorem writeLine_mem (a0 : Sys2Proof.Machine.State) (a1 : Nat) (a2 : List Bool) (a3 : List Sys2Proof.Byte) (a4 : Bool) (hm : Mem.wf (part a0 .banksMem) = true) :
    Mem.wf (part (writeLine a0 a1 a2 a3 a4) .banksMem) = true := by
  unfold writeLine
  repeat' split
  all_goals simp [hm]

@[simp] theorem writeWholeLine_mem (a0 : Sys2Proof.Machine.State) (a1 : Nat) (a2 : List Sys2Proof.Byte) (hm : Mem.wf (part a0 .banksMem) = true) :
    Mem.wf (part (writeWholeLine a0 a1 a2) .banksMem) = true := by
  unfold writeWholeLine
  simp [hm]

@[simp] theorem flushEntry_mem (a0 : Sys2Proof.Machine.State) (a1 : Sys2Proof.Machine.MergeEntry) (hm : Mem.wf (part a0 .banksMem) = true) :
    Mem.wf (part (flushEntry a0 a1) .banksMem) = true := by
  unfold flushEntry
  simp [hm]

/-! ### Array -/

@[simp] theorem sealTake_mem (s : State) (c ta : Nat) (data : List Byte) (hm : Mem.wf (part s .banksMem) = true) : Mem.wf (part (sealTake s c ta data).1 .banksMem) = true := by
  have h := foldl_memOk _ (fun z (i : Nat) hz => putRow_mem z (taLine ta + i) (sealRow data i) hz) (List.range 4) s hm
  unfold sealTake
  dsimp only
  split
  · exact hm
  · split
    · exact hm
    · split
      · simp [h]
      · split
        · split <;> exact hm
        · exact hm

@[simp] theorem writeElem_mem (a0 : Sys2Proof.Machine.State) (a1 : Sys2Proof.CtxId) (a2 : Nat) (a3 : Nat) (a4 : List Sys2Proof.Byte) (a5 : Bool) (hm : Mem.wf (part a0 .banksMem) = true) :
    Mem.wf (part (writeElem a0 a1 a2 a3 a4 a5) .banksMem) = true := by
  unfold writeElem
  simp [hm]

@[simp] theorem writeAcc_mem (a0 : Sys2Proof.Machine.State) (a1 : Sys2Proof.Machine.Slot) (a2 : Sys2Proof.Machine.Acc) (hm : Mem.wf (part a0 .banksMem) = true) :
    Mem.wf (part (writeAcc a0 a1 a2) .banksMem) = true := by
  unfold writeAcc
  repeat' split
  all_goals simp [hm]

@[simp] theorem applyAcc_mem (a0 : Sys2Proof.Machine.State) (a1 : Sys2Proof.Machine.Acc) (hm : Mem.wf (part a0 .banksMem) = true) :
    Mem.wf (part (applyAcc a0 a1) .banksMem) = true := by
  unfold applyAcc
  repeat' split
  all_goals simp [hm]

/-! ### Clock -/

@[simp] theorem runTo_mem (s : State) (t : Nat) (hm : Mem.wf (part s .banksMem) = true) : Mem.wf (part (runTo s t) .banksMem) = true := by
  unfold runTo
  rw [passTo_part .banksMem (by simp)]
  exact foldl_memOk _ (fun z a hz => applyAcc_mem _ _ (by simp [hz])) _ s hm

@[simp] theorem advanceTo_mem (a0 : Sys2Proof.Machine.State) (a1 : Nat) (hm : Mem.wf (part a0 .banksMem) = true) :
    Mem.wf (part (advanceTo a0 a1) .banksMem) = true := by
  unfold advanceTo
  repeat' split
  all_goals simp [hm]

@[simp] theorem frameStart_mem (s : State) (hm : Mem.wf (part s .banksMem) = true) : Mem.wf (part (frameStart s) .banksMem) = true := by
  unfold frameStart
  dsimp only
  rw [perfTurn_part .banksMem (by simp)]
  exact advanceTo_mem s _ hm

@[simp] theorem idleCycle_mem (a0 : Sys2Proof.Machine.State) (hm : Mem.wf (part a0 .banksMem) = true) :
    Mem.wf (part (idleCycle a0) .banksMem) = true := by
  unfold idleCycle
  repeat' split
  all_goals simp [hm]

@[simp] theorem atCycle_mem (s : State) (t : Nat) (f : State → State)
    (hf : ∀ s, Mem.wf (part s .banksMem) = true → Mem.wf (part (f s) .banksMem) = true) (hm : Mem.wf (part s .banksMem) = true) : Mem.wf (part (atCycle s t f) .banksMem) = true := by
  unfold atCycle
  split
  · exact hf _ (advanceTo_mem s t hm)
  · exact hm

@[simp] theorem atSlot_mem (s : State) (x : Slot) (t : Nat) (f : State → Slot → State)
    (hf : ∀ u y, Mem.wf (part u .banksMem) = true → Mem.wf (part (f u y) .banksMem) = true) (hm : Mem.wf (part s .banksMem) = true) : Mem.wf (part (atSlot s x t f) .banksMem) = true := by
  unfold atSlot
  refine atCycle_mem s _ _ (fun u hu => ?_) hm
  split
  · exact hf _ _ hu
  · exact hu

@[simp] theorem atDue_mem (s : State) (x : Slot) (f : State → Slot → State)
    (hf : ∀ u y, Mem.wf (part u .banksMem) = true → Mem.wf (part (f u y) .banksMem) = true) (hm : Mem.wf (part s .banksMem) = true) : Mem.wf (part (atDue s x f) .banksMem) = true :=
  atSlot_mem s x _ f hf hm

@[simp] theorem atBank_mem (s : State) (b t : Nat) (f : State → State)
    (hf : ∀ s, Mem.wf (part s .banksMem) = true → Mem.wf (part (f s) .banksMem) = true) (hm : Mem.wf (part s .banksMem) = true) : Mem.wf (part (atBank s b t f) .banksMem) = true := by
  unfold atBank
  split
  · exact hm
  · exact atCycle_mem s t f hf hm

/-! ### Cache -/

@[simp] theorem cacheWrite_mem (a0 : Sys2Proof.Machine.State) (a1 : Nat) (a2 : List Sys2Proof.Byte) (hm : Mem.wf (part a0 .banksMem) = true) :
    Mem.wf (part (cacheWrite a0 a1 a2) .banksMem) = true := by
  unfold cacheWrite
  dsimp only
  repeat' (first | (simp [hm, *]; done) | (with_reducible assumption) | split | (intro _) | (refine foldl_memOk _ ?_ _ _ ?_; intro s a hs) | (dsimp only; split))

@[simp] theorem fillDone_mem (a0 : Sys2Proof.Machine.State) (a1 : Sys2Proof.Machine.Slot) (a2 : Nat) (a3 : Nat) (hm : Mem.wf (part a0 .banksMem) = true) :
    Mem.wf (part (fillDone a0 a1 a2 a3) .banksMem) = true := by
  unfold fillDone
  repeat' split
  all_goals simp [hm]

/-! ### Grant -/

@[simp] theorem moveCached_mem (a0 : Sys2Proof.Machine.State) (a1 : Sys2Proof.Machine.Slot) (hm : Mem.wf (part a0 .banksMem) = true) :
    Mem.wf (part (moveCached a0 a1).1 .banksMem) = true := by
  unfold moveCached
  dsimp only
  repeat' (first | (simp [hm, *]; done) | (with_reducible assumption) | split | (intro _) | (refine foldl_memOk _ ?_ _ _ ?_; intro s a hs) | (dsimp only; split))

@[simp] theorem moveData_mem (a0 : Sys2Proof.Machine.State) (a1 : Sys2Proof.Machine.Slot) (a2 : List Nat) (hm : Mem.wf (part a0 .banksMem) = true) :
    Mem.wf (part (moveData a0 a1 a2).st .banksMem) = true := by
  unfold moveData
  dsimp only
  repeat' (first | (simp [hm, *]; done) | (with_reducible assumption) | split | (intro _) | (refine foldl_memOk _ ?_ _ _ ?_; intro s a hs) | (dsimp only; split))

@[simp] theorem grantSlot_mem (a0 : Sys2Proof.Machine.State) (a1 : Sys2Proof.Machine.Slot) (a2 : List (Nat × Nat × Nat)) (a3 : Bool) (a4 : Bool) (a5 : Bool) (a6 : Bool) (hm : Mem.wf (part a0 .banksMem) = true) :
    Mem.wf (part (grantSlot a0 a1 a2 a3 a4 a5 a6) .banksMem) = true := by
  unfold grantSlot
  repeat' split
  all_goals simp [hm]

/-! ### Arbiter -/

@[simp] theorem grantCand_mem (a0 : Sys2Proof.Machine.State) (a1 : Nat) (a2 : Sys2Proof.Machine.Cand) (hm : Mem.wf (part a0 .banksMem) = true) :
    Mem.wf (part (grantCand a0 a1 a2) .banksMem) = true := by
  unfold grantCand
  repeat' split
  all_goals simp [hm]

@[simp] theorem grantPlanned_mem (a0 : Sys2Proof.Machine.State) (a1 : Nat) (a2 : Sys2Proof.Machine.Slot) (hm : Mem.wf (part a0 .banksMem) = true) :
    Mem.wf (part (grantPlanned a0 a1 a2) .banksMem) = true := by
  unfold grantPlanned
  dsimp only
  repeat' (first | (simp [hm, *]; done) | (with_reducible assumption) | split | (intro _) | (refine foldl_memOk _ ?_ _ _ ?_; intro s a hs) | (dsimp only; split))

@[simp] theorem decidePart_mem (s : State) (d p : Nat) (mine : Part) (hm : Mem.wf (part s .banksMem) = true) : Mem.wf (part (decidePart s d p mine) .banksMem) = true := by
  have hg : ∀ (l : List Cand) (z : State), Mem.wf (part z .banksMem) = true →
      Mem.wf (part (l.foldl (fun s c => grantCand s (match c.window with | some _ => p - 2 | none => p) c) z) .banksMem) = true := fun l z hz =>
    foldl_memOk _ (fun s a hs => grantCand_mem _ _ _ hs) l z hz
  unfold decidePart
  dsimp only
  split
  · exact hg _ _ (by simp [hm])
  · split
    · exact hg _ _ hm
    · refine hg _ _ ?_
      rw [holdContest_part .banksMem (by simp)]
      exact hg _ _ hm

@[simp] theorem decidePosition_mem (s : State) (d p : Nat) (hm : Mem.wf (part s .banksMem) = true) : Mem.wf (part (decidePosition s d p) .banksMem) = true := by
  unfold decidePosition
  dsimp only
  refine decidePart_mem _ _ _ _ ?_
  refine foldl_memOk _ (fun z r hz => by simp [hz]) _ _ ?_
  refine foldl_memOk _ (fun z x hz => grantSlot_mem _ _ _ _ _ _ _ hz) _ _ ?_
  rw [refuseFirst_part .banksMem (by simp), planOutcomes_part .banksMem (by simp)]
  exact foldl_memOk _ (fun z x hz => grantPlanned_mem _ _ _ hz) _ _ hm

@[simp] theorem decideVisitor_mem (s : State) (d core p : Nat) (hm : Mem.wf (part s .banksMem) = true) : Mem.wf (part (decideVisitor s d core p) .banksMem) = true := by
  unfold decideVisitor
  dsimp only
  refine decidePart_mem _ _ _ _ ?_
  refine foldl_memOk _ (fun z r hz => by simp [hz]) _ _ ?_
  rw [refuseFirst_part .banksMem (by simp), planOutcomes_part .banksMem (by simp)]
  exact foldl_memOk _ (fun z x hz => grantPlanned_mem _ _ _ hz) _ _ hm

/-! ### QueueOps -/

@[simp] theorem meetPortA_mem (a0 : Sys2Proof.Machine.State) (a1 : Nat) (hm : Mem.wf (part a0 .banksMem) = true) :
    Mem.wf (part (meetPortA a0 a1) .banksMem) = true := by
  unfold meetPortA
  repeat' (first | (simp [hm, *]; done) | (with_reducible assumption) | split | (intro _) | (refine foldl_memOk _ ?_ _ _ ?_; intro s a hs) | (dsimp only; split) | (simp [hm, *]; split) | simp [hm, *])

@[simp] theorem portBWriteLine_mem (a0 : Sys2Proof.Machine.State) (a1 : Nat) (a2 : List Sys2Proof.Byte) (hm : Mem.wf (part a0 .banksMem) = true) :
    Mem.wf (part (portBWriteLine a0 a1 a2) .banksMem) = true := by
  unfold portBWriteLine
  simp [hm]

@[simp] theorem portBRead_mem (a0 : Sys2Proof.Machine.State) (a1 : Nat) (a2 : Nat) (a3 : Nat) (hm : Mem.wf (part a0 .banksMem) = true) :
    Mem.wf (part (portBRead a0 a1 a2 a3).1 .banksMem) = true := by
  unfold portBRead
  simp [hm]

@[simp] theorem sqGive_mem (a0 : Sys2Proof.Machine.State) (a1 : Nat) (a2 : Nat) (a3 : Sys2Proof.Word) (a4 : Bool) (a5 : Nat) (a6 : Nat) (hm : Mem.wf (part a0 .banksMem) = true) :
    Mem.wf (part (sqGive a0 a1 a2 a3 a4 a5 a6).1 .banksMem) = true := by
  unfold sqGive
  dsimp only
  repeat' (first | (simp [hm, *]; done) | (with_reducible assumption) | split | (intro _) | (refine foldl_memOk _ ?_ _ _ ?_; intro s a hs) | (dsimp only; split) | (simp (maxDischargeDepth := 10) [hm, *]; done) | (simp [hm, *]; split) | simp [hm, *])

@[simp] theorem sqTake_mem (a0 : Sys2Proof.Machine.State) (a1 : Nat) (a2 : Nat) (a3 : Nat) (a4 : Nat) (hm : Mem.wf (part a0 .banksMem) = true) :
    Mem.wf (part (sqTake a0 a1 a2 a3 a4).1 .banksMem) = true := by
  unfold sqTake
  dsimp only
  repeat' (first | (simp [hm, *]; done) | (with_reducible assumption) | split | (intro _) | (refine foldl_memOk _ ?_ _ _ ?_; intro s a hs) | (dsimp only; split))

@[simp] theorem rsPost_mem (a0 : Sys2Proof.Machine.State) (a1 : Nat) (a2 : Nat) (a3 : Nat) (a4 : Nat) (a5 : List Sys2Proof.Byte) (hm : Mem.wf (part a0 .banksMem) = true) :
    Mem.wf (part (rsPost a0 a1 a2 a3 a4 a5).1 .banksMem) = true := by
  unfold rsPost
  dsimp only
  repeat' (first | (simp [hm, *]; done) | (with_reducible assumption) | split | (intro _) | (refine foldl_memOk _ ?_ _ _ ?_; intro s a hs) | (dsimp only; split))

@[simp] theorem rsRead_mem (a0 : Sys2Proof.Machine.State) (a1 : Nat) (a2 : Nat) (a3 : Nat) (a4 : Nat) (a5 : Nat) (hm : Mem.wf (part a0 .banksMem) = true) :
    Mem.wf (part (rsRead a0 a1 a2 a3 a4 a5).1 .banksMem) = true := by
  unfold rsRead
  dsimp only
  repeat' (first | (simp [hm, *]; done) | (with_reducible assumption) | split | (intro _) | (refine foldl_memOk _ ?_ _ _ ?_; intro s a hs) | (dsimp only; split))

@[simp] theorem cqPost_mem (a0 : Sys2Proof.Machine.State) (a1 : Nat) (a2 : Nat) (a3 : Nat) (hm : Mem.wf (part a0 .banksMem) = true) :
    Mem.wf (part (cqPost a0 a1 a2 a3) .banksMem) = true := by
  unfold cqPost
  dsimp only
  repeat' (first | (simp [hm, *]; done) | (with_reducible assumption) | split | (intro _) | (refine foldl_memOk _ ?_ _ _ ?_; intro s a hs) | (dsimp only; split))

@[simp] theorem cqComplete_mem (a0 : Sys2Proof.Machine.State) (a1 : Nat) (a2 : Nat) (a3 : Nat) (hm : Mem.wf (part a0 .banksMem) = true) :
    Mem.wf (part (cqComplete a0 a1 a2 a3) .banksMem) = true := by
  unfold cqComplete
  simp [hm]

@[simp] theorem cqAdd_mem (a0 : Sys2Proof.Machine.State) (a1 : Nat) (a2 : Nat) (a3 : Nat) (a4 : Nat) (a5 : List Sys2Proof.Byte) (a6 : Nat) (a7 : Nat) (hm : Mem.wf (part a0 .banksMem) = true) :
    Mem.wf (part (cqAdd a0 a1 a2 a3 a4 a5 a6 a7) .banksMem) = true := by
  unfold cqAdd
  dsimp only
  repeat' (first | (simp [hm, *]; done) | (with_reducible assumption) | split | (intro _) | (refine foldl_memOk _ ?_ _ _ ?_; intro s a hs) | (dsimp only; split) | (simp (maxDischargeDepth := 10) [hm, *]; done) | (simp [hm, *]; split) | simp [hm, *])

@[simp] theorem cqAdvance_mem (fuel : Nat) (s : State) (d cl n : Nat) (hm : Mem.wf (part s .banksMem) = true) :
    Mem.wf (part (cqAdvance fuel s d cl n) .banksMem) = true := by
  have hf : ∀ (l : List Held) (z : State), Mem.wf (part z .banksMem) = true →
      Mem.wf (part (l.foldl (fun s h => cqAdd s d cl n h.off h.data h.ident h.task) z) .banksMem) = true := fun l z hz =>
    foldl_memOk _ (fun s a hs => cqAdd_mem _ _ _ _ _ _ _ _ hs) l z hz
  induction fuel generalizing s with
  | zero => unfold cqAdvance; dsimp only; split; exact hm; exact hf _ _ (by simp [hm])
  | succ n ih => unfold cqAdvance; dsimp only; split; exact hm; exact ih _ (hf _ _ (by simp [hm]))

@[simp] theorem cqArrive_mem (a0 : Sys2Proof.Machine.State) (a1 : Nat) (a2 : Nat) (a3 : Nat) (a4 : Nat) (a5 : Nat) (a6 : List Sys2Proof.Byte) (a7 : Nat) (a8 : Nat) (hm : Mem.wf (part a0 .banksMem) = true) :
    Mem.wf (part (cqArrive a0 a1 a2 a3 a4 a5 a6 a7 a8) .banksMem) = true := by
  unfold cqArrive
  dsimp only
  repeat' (first | (simp [hm, *]; done) | (with_reducible assumption) | split | (intro _) | (refine foldl_memOk _ ?_ _ _ ?_; intro s a hs) | (dsimp only; split) | (simp (maxDischargeDepth := 10) [hm, *]; done) | (simp [hm, *]; split) | simp [hm, *])

/-! ### StreamIssue -/

theorem turn_mem (s : State) (c : CtxId) (f : SInstr → Option (State → State))
    (hf : ∀ i g, f i = some g → ∀ s, Mem.wf (part s .banksMem) = true → Mem.wf (part (g s) .banksMem) = true) (hm : Mem.wf (part s .banksMem) = true) : Mem.wf (part (turn s c f) .banksMem) = true := by
  unfold turn
  dsimp only
  split
  · split
    · split
      · next hg =>
        refine atCycle_mem _ _ _ (fun z hz => hf _ _ hg _ ?_) hm
        simp [hz]
      · exact hm
    · exact hm
  · exact hm

/-! ### QueueCmds -/

@[simp] theorem carryOut_mem (a0 : Sys2Proof.Machine.State) (a1 : Sys2Proof.Machine.QOp) (hm : Mem.wf (part a0 .banksMem) = true) :
    Mem.wf (part (carryOut a0 a1).1 .banksMem) = true := by
  unfold carryOut
  repeat' split
  all_goals simp [hm]

@[simp] theorem serveOp_mem (a0 : Sys2Proof.Machine.State) (a1 : Sys2Proof.Machine.QOp) (hm : Mem.wf (part a0 .banksMem) = true) :
    Mem.wf (part (serveOp a0 a1) .banksMem) = true := by
  unfold serveOp
  simp [hm]

/-! ### Delivery -/

@[simp] theorem slotOver_mem (a0 : Sys2Proof.Machine.State) (a1 : Sys2Proof.Machine.Slot) (hm : Mem.wf (part a0 .banksMem) = true) :
    Mem.wf (part (slotOver a0 a1) .banksMem) = true := by
  unfold slotOver
  repeat' split
  all_goals simp [hm]

/-! ### Weeding -/

@[simp] theorem zeroRow_mem (a0 : Sys2Proof.Machine.State) (a1 : Nat) (a2 : Nat) (hm : Mem.wf (part a0 .banksMem) = true) :
    Mem.wf (part (zeroRow a0 a1 a2) .banksMem) = true := by
  unfold zeroRow
  simp [hm]

@[simp] theorem zeroLine_mem (s : State) (b n : Nat) (hm : Mem.wf (part s .banksMem) = true) : Mem.wf (part (zeroLine s b n) .banksMem) = true := by
  have h0 : ∀ (c : Bool) (z : State) (r : Nat), Mem.wf (part z .banksMem) = true → Mem.wf (part (if c = true then zeroRow z b r else z) .banksMem) = true := by
    intro c z r hz; split
    · exact zeroRow_mem _ _ _ hz
    · exact hz
  have h1 : Mem.wf (part (if lineValid s (b * 2048 + n) = true then s else zeroRow s b (rowOf s (b * 2048 + n))) .banksMem) = true := by
    split
    · exact hm
    · exact zeroRow_mem _ _ _ hm
  unfold zeroLine
  dsimp only
  split
  · exact zeroRow_mem _ _ _ (h0 _ _ _ h1)
  · exact h0 _ _ _ h1

/-! ### Banks -/

@[simp] theorem writeParity_mem (a0 : Sys2Proof.Machine.State) (a1 : Nat) (a2 : Nat) (hm : Mem.wf (part a0 .banksMem) = true) :
    Mem.wf (part (writeParity a0 a1 a2) .banksMem) = true := by
  unfold writeParity
  simp [hm]

@[simp] theorem rawDo_mem (a0 : Sys2Proof.Machine.State) (a1 : Nat) (a2 : Sys2Proof.Machine.RawReq) (hm : Mem.wf (part a0 .banksMem) = true) :
    Mem.wf (part (rawDo a0 a1 a2) .banksMem) = true := by
  unfold rawDo
  repeat' split
  all_goals simp [hm]

/-! ### March -/

@[simp] theorem marchWrite_mem (a0 : State) (a1 a2 a3 : Nat) (hm : Mem.wf (part a0 .banksMem) = true) :
    Mem.wf (part (marchWrite a0 a1 a2 a3) .banksMem) = true := by
  unfold marchWrite
  dsimp only
  split
  · exact hm
  · exact onBanks_mem_wf _ _ _ hm

@[simp] theorem enableRemap_mem (a0 : Sys2Proof.Machine.State) (a1 : Nat) (a2 : Nat) (a3 : Nat) (hm : Mem.wf (part a0 .banksMem) = true) :
    Mem.wf (part (enableRemap a0 a1 a2 a3) .banksMem) = true := by
  unfold enableRemap
  simp [hm]

@[simp] theorem rowFails_mem (a0 : Sys2Proof.Machine.State) (a1 : Nat) (a2 : Nat) (a3 : Nat) (a4 : Nat) (hm : Mem.wf (part a0 .banksMem) = true) :
    Mem.wf (part (rowFails a0 a1 a2 a3 a4) .banksMem) = true := by
  unfold rowFails
  repeat' split
  all_goals simp [hm]

@[simp] theorem destructiveOp_mem (a0 : Sys2Proof.Machine.State) (a1 : Nat) (a2 : Sys2Proof.Machine.MarchRun) (a3 : Nat) (a4 : Sys2Proof.Machine.MarchBank) (a5 : Bool) (hm : Mem.wf (part a0 .banksMem) = true) :
    Mem.wf (part (destructiveOp a0 a1 a2 a3 a4 a5) .banksMem) = true := by
  unfold destructiveOp
  dsimp only
  repeat' (first | (simp [hm, *]; done) | (with_reducible assumption) | split | (intro _) | (refine foldl_memOk _ ?_ _ _ ?_; intro s a hs) | (dsimp only; split) | (simp (maxDischargeDepth := 10) [hm, *]; done) | (simp [hm, *]; split) | simp [hm, *])

@[simp] theorem preservingGroup_mem (a0 : Sys2Proof.Machine.State) (a1 : Nat) (a2 : Sys2Proof.Machine.MarchRun) (a3 : Nat) (a4 : Nat) (a5 : Sys2Proof.Machine.MarchBank) (a6 : Bool) (hm : Mem.wf (part a0 .banksMem) = true) :
    Mem.wf (part (preservingGroup a0 a1 a2 a3 a4 a5 a6) .banksMem) = true := by
  unfold preservingGroup
  repeat' split
  all_goals simp [hm]

@[simp] theorem preservingOp_mem (a0 : Sys2Proof.Machine.State) (a1 : Nat) (a2 : Sys2Proof.Machine.MarchRun) (a3 : Nat) (a4 : Sys2Proof.Machine.MarchBank) (a5 : Bool) (hm : Mem.wf (part a0 .banksMem) = true) :
    Mem.wf (part (preservingOp a0 a1 a2 a3 a4 a5) .banksMem) = true := by
  unfold preservingOp
  repeat' split
  all_goals simp [hm]

/-! ### Power -/

@[simp] theorem loseTransfer_mem (a0 : Sys2Proof.Machine.State) (a1 : Sys2Proof.Machine.Slot) (hm : Mem.wf (part a0 .banksMem) = true) :
    Mem.wf (part (loseTransfer a0 a1) .banksMem) = true := by
  unfold loseTransfer
  repeat' split
  all_goals simp [hm]

@[simp] theorem powerOff_mem (s : State) (d n : Nat) (lossy : Bool) (hm : Mem.wf (part s .banksMem) = true) : Mem.wf (part (powerOff s d n lossy) .banksMem) = true := by
  have h1 : ∀ l : List Slot, Mem.wf (part (if lossy = true then l.foldl loseTransfer s else s) .banksMem) = true := by
    intro l
    split
    · exact foldl_memOk _ (fun s a hs => loseTransfer_mem _ _ hs) l s hm
    · exact hm
  unfold powerOff
  dsimp only
  generalize hz : (if lossy = true then _ else s) = z
  have h2 : Mem.wf (part z .banksMem) = true := hz ▸ h1 _
  repeat' split
  all_goals simp [h2]

@[simp] theorem goDown_mem (a0 : Sys2Proof.Machine.State) (a1 : Nat) (a2 : Nat) (a3 : Bool) (hm : Mem.wf (part a0 .banksMem) = true) :
    Mem.wf (part (goDown a0 a1 a2 a3) .banksMem) = true := by
  unfold goDown
  simp [hm]

@[simp] theorem flushGroup_mem (a0 : Sys2Proof.Machine.State) (a1 : Nat) (a2 : Nat) (hm : Mem.wf (part a0 .banksMem) = true) :
    Mem.wf (part (flushGroup a0 a1 a2) .banksMem) = true := by
  unfold flushGroup
  repeat' (first | (simp [hm, *]; done) | (with_reducible assumption) | split | (intro _) | (refine foldl_memOk _ ?_ _ _ ?_; intro s a hs) | (dsimp only; split) | (simp [hm, *]; split) | simp [hm, *])

/-! ### Replicas -/

@[simp] theorem postVerdict_mem (a0 : Sys2Proof.Machine.State) (a1 : Nat) (a2 : Nat) (hm : Mem.wf (part a0 .banksMem) = true) :
    Mem.wf (part (postVerdict a0 a1 a2) .banksMem) = true := by
  unfold postVerdict
  dsimp only
  repeat' (first | (simp [hm, *]; done) | (with_reducible assumption) | split | (intro _) | (refine foldl_memOk _ ?_ _ _ ?_; intro s a hs) | (dsimp only; split))

end Sys2Proof.Laws
end

