-- ==== Sys2Proof/WellFormed.lean ====
section
/-! DEFINITION. Which commands are well formed: the limits on operands that their types do not carry. -/

namespace Sys2Proof

/-- A length of an access: 1 to 256 bytes inside a 256-byte aligned block (R189, R36). -/
def lenOk (off len : Nat) : Bool := decide (1 ≤ len) && decide (off % 256 + len ≤ 256)

/-- Where an access begins. -/
def AccessTarget.offset : AccessTarget → Nat
  | .ta a => a.toNat
  | .window _ off => off.toNat

/-- A command that some state of the hardware can receive: an access has a length of 1 to 256 bytes inside one 256-byte
block and a write carries that many bytes; every other operand is limited by its type. -/
def Instr.wf : Instr → Bool
  | .plainAccessRequest _ _ _ write target len data =>
    lenOk target.offset len && (!write || decide (data.length = len))
  | .hostWindowAccess _ _ _ write ta len data =>
    lenOk ta.toNat len && (!write || decide (data.length = len))
  | _ => true

end Sys2Proof
end

