-- ==== Sys2Proof/Tests/Slice0.lean ====
section
/-! SUPPORT. The author's own tests: the ill-formed terms, a few values worked out from the spec, and for every statement with
hypotheses a state and operands that meet them. -/

set_option Elab.async false

namespace Sys2Proof.Tests

open Sys2Proof Sys2Proof.Machine Sys2Proof.Claims

/-! ### Small states -/

/-- A domain that is UP. -/
def upDom : Dom := ⟨.up, false, false, none, 0⟩

/-- A die READY with its bypass open; `m` says that it is the master. -/
def openBoot (m : Bool) : BootSt := ⟨true, false, 9, true, true, m, 0, 0, 0, 0, false, none, 0, false, none, false, 0⟩

/-- Dies 0 and 1 of a Zarun-8 in service: every domain UP, both bypasses open, die 0 the master. -/
def up : State :=
  { State.reset with
    power := { State.reset.power with
      doms := (List.range 48).map (fun n => (domKey 0 n, upDom)) ++ (List.range 48).map (fun n => (domKey 1 n, upDom)) },
    boots := [(0, openBoot true), (1, openBoot false)] }

/-- A register with a value. -/
def wreg (d : Nat) (r : Reg) (v : Nat) (s : State) : State := regSet s d r (word v)

/-- At cycle c. -/
def tick (c : Nat) (s : State) : State := { s with now := c, frame := c / 256 }

/-- A domain in a state. -/
def domSt (d n : Nat) (st : DomState) (s : State) : State := domSet s d n { dom s d n with st := st }

/-- Start-up of a die changed. -/
def boot (d : Nat) (f : BootSt → BootSt) (s : State) : State := bootSet s d f

/-- Transfers in the fabric. -/
def slots (l : List Slot) (s : State) : State := s.onFabric (fun f => { f with slots := l, nextSlot := 9 })

/-- A pause of a bank. -/
def pause (b : Nat) (k : Pause) (start : Nat) (s : State) : State :=
  s.onBanks (fun x => { x with pauses := SMap.set x.pauses b ⟨k, start, []⟩ })

/-- A context. -/
def context (c : Nat) (x : Ctx) (s : State) : State := s.onStreams (fun t => { t with ctxs := SMap.set t.ctxs c x })

/-- A command slot RUNNING with an opcode and argument words, at progress `p`. -/
def command (p : CmdProgress) (src : CmdSrc) (op : Nat) (args : List Nat) (s : State) : State :=
  let s1 := regSet s src.die src.ctl (word (2 * 2 ^ 30 + op))
  let s2 := (args.zip (List.range args.length)).foldl (fun s a => regSet s src.die (src.arg a.2) (word a.1)) s1
  s2.onSup (fun u => { u with cmds := [(src, p)], sideOrder := if src.isSide then [(src, 0)] else [] })

/-- A command whose own step is to come. -/
def given' (src : CmdSrc) (op : Nat) (args : List Nat) : State → State := command .dispatched src op args

/-- A command in progress. -/
def going (src : CmdSrc) (op : Nat) (args : List Nat) : State → State := command .inProgress src op args

/-- Slot 0 of host window w of die 0. -/
def host (w : Win) : CmdSrc := .slot 0 w 0

/-- A read of 64 bytes at TA 0 by core 0 of die 0, waiting and presented. -/
def read0 : Slot :=
  { id := 1, ident := 0, ten := 0, cls := .read, kind := .plain, src := .bank 0 none, dst := .requester, len := 64, data := [],
    ctx := none, seq := 0, ep := 0, arrive := 0, reached := 0, stage := .waiting, status := 0, faddr := 0, grantCc := 0, due := 0, ringAge := 0,
    port := .ra, write := false, presented := true, reserved := [], resv := false, missed := false, abandoned := false, reads := [] }

/-- Bank 384 of die 0: bank 0 of the carrel of core 0. -/
def carrel0 : TA := BitVec.ofNat 33 (384 * 2 ^ 17)


/-- Context 5 of cluster 0 of die 0. -/
def ctx5 : CtxId := 5
/-- A context of task 7 that runs a program on a sequencer. -/
def running (prog : List Word) : Ctx :=
  { Ctx.idle with st := .running, image := ⟨List.replicate 16 0, prog⟩, task := 7, onSeq := true, started := true }
/-- Context 5 as given. -/
def one (x : Ctx) : State := context 5 x up
/-- Context 5 runs a program. -/
def runs (prog : List Word) : State := one (running prog)
/-- A command of host window 0 that names context 5. -/
def stream (op : Nat) (args : List Nat) (s : State) : State := given' (host 0) op (5 :: args) s
/-- A load for ARM or REARM that is over. -/
def loaded (shadow : Bool) (st : Word) : Loading := ⟨host 0, 64, shadow, List.replicate 16 0, [], 0, st⟩
/-- What a stream register file holds at the start of these tests: A0 = 0x1000, A1 = 0x2000, H0 and H1 naming entry 0 of die 0. -/
def regs0 : CtxRegs :=
  { CtxRegs.zero with a := [0x1000, 0x2000, 0x3000, 0, 0, 0, 0, 0xFFFFFFFFFFFF], s := [0x80, 0x80, 0xFFFFFFFFFFFF, 0], sl := 0x00500000 }
/-- Context 5 runs a program with those registers. -/
def runsAt (prog : List Word) : State := one { running prog with regs := regs0 }
/-- Slip queue 0 of cluster 0 of die 0 enabled for tenancy 0, and result slots 0-15. -/
def shared : State := up |> wreg 0 (.sqCfg 0 0) 0x00800000 |> wreg 0 (.rsCfg 0) 0x00800000
/-- An operation 1 in flight. -/
def opIs (o : QOp) (s : State) : State := s.onQueues (fun q => { q with ops := [o] })
/-- Operation 1 of core 0 of die 0. -/
def op1 (k : OpKind) : QOp := ⟨1, .core 0 0, k, 0, 0, false, 0, 0, 0, []⟩
/-- A plain PUT of 4 bytes to inbound window 0, reference epoch 0. -/
def put4 : RemoteMsg := ⟨1, false, 7, 0, 0, 5, 0, 0, 0, 0, 0, 4, 0, 0, [1, 2, 3, 4], [], []⟩
/-- Die 0 with node number 5, and catalogue entry 5 a buffer of one folio of tenancy 0. -/
def node5 : State := up |> wreg 0 .remNode 5 |> wreg 0 (.catWord 5 0) 0x00800000
/-- Its inbound window 0 OPEN for PUT and GET over that buffer, from any node. -/
def inbound : State := node5 |> wreg 0 (.rinCfg 0) 0x006C0000 |> wreg 0 (.rinSrc 0) 0x8000 |> wreg 0 (.rinBuf 0) 5
/-- A message staged on die 0. -/
def stagedOne (m : RemoteMsg) : State → State :=
  fun s => s.onRemote (fun r => { r with staged := [⟨1, 0, m, false, [], none, 0, 0, none, none, [], none⟩] })
/-- A message of transfer 1 taken by the engine of die 0. -/
def outOne (sent : Bool) (s : State) : State := s.onRemote (fun r => { r with outMsgs := [⟨[1], 0, 0, 0, false, sent, put4⟩] })
/-- A PUT slot. -/
def putSlot : Slot := { read0 with cls := .remote, dst := .remote 0 0, write := true, kind := .emit, ctx := some 5, len := 4, data := [1, 2, 3, 4] }
/-- A GET slot. -/
def getSlot : Slot := { read0 with cls := .remote, src := .remote 0 0, dst := .bank 0 none, write := true, kind := .emit, ctx := some 5, len := 4 }
/-- A reply of a kind to such a message. -/
def reply (kind code : BitVec 8) (data : List Byte) : RemoteMsg := { put4 with kind := kind, code := code, payload := data }
/-- Ballot 0 of die 0: three replicas of tenancy 0, home die 0. -/
def balloted : State := wreg 0 (.ballotCfg 0) 0x00820000 up
/-- Ballot 0 as given. -/
def ballot0 (v : Ballot) (s : State) : State := s.onReplicas (fun r => { r with ballots := [(0, v)] })
/-- Die 0 in DEPLOYED, PROVISIONED and so on: its life-cycle state. -/
def lc (n : Nat) (s : State) : State := wreg 0 .lcStat n s
/-- A level change of die 0 at a step, to level 2, its own. -/
def changeOf (step : PerfStep) (target : BitVec 2) (s : State) : State := s.onPower (fun p => { p with perf := [(0, ⟨step, target, none, true⟩)] })
/-- A march of domain 0 of die 0 on bank 5. -/
def marchAt (preserving : Bool) (v : MarchBank) : State :=
  (if preserving then up else pause 5 .march 0 up).onPower (fun p => { p with marches := [(0, ⟨preserving, none, [(5, v)]⟩)] })
/-- A slot QUEUED with an opcode, alone in its queue since cycle 0. -/
def queuedOne (src : CmdSrc) (op : Nat) : State :=
  (regSet up src.die src.ctl (word (2 ^ 30 + op))).onSup (fun u => { u with queued := [(src, 0)] })
/-- A die out of reset in a phase. -/
def inPhase (d p : Nat) (s : State) : State := boot d (fun _ => { openBoot false with phase := p, ready := false, opened := false }) s
/-- A die whose bypass is to open from frame 0 on. -/
def opening (d : Nat) (m : Bool) (s : State) : State := boot d (fun _ => { openBoot m with opened := false, openAt := some 0 }) s
/-- A staged image header with one body block. -/
def header1 : List Byte := List.replicate 18 0 ++ [1, 0]
/-- Image slots with that header staged, armed for a time. -/
def flash1 (armed : Option (BitVec 64 × List Byte)) : Flash := ⟨[], 0, [], header1, 5, [], armed, false⟩
/-- Die d with those slots and a state of FW_STAT. -/
def image (d st : Nat) (armed : Option (BitVec 64 × List Byte)) (s : State) : State :=
  wreg d .fwStat (st * 2 ^ 28 + 1) { s with flash := SMap.set s.flash d (flash1 armed) }
/-- A package of two dies, both open, both with the image VERIFIED. -/
def bothVerified : State := image 1 3 none (image 0 3 none { up with package := .zarun2 })

/-! ### Ill-formed commands -/

/-- An access of no bytes is refused by the length check (R189). -/
theorem test_wf_refuses_empty : (Instr.plainAccessRequest 0 0 .ra false (.ta 0) 0 []).wf = false := by decide
/-- An access that crosses a 256-byte boundary is refused (R36, R189). -/
theorem test_wf_refuses_crossing : (Instr.plainAccessRequest 0 0 .ra false (.window 5 0xFF) 2 []).wf = false := by decide
/-- A write that carries another number of bytes than its length is refused. -/
theorem test_wf_refuses_short_data : (Instr.plainAccessRequest 0 0 .w true (.ta 0) 4 [1, 2, 3]).wf = false := by decide
/-- The same three checks of a host window access. -/
theorem test_wf_refuses_host_access :
    (Instr.hostWindowAccess 0 .host 0 false 0 0 []).wf = false ∧ (Instr.hostWindowAccess 0 .host 0 false 0xF0 17 []).wf = false ∧
      (Instr.hostWindowAccess 0 .host 0 true 0 4 []).wf = false := by decide
/-- An access up to the boundary is well formed. -/
theorem test_wf_takes_block : (Instr.plainAccessRequest 0 0 .ra false (.ta 0x1FF00) 256 []).wf = true := by decide

/-! ### Values worked out in the spec -/

/-- The table gives no row bits: no word spells a command. -/
theorem test_no_word_is_a_command : decodeTableWord 32 0xFFFFFFFF = none := rfl
/-- The example after R64: TA 0xD6CB4FFF is byte 0x14FFF of bank 357 of cluster 5 of die 3. -/
theorem test_ta_decode :
    taDie 0xD6CB4FFF = 3 ∧ taCluster 0xD6CB4FFF = 5 ∧ taBank 0xD6CB4FFF = 357 ∧ taFolio 0xD6CB4FFF = 0xD6CB4 := by decide
/-- Bank 357 of a cluster is an exchange bank (R15), and the last byte of that buffer lies in folio 20 of the bank. -/
theorem test_bank357 : isExchange 357 = true ∧ isCarrel 357 = false ∧ taFolio 0xD6CB4FFF % 32 = 20 := by decide
/-- The example of the register map: BANK_OWN of that bank at 0x000AD940 and SLOT_RESV of position 19 of segment 6 at 0x0400184C. -/
theorem test_offsets :
    Reg.decode 8 0 0xAD940 = some (.bankOwn 0xB65) ∧ Reg.decode 8 0 0x400184C = some (.slotResv 6 19) ∧
      Reg.decode 8 0 0x4001A00 = some (.segCtl 6) ∧ Reg.decode 8 0 0x4001B44 = some (.segCounter 6 8 true) := by decide
/-- Its BANK_OWN value names group 0x540 of die 3 and tenancy 2. -/
theorem test_owner : isOwner 0x00532540 0 (identOf 3 0x540) = true ∧ ownTen 0x00532540 = 2 := by decide
/-- The example after R21: cluster 6 to cluster 9 is 6 hops with the stitch, 44 cc. -/
theorem test_mesh : meshHops 6 9 = 6 ∧ crossesStitch 6 9 = true ∧ pathFigure 8 (.core 0 192) (.bank (9 * 512)) = 44 := by decide
/-- The examples of R101: 24 cc from cluster 2 to cluster 5, 108 cc to the next die, 378 to die 4 without its class addition. -/
theorem test_figures :
    pathFigure 8 (.core 0 64) (.bank (5 * 512)) = 24 ∧ pathFigure 8 (.core 0 0) (.bank (8192 + 384)) = 108 ∧
      pathFigure 8 (.core 0 0) (.bank (4 * 8192)) + 176 = 554 := by decide
/-- R140 names the 8 smallest values of weight 5. -/
theorem test_columns : secColumns.drop 56 = [0x1F, 0x2F, 0x37, 0x3B, 0x3D, 0x3E, 0x4F, 0x57] := by decide +kernel
/-- R140: one flipped data bit is corrected, two are not. -/
theorem test_secded :
    wordDecode [1, 0, 0, 0, 0, 0, 0, 0] 0 = .corrected [0, 0, 0, 0, 0, 0, 0, 0] ∧ wordDecode [3, 0, 0, 0, 0, 0, 0, 0] 0 = .bad := by
  decide +kernel
/-- R141: CRC-16 of one byte 0x01 is the generator. -/
theorem test_crc : crc16 [0x01] = 0x1021 := by decide +kernel
/-- R294: D = 0 folded with the single byte 1 under the key x^0 = 1 is 1 XOR the length block 1. -/
theorem test_digest : foldSlot 1 0 [1] = 0 ∧ foldSlot 1 0 [3] = 2 := by decide +kernel
/-- R13: an epoch later across the wrap, and a pair 32,768 apart that is not ordered. -/
theorem test_epochs : epochFrom 0 0xFFFF = true ∧ epochFrom 0x8000 0 = false ∧ epochFrom 0 0x8000 = false := by decide
/-- R199: END and LOOP L5 of 8,388,608 rounds, from their encodings; a set reserved bit is illegal (R227). -/
theorem test_stream_words :
    decodeWords 0x04000000 0 = some .endI ∧ decodeWords 0x12FFFFFF 0 = some (.loop 5 8388608) ∧ decodeWords 0x04000001 0 = none := by
  decide
/-- R395: GO on a slot that is not FREE counts a STATE and changes nothing else of the slot. -/
theorem test_go_twice :
    (match exec (.cmdGo (host 3) 0x20000034) (wreg 0 (.cmdCtl 3 0) 0x40000034 up) with
     | .next t => cmdState t (host 3) == 1 && rf t 0 (.cmdCnt 3) 1 7 == 1
     | _ => false) = true := by decide +kernel
/-- R91: a frame is 256 cc. -/
theorem test_frame : (match exec .frameStart up with | .next t => t.now == 256 && t.frame == 1 | _ => false) = true := by decide +kernel
/-- R1: a Zarun-2 has no die 2. -/
theorem test_absent_die : exec (.powerOn 2) { up with package := .zarun2 } = .fault .absentDie := rfl

/-! ### ClockRowsTakeEffectAtTheirCycle -/

def met_frameStart : Bool :=
  let s : State := up
  decide (rootStopped s = false)

def met_regWindowEdge : Bool :=
  let s : State := tick 4096 up
  decide (s.now = 256 * s.frame) &&
  decide (s.fabric.window < s.frame / 16)

def met_positionDecision : Bool :=
  let s : State := up
  let d : Die := 0
  let k : BitVec 7 := 6
  let p := positionOf s k.toNat
  decide (s.present d.toNat = true) &&
  decide (rootStopped s = false) &&
  decide (s.now ≤ 2 * p - 4) &&
  decide (2 * p - 4 < frameEnd s) &&
  decide (decidedTo s d.toNat ≤ p)

def met_visitorDecision : Bool :=
  let s : State := up
  let d : Die := 0
  let core : CoreNo := 3
  let k : BitVec 7 := 8
  let p := s.frame * 128 + k.toNat
  decide (s.present d.toNat = true) &&
  decide (rootStopped s = false) &&
  decide (k.toNat % 4 = 0) &&
  decide (s.now ≤ 2 * p) &&
  decide (SMap.get s.fabric.decided (windowKey d.toNat core.toNat) 0 ≤ p)

def met_ringPlanCollect : Bool :=
  let s : State := tick 1280 up
  let d : Die := 1
  decide (s.present d.toNat = true) &&
  decide (rootStopped s = false) &&
  decide (s.now < frameEnd s) &&
  decide (inPlan s d.toNat = true) &&
  decide (s.fabric.plan.dies = [] ∨ s.fabric.plan.frame = s.frame)

def met_ringPlanInForce : Bool :=
  let s : State := tick 1280 (up.onFabric (fun f => { f with plan := { f.plan with granted := some [⟨1, 768, [(3072, 768)], false⟩] } }))
  match (s.fabric.plan.granted : Option (List Planned)) with
  | none => false
  | some _ =>
  decide (s.now = 256 * s.frame) &&
  decide (planFrame s.fabric.plan = none ∨ planFrame s.fabric.plan = some (s.frame + 1))

/-- Every clause of ClockRowsTakeEffectAtTheirCycle has a state and operands that meet all its hypotheses. -/
theorem witness_ClockRowsTakeEffectAtTheirCycle :
    [met_frameStart, met_regWindowEdge, met_positionDecision, met_visitorDecision, met_ringPlanCollect, met_ringPlanInForce].all id = true := by decide +kernel

/-! ### AccessesEnterRunAndAreDelivered -/

def met_carrelSwitchGrant : Bool :=
  let s : State := slots [{ read0 with src := .bank carrel0 none }] up
  let d : Die := 0
  let core : CoreNo := 0
  let port : OwnerPort := .ra
  match (ownerRequest s d.toNat core.toNat port : Option (Slot)) with
  | none => false
  | some x =>
  match (carrelPlace s x : Option (Nat × Nat)) with
  | none => false
  | some b =>
  match (((List.range (frameEnd s - s.now)).map (· + s.now)).find? (ownerFree s b.1 b.2) : Option (Nat)) with
  | none => false
  | some _ =>
  decide (s.present d.toNat = true) &&
  decide (rootStopped s = false) &&
  decide (stillHit s x = true) &&
  decide (earlyRefusal s x = none) &&
  decide (x.dry = false) &&
  decide (dieStopped s d.toNat = false) &&
  decide (outranked s x b.1 = false) &&
  decide (pauseOf s b.1 = none) &&
  decide (levelChanging s d.toNat = false)

def met_plainAccessRequest_1 : Bool :=
  let s : State := up
  let d : Die := 0
  let core : CoreNo := 511
  let target : AccessTarget := .ta 0x1C0
  let len : Nat := 64
  decide (s.present d.toNat = true) &&
  decide (0 < len) &&
  decide ((accessEnd target).addr.toNat % 256 + len ≤ 256) &&
  decide (accessValid s target = true) &&
  decide (coreFenced s d.toNat core.toNat = false)

def met_plainAccessRequest_2 : Bool :=
  let s : State := { up with package := .zarun4 }
  let d : Die := 0
  let target : AccessTarget := .ta 0x1FFFFFFFF
  let len : Nat := 1
  decide (s.present d.toNat = true) &&
  decide (0 < len) &&
  decide ((accessEnd target).addr.toNat % 256 + len ≤ 256) &&
  decide (accessValid s target = false)

def met_plainAccessRequest_3 : Bool :=
  let s : State := wreg 0 (.coreFenced 1) 2 up
  let d : Die := 0
  let core : CoreNo := 33
  let target : AccessTarget := .ta 0
  let len : Nat := 256
  decide (s.present d.toNat = true) &&
  decide (0 < len) &&
  decide ((accessEnd target).addr.toNat % 256 + len ≤ 256) &&
  decide (accessValid s target = true) &&
  decide (coreFenced s d.toNat core.toNat = true)

def met_hostWindowAccess : Bool :=
  let s : State := wreg 0 (.stewTen 7) 5 up
  let d : Die := 0
  let via : HostVia := .steward 7
  let win : Win := 5
  let ta : TA := 0xFF
  let len : Nat := 1
  decide (s.present d.toNat = true) &&
  decide (0 < len) &&
  decide (ta.toNat % 256 + len ≤ 256) &&
  decide (s.present (taDie ta.toNat) = true) &&
  ((match via with | .host => true | .steward i => rf s d.toNat (.stewTen i.toNat) 0 4 == win.toNat))

def met_slotDelivered_1 : Bool :=
  let s : State := slots [{ read0 with stage := .granted, due := 30, status := 0, data := List.replicate 64 7 }] up
  let id : Nat := 1
  match (slotAt s id .granted : Option (Slot)) with
  | none => false
  | some x =>
  let c := max s.now x.due
  match (slotAt (advanceTo s c) id .granted : Option (Slot)) with
  | none => false
  | some y =>
  decide (rootStopped s = false) &&
  decide (c < frameEnd s) &&
  decide (ownDelivery y = false)

def met_slotDelivered_2 : Bool :=
  let s : State := slots [{ read0 with stage := .granted, due := 30, dst := .store 0x00005 0, write := true, cls := .write, data := List.replicate 64 7 }] up
  let id : Nat := 1
  match (slotAt s id .granted : Option (Slot)) with
  | none => false
  | some x =>
  let c := max s.now x.due
  match (slotAt (advanceTo s c) id .granted : Option (Slot)) with
  | none => false
  | some y =>
  match ((match y.dst with | .store h o => some (h, o) | _ => none) : Option (BitVec 20 × BitVec 48)) with
  | none => false
  | some _ =>
  decide (rootStopped s = false) &&
  decide (c < frameEnd s) &&
  decide (stCode y.status = Code.done)

def met_storePortResponse_1 : Bool :=
  let s : State := slots [{ read0 with stage := .storeRead, src := .store 0x00005 0 }] up
  let id : Nat := 1
  match (slotAt s id .storeRead : Option (Slot)) with
  | none => false
  | some _ =>
  true

def met_storePortResponse_2 : Bool :=
  let s : State := slots [{ read0 with stage := .storeWrite, dst := .store 0x00005 0, write := true }] up
  let id : Nat := 1
  match (slotAt s id .storeWrite : Option (Slot)) with
  | none => false
  | some x =>
  decide (slotAt s id .storeRead = none) &&
  decide (x.kind = .plain)

def met_translatorFill : Bool :=
  let s : State := up |> wreg 0 (.catWord 5 0) 0x00C00000 |> wreg 0 (.catWord 5 1) 0xFF800020 |> wreg 0 (.catWord 5 2) 0 |> slots [{ read0 with stage := .translate, src := .store 0x00005 0x100 }]
  let id : Nat := 1
  match (s.fabric.slots.find? (fun x => x.id == id && x.stage == .translate) : Option (Slot)) with
  | none => false
  | some x =>
  match (x.windowEnd : Option (Nat × Nat × Bool)) with
  | none => false
  | some w =>
  let ta := descriptorTa s w.1 (w.2.1 / catPage s (hDie w.1) (hEntry w.1))
  let b := taPkgBank ta
  decide (windowStage s x = .translate) &&
  decide (domUp s (hDie w.1) (bankDomain (pbBank b)) = true) &&
  decide (pauseOf s b = none) &&
  decide (asleep s b = false) &&
  decide (stCode (readBlock (touchBank s b) ta 8 0x7FFF (slotTask s x)).2.status = Code.done)

/-- Every clause of AccessesEnterRunAndAreDelivered has a state and operands that meet all its hypotheses. -/
theorem witness_AccessesEnterRunAndAreDelivered :
    [met_carrelSwitchGrant, met_plainAccessRequest_1, met_plainAccessRequest_2, met_plainAccessRequest_3, met_hostWindowAccess,
     met_slotDelivered_1, met_slotDelivered_2, met_storePortResponse_1, met_storePortResponse_2, met_translatorFill].all id = true := by decide +kernel

/-! ### RegisterWritesStoreOrAreRefused -/

def met_registerWrite_1 : Bool :=
  let s : State := up
  let d : Die := 0
  let writer : RegWriter := .window 0
  let off : Word := 0x30
  decide (s.present d.toNat = true) &&
  decide (writer = .window 0) &&
  decide (isPage off.toNat = false) &&
  decide (Reg.decode s.dies 0 off.toNat = some .pwrTimer)

def met_registerWrite_2 : Bool :=
  let s : State := up
  let d : Die := 0
  let writer : RegWriter := .window 15
  let off : Word := 0x30
  decide (s.present d.toNat = true) &&
  match ((match writer with | .window v => some v | .core _ => none) : Option (Win)) with
  | none => false
  | some w =>
  decide (w ≠ 0) &&
  decide (isPage off.toNat = false) &&
  decide (Reg.decode s.dies w.toNat off.toNat = some .pwrTimer)

def met_registerWrite_3 : Bool :=
  let s : State := up
  let d : Die := 0
  let writer : RegWriter := .core 511
  let off : Word := 0x84
  decide (s.present d.toNat = true) &&
  match ((match writer with | .core v => some v | .window _ => none) : Option (CoreNo)) with
  | none => false
  | some c =>
  match (Reg.decodeHall c.toNat off.toNat : Option (Reg)) with
  | none => false
  | some r =>
  decide (domUp s d.toNat (xbarDomain (c.toNat / 32)) = true) &&
  decide (r = .qopArg c.toNat ∨ r = .qopData c.toNat 0)

def met_registerWrite_4 : Bool :=
  let s : State := up
  let d : Die := 0
  let writer : RegWriter := .window 3
  let off : Word := 0x14FFC
  decide (s.present d.toNat = true) &&
  match ((match writer with | .window v => some v | .core _ => none) : Option (Win)) with
  | none => false
  | some _ =>
  decide (isPage off.toNat = true) &&
  decide (off.toNat < 0x15000)

def met_registerWrite_5 : Bool :=
  let s : State := up
  let d : Die := 0
  let writer : RegWriter := .window 3
  let off : Word := 0x1300
  decide (s.present d.toNat = true) &&
  match ((match writer with | .window v => some v | .core _ => none) : Option (Win)) with
  | none => false
  | some w =>
  decide (isPage off.toNat = false) &&
  decide (Reg.decode s.dies w.toNat off.toNat = none)

def met_registerPairWrite_1 : Bool :=
  let s : State := up
  let d : Die := 0
  let win : Win := 0
  let off : Word := 0x5C
  decide (s.present d.toNat = true) &&
  match (Reg.decode s.dies win.toNat off.toNat : Option (Reg)) with
  | none => false
  | some r =>
  match (Reg.pairOf r : Option (Nat × Bool)) with
  | none => false
  | some p =>
  decide (regUp s d.toNat r = true) &&
  decide (p.2 = false)

def met_registerPairWrite_2 : Bool :=
  let s : State := { up with pairLo := [(pairKey 0 0 0x5C, 0x33333333)] }
  let d : Die := 0
  let win : Win := 0
  let off : Word := 0x60
  decide (s.present d.toNat = true) &&
  decide (win = 0) &&
  decide (Reg.decode s.dies 0 off.toNat = some (.xchkSeed true)) &&
  match (SMap.find s.pairLo (pairKey d.toNat 0 (Reg.xchkSeed false).code) : Option (Word)) with
  | none => false
  | some _ =>
  true

def met_structureConfigWrite_1 : Bool :=
  let s : State := wreg 0 (.bankOwn 352) 0x3000 up
  let d : Die := 0
  let win : Win := 0
  let off : Word := 0x20400
  let val : Word := 0x00830000
  decide (s.present d.toNat = true) &&
  match (Reg.decode s.dies win.toNat off.toNat : Option (Reg)) with
  | none => false
  | some r =>
  decide (isStruct r = true) &&
  decide ((match r with | .pmcgCfg _ => false | _ => true) = true) &&
  decide (regUp s d.toNat r = true) &&
  decide (structStatus s d.toNat win.toNat r val = Code.done)

def met_structureConfigWrite_2 : Bool :=
  let s : State := up
  let d : Die := 0
  let win : Win := 0
  let off : Word := 0x648FC
  let val : Word := 0x00010005
  decide (s.present d.toNat = true) &&
  match (Reg.decode s.dies win.toNat off.toNat : Option (Reg)) with
  | none => false
  | some r =>
  match (groupNo r : Option (Nat)) with
  | none => false
  | some g =>
  decide (isStruct r = true) &&
  decide (256 ≤ g) &&
  decide (regUp s d.toNat r = true) &&
  decide (structStatus s d.toNat win.toNat r val = Code.done)

def met_structureConfigWrite_3 : Bool :=
  let s : State := up
  let d : Die := 0
  let win : Win := 1
  let off : Word := 0x20400
  let val : Word := 0x00010000
  decide (s.present d.toNat = true) &&
  match (Reg.decode s.dies win.toNat off.toNat : Option (Reg)) with
  | none => false
  | some r =>
  decide (isStruct r = true) &&
  decide (regUp s d.toNat r = true) &&
  decide (structStatus s d.toNat win.toNat r val ≠ Code.done)

def met_bankEcntClr : Bool :=
  let s : State := wreg 0 (.bankEcnt 8191) 0x00050003 up
  let d : Die := 0
  let win : Win := 0
  let bank : BitVec 13 := 8191
  decide (s.present d.toNat = true) &&
  decide (win = 0) &&
  decide (domUp s d.toNat (bankDomain bank.toNat) = true)

def met_cmdCntClr : Bool :=
  let s : State := wreg 0 (.cmdCnt 15) 0xFFFFFFFF up
  let d : Die := 0
  decide (s.present d.toNat = true)

/-- Every clause of RegisterWritesStoreOrAreRefused has a state and operands that meet all its hypotheses. -/
theorem witness_RegisterWritesStoreOrAreRefused :
    [met_registerWrite_1, met_registerWrite_2, met_registerWrite_3, met_registerWrite_4, met_registerWrite_5,
     met_registerPairWrite_1, met_registerPairWrite_2, met_structureConfigWrite_1, met_structureConfigWrite_2,
     met_structureConfigWrite_3, met_bankEcntClr, met_cmdCntClr].all id = true := by decide +kernel

/-! ### PairReadsAnswerAndCapture -/

def met_registerPairRead_1 : Bool :=
  let s : State := up
  let d : Die := 0
  let win : Win := 0
  let off : Word := 0x24
  decide (s.present d.toNat = true) &&
  match (Reg.decode s.dies win.toNat off.toNat : Option (Reg)) with
  | none => false
  | some r =>
  match (Reg.pairOf r : Option (Nat × Bool)) with
  | none => false
  | some p =>
  decide (p.2 = false)

def met_registerPairRead_2 : Bool :=
  let s : State := { up with pairHi := [(pairKey 0 0 0x24, 0x77)] }
  let d : Die := 0
  let win : Win := 0
  let off : Word := 0x28
  decide (s.present d.toNat = true) &&
  match (Reg.decode s.dies win.toNat off.toNat : Option (Reg)) with
  | none => false
  | some r =>
  match (Reg.pairOf r : Option (Nat × Bool)) with
  | none => false
  | some p =>
  match (SMap.find s.pairHi (pairKey d.toNat win.toNat p.1) : Option (Word)) with
  | none => false
  | some _ =>
  decide (p.2 = true)

def met_registerPairRead_3 : Bool :=
  let s : State := domSt 0 0 .down up
  let d : Die := 0
  let win : Win := 0
  let off : Word := 0x80000
  decide (s.present d.toNat = true) &&
  match (Reg.decode s.dies win.toNat off.toNat : Option (Reg)) with
  | none => false
  | some r =>
  decide (regUp s d.toNat r = false) &&
  decide (Reg.pairOf r = none) &&
  decide (isPage off.toNat = false)

def met_registerPairRead_4 : Bool :=
  let s : State := up.onReplicas (fun r => { r with unsafeRegs := [(key 0 .remNode, true)] })
  let d : Die := 0
  let win : Win := 0
  let off : Word := 0x40
  decide (s.present d.toNat = true) &&
  match (Reg.decode s.dies win.toNat off.toNat : Option (Reg)) with
  | none => false
  | some r =>
  decide (isUnsafe s d.toNat r = true) &&
  decide (Reg.pairOf r = none) &&
  decide (isPage off.toNat = false)

/-- Every clause of PairReadsAnswerAndCapture has a state and operands that meet all its hypotheses. -/
theorem witness_PairReadsAnswerAndCapture :
    [met_registerPairRead_1, met_registerPairRead_2, met_registerPairRead_3, met_registerPairRead_4].all id = true := by decide +kernel

/-! ### MonitoringRegistersActOnTheirState -/

def met_segmentFreeze_1 : Bool :=
  let s : State := up.onFabric (fun f => { f with tenures := [(orderKey 0 0, ⟨5, 3, 0, false, false⟩), (orderKey 1 1, ⟨6, 3, 0, false, false⟩)] })
  let d : Die := 0
  let win : Win := 0
  let seg : SegId := 0x0000
  decide (s.present d.toNat = true) &&
  decide (segExists s.dies seg.toNat = true) &&
  decide (win = 0)

def met_segmentFreeze_2 : Bool :=
  let s : State := up
  let d : Die := 0
  let win : Win := 2
  let seg : SegId := 0xF000
  decide (s.present d.toNat = true) &&
  decide (segExists s.dies seg.toNat = true) &&
  decide (win ≠ 0)

def met_watchdogFire : Bool :=
  let s : State := tick 66048 (up.onFabric (fun f => { f with tenures := [(orderKey 0 1, ⟨5, 3, 600, false, false⟩)] }))
  let d : Die := 0
  let seg : SegId := 0x0000
  let cls : SlotClass := .write
  match (SMap.find s.fabric.tenures (orderKey (d.toNat * 65536 + seg.toNat) (clsNo cls)) : Option (Tenure)) with
  | none => false
  | some u =>
  let c := max s.now (u.since + 256 * max 1 (rf s d.toNat .wdogCtl 0 16))
  decide (s.present d.toNat = true) &&
  decide (bit (regGet s d.toNat .wdogCtl) 31 = true) &&
  decide (rootStopped s = false) &&
  decide (c < frameEnd s)

def met_squallPop_1 : Bool :=
  let s : State := up.onFabric (fun f => { f with squalls := [(0, [1, 2])] })
  let d : Die := 0
  let win : Win := 0
  let val : Word := 0x80000100
  let m := SMap.get s.fabric.squallNow d.toNat ⟨0, 0, 0, []⟩
  decide (s.present d.toNat = true) &&
  decide (win = 0) &&
  decide (bit val 8 = true) &&
  decide (m.cycle ≠ s.now ∨ m.dropped = [])

def met_squallPop_2 : Bool :=
  let s : State := up.onFabric (fun f => { f with squalls := [(0, [1, 2])], squallNow := [(0, ⟨0, 1, 1, [3]⟩)] })
  let d : Die := 0
  let win : Win := 0
  let val : Word := 0x80000100
  let m := SMap.get s.fabric.squallNow d.toNat ⟨0, 0, 0, []⟩
  decide (s.present d.toNat = true) &&
  decide (win = 0) &&
  decide (bit val 8 = true) &&
  decide (m.cycle = s.now) &&
  decide (m.dropped ≠ [])

def met_squallClrLost : Bool :=
  let s : State := wreg 0 .squallCtl 0x80FF0000 up
  let d : Die := 0
  let win : Win := 0
  let val : Word := 0x200
  decide (s.present d.toNat = true) &&
  decide (win = 0) &&
  decide (bit val 9 = true)

def met_perfSnap_1 : Bool :=
  let s : State := up
  let d : Die := 0
  let win : Win := 0
  let val : Word := 3
  decide (s.present d.toNat = true) &&
  decide (win = 0) &&
  decide (bit val 1 = true)

def met_perfClear : Bool :=
  let s : State := up
  let d : Die := 0
  let win : Win := 0
  let val : Word := 5
  decide (s.present d.toNat = true) &&
  decide (win = 0) &&
  decide (bit val 2 = true)

def met_perfSnap_2 : Bool :=
  let s : State := up
  let d : Die := 0
  let win : Win := 9
  let val : Word := 3
  decide (s.present d.toNat = true) &&
  decide (win ≠ 0) &&
  decide (bit val 1 = true)

def met_counterSnapshot_1 : Bool :=
  let s : State := tick 256 (up.onFabric (fun f => { f with snapWanted := [0], counters := [(key 0 (.dieCounter 0 false), 12)] }))
  let d : Die := 0
  let m := advanceTo s (frameEnd s)
  decide (s.present d.toNat = true) &&
  decide (s.fabric.snapWanted.contains d.toNat = true) &&
  decide (rootStopped s = false) &&
  decide (rises m.fabric.counters = true)

def met_counterSnapshot_2 : Bool :=
  let s : State := tick 256 (up.onFabric (fun f => { f with clearWanted := [0], counters := [(key 0 (.dieCounter 0 false), 12)] }))
  let d : Die := 0
  decide (s.present d.toNat = true) &&
  decide (s.fabric.clearWanted.contains d.toNat = true) &&
  decide (rootStopped s = false)

def met_evlogPop_1 : Bool :=
  let s : State := up.onSup (fun u => { u with events := [(0, [ev 1 2 3, ev 4 5 6])] })
  let d : Die := 0
  let win : Win := 0
  let m := SMap.get s.sup.eventNow d.toNat ⟨0, 0, []⟩
  decide (s.present d.toNat = true) &&
  decide (win = 0) &&
  decide (m.cycle ≠ s.now ∨ m.dropped = [] ∨ (eventsOf s d.toNat).length ≠ 512)

def met_evlogPop_2 : Bool :=
  let s : State := up.onSup (fun u => { u with events := [(0, List.replicate 512 (ev 1 2 3))], eventNow := [(0, ⟨0, 1, [ev 4 5 6]⟩)] })
  let d : Die := 0
  let win : Win := 0
  let m := SMap.get s.sup.eventNow d.toNat ⟨0, 0, []⟩
  decide (s.present d.toNat = true) &&
  decide (win = 0) &&
  decide (m.cycle = s.now) &&
  decide (m.dropped ≠ []) &&
  decide ((eventsOf s d.toNat).length = 512)

def met_evlogPop_3 : Bool :=
  let s : State := up.onSup (fun u => { u with events := [(0, [ev 1 2 3])] })
  let d : Die := 0
  let win : Win := 1
  decide (s.present d.toNat = true) &&
  decide (win ≠ 0)

def met_evlogClrLost : Bool :=
  let s : State := wreg 0 .evlogCtl 0xFF000000 up
  let d : Die := 0
  let win : Win := 0
  decide (s.present d.toNat = true) &&
  decide (win = 0)

/-- Every clause of MonitoringRegistersActOnTheirState has a state and operands that meet all its hypotheses. -/
theorem witness_MonitoringRegistersActOnTheirState :
    [met_segmentFreeze_1, met_segmentFreeze_2, met_watchdogFire, met_squallPop_1, met_squallPop_2, met_squallClrLost,
     met_perfSnap_1, met_perfClear, met_perfSnap_2, met_counterSnapshot_1, met_counterSnapshot_2, met_evlogPop_1,
     met_evlogPop_2, met_evlogPop_3, met_evlogClrLost].all id = true := by decide +kernel

/-! ### BankOwnershipChangesHands -/

def met_bankOwnWrite_1 : Bool :=
  let s : State := up
  let d : Die := 0
  let win : Win := 0
  let bank : BitVec 13 := 8191
  let val : Word := 0x00005840
  let b := d.toNat * 8192 + bank.toNat
  decide (s.present d.toNat = true) &&
  decide (domUp s d.toNat (bankDomain bank.toNat) = true) &&
  decide (ownStatus s b win.toNat val = Code.done) &&
  decide (ownTen val ≠ ownTen (regSeen s d.toNat (.bankOwn bank.toNat))) &&
  decide (pauseOf s b = none) &&
  decide (asleep s b = false)

def met_bankOwnWrite_2 : Bool :=
  let s : State := up
  let d : Die := 0
  let win : Win := 0
  let bank : BitVec 13 := 0
  let val : Word := 0x00400840
  let b := d.toNat * 8192 + bank.toNat
  decide (s.present d.toNat = true) &&
  decide (domUp s d.toNat (bankDomain bank.toNat) = true) &&
  decide (ownStatus s b win.toNat val = Code.done) &&
  decide (ownTen val = ownTen (regSeen s d.toNat (.bankOwn bank.toNat))) &&
  decide (isUnsafe s d.toNat (.bankOwn bank.toNat) = false) &&
  decide (pauseOf s b = none)

def met_bankOwnWrite_3 : Bool :=
  let s : State := up
  let d : Die := 0
  let win : Win := 3
  let bank : BitVec 13 := 0
  let val : Word := 0x00003840
  let b := d.toNat * 8192 + bank.toNat
  decide (s.present d.toNat = true) &&
  decide (domUp s d.toNat (bankDomain bank.toNat) = true) &&
  decide (ownStatus s b win.toNat val ≠ Code.done)

def met_handoverTagsInForce : Bool :=
  let s : State := { (pause 65535 .handover 5 up) with power := { up.power with doms := [] } }
  let bank : BankNo := 65535
  match (pauseOf s bank.toNat : Option (PauseRec)) with
  | none => false
  | some p =>
  decide (s.present (pbDie bank.toNat) = true) &&
  let c := max s.now (p.start + 9)
  decide (p.kind = .handover) &&
  decide (dieStopped s (pbDie bank.toNat) = false) &&
  decide (within s c = true)

/-- Every clause of BankOwnershipChangesHands has a state and operands that meet all its hypotheses. -/
theorem witness_BankOwnershipChangesHands :
    [met_bankOwnWrite_1, met_bankOwnWrite_2, met_bankOwnWrite_3, met_handoverTagsInForce].all id = true := by decide +kernel

/-! ### WeedingEmptiesItsBank -/

def met_weedPhase1End : Bool :=
  let s : State := (pause 3 (.phase1 0x1840 false (.weed none)) 5 up).onBanks (fun b => { b with valid := [(3 * 2048, true)] })
  let bank : BankNo := 3
  match (pauseOf s bank.toNat : Option (PauseRec)) with
  | none => false
  | some p =>
  match ((match p.kind with | .phase1 own _ cause => some (own, cause) | _ => none) : Option (Word × WeedCause)) with
  | none => false
  | some _ =>
  decide (s.present (pbDie bank.toNat) = true) &&
  decide (dieStopped s (pbDie bank.toNat) = false) &&
  decide (within s (max s.now (p.start + 25)) = true)

def met_weedZeroRow : Bool :=
  let s : State := (up.onBanks (fun b => { b with zeroing := [(3, 2047)] }))
  let bank : BankNo := 3
  match (SMap.find s.banks.zeroing bank.toNat : Option (Nat)) with
  | none => false
  | some _ =>
  match (nextCycle s bank.toNat 1 s.now 3 : Option (Nat)) with
  | none => false
  | some _ =>
  decide (s.present (pbDie bank.toNat) = true)

def met_weedBank_1 : Bool :=
  let s : State := given' (host 0) 0x42 [0] up
  let src : CmdSrc := host 0
  match (cmdBank s src : Option (Nat)) with
  | none => false
  | some b =>
  decide (given s src 0x42 = true) &&
  decide (cmdTen s src = ownTen (ownOf s b)) &&
  decide (bankCovered s b = false) &&
  decide (inCacheMode s b = false) &&
  decide (retired s b = false) &&
  decide (domUp s (pbDie b) (bankDomain (pbBank b)) = true) &&
  decide (pauseOf s b = none) &&
  decide (asleep s b = false)

def met_weedBank_2 : Bool :=
  let s : State := up |> wreg 0 (.tenStat 5) 0x40000000 |> given' (host 5) 0x42 [0x800]
  let src : CmdSrc := host 5
  match (cmdBank s src : Option (Nat)) with
  | none => false
  | some b =>
  decide (given s src 0x42 = true) &&
  decide (cmdTen s src ≠ ownTen (ownOf s b))

def met_weedAll_1 : Bool :=
  let s : State := given' (host 0) 0x41 [] { up with power := { up.power with doms := [(0, upDom)] } }
  let src : CmdSrc := host 0
  decide (given s src 0x41 = true) &&
  decide (src.win = some 0)

def met_weedAll_2 : Bool :=
  let s : State := given' (host 1) 0x41 [] (wreg 0 (.tenStat 1) 0x40000000 up)
  let src : CmdSrc := host 1
  decide (given s src 0x41 = true) &&
  decide (src.win ≠ some 0)

/-- Every clause of WeedingEmptiesItsBank has a state and operands that meet all its hypotheses. -/
theorem witness_WeedingEmptiesItsBank :
    [met_weedPhase1End, met_weedZeroRow, met_weedBank_1, met_weedBank_2, met_weedAll_1, met_weedAll_2].all id = true := by decide +kernel

/-! ### CatalogueEntriesComeAndGo -/

def met_catAlloc_1 : Bool :=
  let s : State := given' (host 0) 0x20 [0x00280000, 0, 1, 0x840] (wreg 0 (.catRange 0) 0x0001000F up)
  let src : CmdSrc := host 0
  decide (given s src 0x20 = true) &&
  decide (passes (allocChecks s src (allocReq s src)) = true)

def met_catAlloc_2 : Bool :=
  let s : State := given' (host 0) 0x20 [0xFFFFFFFF, 0xFFFFFFFF, 0xFFFFFFFF, 0xFFFFFFFF] up
  let src : CmdSrc := host 0
  match ((allocChecks s src (allocReq s src)).find? (·.1) : Option (Bool × Nat)) with
  | none => false
  | some _ =>
  decide (given s src 0x20 = true)

def met_folioClassClear : Bool :=
  let s : State := (up.onBanks (fun b => { b with folioClears := [⟨33, .folio 2, host 0⟩], valid := [(33 * 64, true)] }))
  let folio : FolioNo := 33
  let b := foBank folio.toNat
  match (s.banks.folioClears.find? (fun c => c.folio == folio.toNat) : Option (FolioChange)) with
  | none => false
  | some _ =>
  match (nextFree s b 1 : Option (Nat)) with
  | none => false
  | some _ =>
  decide (s.present (pbDie b) = true) &&
  decide (asleep s b = false)

def met_catEntryInForce : Bool :=
  let s : State := (going (host 0) 0x20 [0, 0, 0, 0x840] (wreg 0 (.catRange 0) 0x0001000F up)).onSup (fun u => { u with allocs := [⟨host 0, 15, false⟩] })
  let src : CmdSrc := host 0
  match (s.sup.allocs.find? (fun a => a.src == src) : Option (AllocHold)) with
  | none => false
  | some _ =>
  decide (ongoing s src 0x20 = true) &&
  decide (s.banks.folioClears.any (fun c => c.src == src) = false) &&
  decide ((bankList (allocReq s src).folios).any (inPhase1 s) = false) &&
  decide (domUp s src.die 47 = true) &&
  decide (classChanges s (allocReq s src) = [])

def met_catFree_1 : Bool :=
  let s : State := up |> wreg 0 (.catWord 5 0) 0xF0800000 |> given' (host 0) 0x21 [0xF0005]
  let src : CmdSrc := host 0
  let h := cmdArgF s src 0 0 20
  decide (given s src 0x21 = true) &&
  decide (passes (handleChecks s src h ++ [(!mayEntry s src (hDie h) (hEntry h), Code.denied), (catHeld s (hDie h) (hEntry h), Code.state)]) = true)

def met_catFree_2 : Bool :=
  let s : State := given' (host 0) 0x21 [0xF0005] up
  let src : CmdSrc := host 0
  let h := cmdArgF s src 0 0 20
  match ((handleChecks s src h ++ [(!mayEntry s src (hDie h) (hEntry h), Code.denied), (catHeld s (hDie h) (hEntry h), Code.state)]).find? (·.1) : Option (Bool × Nat)) with
  | none => false
  | some _ =>
  decide (given s src 0x21 = true)

def met_catUpdate : Bool :=
  let s : State := up |> wreg 0 (.catWord 5 0) 0x00800000 |> given' (host 0) 0x22 [5, 0x0064FF83]
  let src : CmdSrc := host 0
  let h := cmdArgF s src 0 0 20
  let a := cmdArg s src 1
  decide (given s src 0x22 = true) &&
  decide (passes ([(bit a 1 && 0x140 ≤ field a 7 9 && field a 7 9 != 0x1FF, Code.badArg)] ++ handleChecks s src h ++ [(!mayEntry s src (hDie h) (hEntry h), Code.denied), (bit a 0 && field a 16 16 != catEpoch s (hDie h) (hEntry h) && catHeld s (hDie h) (hEntry h), Code.state)]) = true)

def met_winSync : Bool :=
  let s : State := up |> wreg 0 (.catWord 5 0) 0x00C00000 |> given' (host 0) 0x23 [5]
  let src : CmdSrc := host 0
  let h := cmdArgF s src 0 0 20
  decide (given s src 0x23 = true) &&
  decide (passes (handleChecks s src h) = true) &&
  decide (src.win.isSome = true) &&
  decide (cmdTen s src = catTen s (hDie h) (hEntry h)) &&
  decide (catIsWindow s (hDie h) (hEntry h) = true)

def met_winSyncDone : Bool :=
  let s : State := (going (host 0) 0x23 [5] up).onRemote (fun r => { r with syncs := [⟨host 0, 0, 5⟩], translator := [⟨0, 5, 0, 9⟩] })
  let src : CmdSrc := host 0
  match (s.remote.syncs.find? (fun y => y.src == src) : Option (SyncRec)) with
  | none => false
  | some _ =>
  decide (s.present src.die = true) &&
  decide (cmdState s src = 2)

/-- Every clause of CatalogueEntriesComeAndGo has a state and operands that meet all its hypotheses. -/
theorem witness_CatalogueEntriesComeAndGo :
    [met_catAlloc_1, met_catAlloc_2, met_folioClassClear, met_catEntryInForce, met_catFree_1, met_catFree_2, met_catUpdate,
     met_winSync, met_winSyncDone].all id = true := by decide +kernel

/-! ### CarrelCacheModeIsEnteredAndLeft -/

def met_carrelCacheEnter_1 : Bool :=
  let s : State := wreg 0 (.bankOwn (pbBank (cacheBank 0 511))) 0x000801FF up
  let d : Die := 0
  let core : CoreNo := 511
  let writer : CarrelWriter := .core 511
  let val : Word := 0x10000
  let b := cacheBank d.toNat core.toNat
  let own := regGet s d.toNat (.bankOwn (pbBank b))
  decide (s.present d.toNat = true) &&
  decide (bit val 16 = true) &&
  decide (regUp s d.toNat (.carrelCtl core.toNat) = true) &&
  decide (carrelWriterOk s d.toNat core.toNat writer = true) &&
  decide (carrelState s d.toNat core.toNat = 0) &&
  decide (rf s d.toNat (.carrelCtl core.toNat) 16 1 = 0) &&
  decide (field own 19 3 = 1) &&
  decide (field own 16 3 = d.toNat) &&
  decide (field own 0 12 = core.toNat) &&
  decide (bankCovered s b = false) &&
  decide (coreFenced s d.toNat core.toNat = false) &&
  decide (retired s b = false) &&
  decide (pauseOf s b = none) &&
  decide (asleep s b = false)

def met_carrelCacheEnter_2 : Bool :=
  let s : State := up
  let d : Die := 0
  let core : CoreNo := 5
  let writer : CarrelWriter := .core 6
  let val : Word := 0x10000
  decide (s.present d.toNat = true) &&
  decide (bit val 16 = true) &&
  decide (regUp s d.toNat (.carrelCtl core.toNat) = true) &&
  decide (carrelWriterOk s d.toNat core.toNat writer = false)

def met_carrelCacheExit : Bool :=
  let s : State := wreg 0 (.carrelCtl 5) 0x50000 up
  let d : Die := 0
  let core : CoreNo := 5
  let writer : CarrelWriter := .core 5
  let val : Word := 0
  decide (s.present d.toNat = true) &&
  decide (bit val 16 = false) &&
  decide (regUp s d.toNat (.carrelCtl core.toNat) = true) &&
  decide (carrelWriterOk s d.toNat core.toNat writer = true) &&
  decide (carrelState s d.toNat core.toNat = 1) &&
  decide (rf s d.toNat (.carrelCtl core.toNat) 16 1 = 1)

def met_carrelClearEnd : Bool :=
  let s : State := pause (cacheBank 0 5) (.cacheClear true) 7 up
  let d : Die := 0
  let core : CoreNo := 5
  let b := cacheBank d.toNat core.toNat
  match (pauseOf s b : Option (PauseRec)) with
  | none => false
  | some p =>
  match ((match p.kind with | .cacheClear v => some v | _ => none) : Option (Bool)) with
  | none => false
  | some _ =>
  decide (s.present d.toNat = true) &&
  decide (dieStopped s d.toNat = false) &&
  decide (within s (max s.now (p.start + 16)) = true)

/-- Every clause of CarrelCacheModeIsEnteredAndLeft has a state and operands that meet all its hypotheses. -/
theorem witness_CarrelCacheModeIsEnteredAndLeft :
    [met_carrelCacheEnter_1, met_carrelCacheEnter_2, met_carrelCacheExit, met_carrelClearEnd].all id = true := by decide +kernel

/-! ### BankStatesFollowTimersAndPins -/

def met_bankWakeEnd : Bool :=
  let s : State := pause 5 (.wake true) 7 up
  let bank : BankNo := 5
  match (pauseOf s bank.toNat : Option (PauseRec)) with
  | none => false
  | some p =>
  match ((match p.kind with | .wake v => some v | _ => none) : Option (Bool)) with
  | none => false
  | some _ =>
  decide (s.present (pbDie bank.toNat) = true) &&
  decide (dieStopped s (pbDie bank.toNat) = false) &&
  decide (within s (max s.now (p.start + 64)) = true)

def met_bankPwrWrite_1 : Bool :=
  let s : State := wreg 0 (.bankPwr 5) 0x30000 up
  let d : Die := 0
  let win : Win := 0
  let bank : BitVec 13 := 5
  let b := d.toNat * 8192 + bank.toNat
  decide (s.present d.toNat = true) &&
  decide (domUp s d.toNat (bankDomain bank.toNat) = true) &&
  decide (win.toNat = ownTen (regSeen s d.toNat (.bankOwn bank.toNat))) &&
  decide (retired s b = false)

def met_bankPwrWrite_2 : Bool :=
  let s : State := up
  let d : Die := 0
  let win : Win := 1
  let bank : BitVec 13 := 5
  decide (s.present d.toNat = true) &&
  decide (domUp s d.toNat (bankDomain bank.toNat) = true) &&
  decide (win.toNat ≠ ownTen (regSeen s d.toNat (.bankOwn bank.toNat)))

def met_bankClockGate : Bool :=
  let s : State := tick 4096 up
  let bank : BankNo := 5
  let g := rf s (pbDie bank.toNat) .pwrTimer 0 16
  let c := tickFrom (max s.now (idleFrom s bank.toNat + 16 * g))
  decide (s.present (pbDie bank.toNat) = true) &&
  decide (domUp s (pbDie bank.toNat) (bankDomain (pbBank bank.toNat)) = true) &&
  decide (retired s bank.toNat = false) &&
  decide (bankPower s bank.toNat = 0) &&
  decide (g ≠ 0) &&
  decide (bankIdle s bank.toNat = true) &&
  decide (dieStopped s (pbDie bank.toNat) = false) &&
  decide (within s c = true)

def met_bankSleep : Bool :=
  let s : State := tick 262144 up
  let bank : BankNo := 5
  let g := rf s (pbDie bank.toNat) .pwrTimer 16 8
  let c := tickFrom (max s.now (idleFrom s bank.toNat + 4096 * g))
  decide (s.present (pbDie bank.toNat) = true) &&
  decide (domUp s (pbDie bank.toNat) (bankDomain (pbBank bank.toNat)) = true) &&
  decide (retired s bank.toNat = false) &&
  decide (asleep s bank.toNat = false) &&
  decide (g ≠ 0) &&
  decide (bankIdle s bank.toNat = true) &&
  decide (keptAwake s bank.toNat = false) &&
  decide (dieStopped s (pbDie bank.toNat) = false) &&
  decide (within s c = true)

def met_retBankEnterOff : Bool :=
  let s : State := wreg 0 (.bankPwr 5) 0x20000 up
  let bank : BankNo := 5
  decide (s.present (pbDie bank.toNat) = true) &&
  decide (domUp s (pbDie bank.toNat) (bankDomain (pbBank bank.toNat)) = true) &&
  decide (bankPower s bank.toNat = 2) &&
  decide (rf s (pbDie bank.toNat) (.bankPwr (pbBank bank.toNat)) 0 1 = 0) &&
  decide (pauseOf s bank.toNat = none) &&
  decide (dieStopped s (pbDie bank.toNat) = false) &&
  decide (within s (tickFrom (s.now + 1)) = true)

/-- Every clause of BankStatesFollowTimersAndPins has a state and operands that meet all its hypotheses. -/
theorem witness_BankStatesFollowTimersAndPins :
    [met_bankWakeEnd, met_bankPwrWrite_1, met_bankPwrWrite_2, met_bankClockGate, met_bankSleep, met_retBankEnterOff].all id = true := by decide +kernel

/-! ### MergeEntriesAreFlushed -/

def met_mergeEntryDue : Bool :=
  let s : State := up.onBanks (fun b => { b with merge := [⟨7, 5, List.replicate 64 1, List.replicate 64 true, 3, false, [], false⟩] })
  let entry : Nat := 7
  match (mergeEntry s entry : Option (MergeEntry)) with
  | none => false
  | some e =>
  decide (e.due = false) &&
  decide (within s (max s.now (e.born + mergeHold s e.place.1 e.place.2)) = true)

def met_mergeFlush : Bool :=
  let s : State := up.onBanks (fun b => { b with merge := [⟨7, 5, List.replicate 64 1, List.replicate 64 true, 3, true, [], false⟩], classMap := [(0, .word)] })
  let entry : Nat := 7
  match (mergeEntry s entry : Option (MergeEntry)) with
  | none => false
  | some e =>
  match (nextFree s (lnBank e.line) 2 : Option (Nat)) with
  | none => false
  | some c =>
  decide ((s.banks.merge.find? (flushWaits s (lnBank e.line) s.now)).map (·.id) = some entry) &&
  decide ((mergeEntry (advanceTo s c) entry).isSome = true)

def met_mergeFlushAll : Bool :=
  let s : State := up.onBanks (fun b => { b with merge := [⟨7, 15 * 2 ^ 20, List.replicate 64 1, List.replicate 64 true, 3, false, [], false⟩] })
  let d : Die := 0
  let win : Win := 0
  let cluster : Cluster := 15
  let val : Word := 0xFFF1
  decide (s.present d.toNat = true) &&
  decide (win = 0) &&
  decide (bit val 0 = true) &&
  decide (domUp s d.toNat (xbarDomain cluster.toNat) = true)

/-- Every clause of MergeEntriesAreFlushed has a state and operands that meet all its hypotheses. -/
theorem witness_MergeEntriesAreFlushed :
    [met_mergeEntryDue, met_mergeFlush, met_mergeFlushAll].all id = true := by decide +kernel

/-! ### FolioCodecReadsAndSeals -/

def met_collationRead : Bool :=
  let s : State := up.onBanks (fun b => { b with collations := [⟨1, .reading 63, [], 0, 0, 0, 0xFFFF⟩], classMap := [(1, .folio 0)] })
  let folio : FolioNo := 1
  let b := foBank folio.toNat
  match (collationOf s folio.toNat : Option (Collation)) with
  | none => false
  | some e =>
  match ((match e.st with | .reading n => some n | _ => none) : Option (Nat)) with
  | none => false
  | some n =>
  match (nextCycle s b 1 s.now 2 : Option (Nat)) with
  | none => false
  | some _ =>
  decide (s.present (pbDie b) = true) &&
  decide (n < 64) &&
  decide (codecUp s b = true)

def met_collationEntryDrop : Bool :=
  let s : State := tick 4096 (up.onBanks (fun b => { b with collations := [⟨1, .ready [], [], 4, 9, 0, 0xFFFF⟩], classMap := [(1, .folio 0)] }))
  let folio : FolioNo := 1
  match (collationOf s folio.toNat : Option (Collation)) with
  | none => false
  | some e =>
  decide (s.present (pbDie (foBank folio.toNat)) = true) &&
  decide (folioNamed s folio.toNat = false) &&
  decide (within s (max s.now (e.used + 4096)) = true)

def met_sealParityWrite : Bool :=
  let s : State := up.onBanks (fun b => { b with seals := [⟨5, 1, 16, [], some 5⟩], classMap := [(1, .folio 0)], sealMap := [(1, .sealing)] })
  let folio : FolioNo := 1
  let b := foBank folio.toNat
  match (sealCtxOf s folio.toNat : Option (SealCtx)) with
  | none => false
  | some x =>
  match (x.parity : Option (Nat)) with
  | none => false
  | some _ =>
  match (nextCycle s b 1 (sealHeldTo s folio.toNat) 1 : Option (Nat)) with
  | none => false
  | some _ =>
  decide (s.present (pbDie b) = true) &&
  decide (codecUp s b = true)

/-- Every clause of FolioCodecReadsAndSeals has a state and operands that meet all its hypotheses; for collationDone see below. -/
theorem witness_FolioCodecReadsAndSeals :
    [met_collationRead, met_collationEntryDrop, met_sealParityWrite].all id = true := by decide +kernel

/-! ### RemapAndRawModeReachTheirRow -/

def met_bankRemapWrite_1 : Bool :=
  let s : State := up
  let d : Die := 0
  let win : Win := 0
  let bank : BitVec 13 := 5
  let n : BitVec 2 := 3
  let val : Word := 0x800007FF
  let b := d.toNat * 8192 + bank.toNat
  decide (s.present d.toNat = true) &&
  decide (remapStatus s b win.toNat n.toNat val = Code.done)

def met_bankRemapWrite_2 : Bool :=
  let s : State := up
  let d : Die := 0
  let win : Win := 1
  let bank : BitVec 13 := 5
  let n : BitVec 2 := 3
  let val : Word := 0x800007FF
  let b := d.toNat * 8192 + bank.toNat
  decide (s.present d.toNat = true) &&
  decide (remapStatus s b win.toNat n.toNat val ≠ Code.done)

def met_remapCopy : Bool :=
  let s : State := up.onBanks (fun b => { b with remapCopies := [(23, 2047)], mem := [(rowAddr 5 2047, 9)] })
  let bank : BankNo := 5
  let n : BitVec 2 := 3
  match (SMap.find s.banks.remapCopies (bank.toNat * 4 + n.toNat) : Option (Nat)) with
  | none => false
  | some _ =>
  match (nextFree s bank.toNat 2 : Option (Nat)) with
  | none => false
  | some _ =>
  decide (s.present (pbDie bank.toNat) = true) &&
  decide (asleep s bank.toNat = false)

def met_rawRead_1 : Bool :=
  let s : State := wreg 0 .rawTa 0x801 up
  let d : Die := 0
  let win : Win := 0
  decide (s.present d.toNat = true) &&
  decide (rawStatus s d.toNat win.toNat (rawLine s d.toNat) .read = Code.done)

def met_rawRead_2 : Bool :=
  let s : State := up
  let d : Die := 0
  let win : Win := 7
  decide (s.present d.toNat = true) &&
  decide (rawStatus s d.toNat win.toNat (rawLine s d.toNat) .read ≠ Code.done)

def met_rawWrite : Bool :=
  let s : State := wreg 0 .rawTa 0x801 up
  let d : Die := 0
  let win : Win := 0
  decide (s.present d.toNat = true) &&
  decide (rawStatus s d.toNat win.toNat (rawLine s d.toNat) .write = Code.done)

def met_rawSealmark : Bool :=
  let s : State := (wreg 0 .rawTa 64 up).onBanks (fun b => { b with classMap := [(1, .folio 0)] })
  let d : Die := 0
  let win : Win := 0
  decide (s.present d.toNat = true) &&
  decide (rawStatus s d.toNat win.toNat (rawLine s d.toNat) .sealMark = Code.done)

def met_rawOpExecute : Bool :=
  let s : State := up.onBanks (fun b => { b with rawOps := [(0, [⟨.write, 64, List.replicate 72 0x5A⟩])] })
  let d : Die := 0
  match (((SMap.find s.banks.rawOps d.toNat).getD []).head? : Option (RawReq)) with
  | none => false
  | some q =>
  let b := lnBank q.line
  match (nextFree s b 1 : Option (Nat)) with
  | none => false
  | some _ =>
  decide (s.present d.toNat = true) &&
  decide (rawStatus s d.toNat 0 q.line q.op = Code.done) &&
  decide (asleep s b = false)

/-- Every clause of RemapAndRawModeReachTheirRow has a state and operands that meet all its hypotheses. -/
theorem witness_RemapAndRawModeReachTheirRow :
    [met_bankRemapWrite_1, met_bankRemapWrite_2, met_remapCopy, met_rawRead_1, met_rawRead_2, met_rawWrite, met_rawSealmark,
     met_rawOpExecute].all id = true := by decide +kernel

/-! ### SignalTokensReachTheirPlace -/

def met_pointTokenReceive_1 : Bool :=
  let s : State := (runs [0x04000000]).onStreams (fun t => { t with tokens := [⟨1, .point 9 5 6, 0, 0, none, []⟩] })
  let token : Nat := 1
  match (tokenOf s token : Option (Token)) with
  | none => false
  | some k =>
  match ((match k.kind with | .point p target sender => some (p, target, sender) | _ => none) : Option (BitVec 12 × CtxId × CtxId)) with
  | none => false
  | some q =>
  let x := ctxOf s q.2.1
  decide (ringShut s (ctxDie q.2.2) (ctxDie q.2.1) = false) &&
  decide (domUp s (ctxDie q.2.1) (xbarDomain (ctxCluster q.2.1)) = true) &&
  decide (ctxTen s q.2.1 = ctxTen s q.2.2) &&
  decide (x.st ≠ .idle)

def met_pointTokenReceive_2 : Bool :=
  let s : State := (wreg 0 (.ctxRange 0 0) 0x00060000 (runs [0x04000000])).onStreams (fun t => { t with tokens := [⟨1, .point 9 5 6, 0, 0, none, []⟩] })
  let token : Nat := 1
  match (tokenOf s token : Option (Token)) with
  | none => false
  | some k =>
  match ((match k.kind with | .point p target sender => some (p, target, sender) | _ => none) : Option (BitVec 12 × CtxId × CtxId)) with
  | none => false
  | some q =>
  decide (ringShut s (ctxDie q.2.2) (ctxDie q.2.1) = false) &&
  decide (domUp s (ctxDie q.2.1) (xbarDomain (ctxCluster q.2.1)) = true) &&
  decide (ctxTen s q.2.1 ≠ ctxTen s q.2.2)

def met_pointAnswerReceive : Bool :=
  let s : State := (one { running [0x74000009, 6] with opFlight := true, onSeq := false }).onStreams (fun t => { t with tokens := [⟨1, .answer 5 0, 0, 0, none, []⟩] })
  let token : Nat := 1
  match (tokenOf s token : Option (Token)) with
  | none => false
  | some k =>
  match ((match k.kind with | .answer sender code => some (sender, code) | _ => none) : Option (CtxId × BitVec 8)) with
  | none => false
  | some q =>
  let x := ctxOf s q.1
  decide (x.opFlight = true) &&
  decide ((match currentInstr x with | some (.signal _ _ _) => true | _ => false) = true) &&
  decide (q.2 = 0) &&
  decide (x.stop = .no)

def met_barrierArriveReceive_1 : Bool :=
  let s : State := (wreg 0 (.barrierCfg 4095) 0x90300002 up).onStreams (fun t => { t with tokens := [⟨1, .arrive 4095 1 0 false, 0, 0, none, []⟩], barrierCount := [(4095, 1)] })
  let token : Nat := 1
  match (tokenOf s token : Option (Token)) with
  | none => false
  | some k =>
  match ((match k.kind with | .arrive b n o false => some (b, n, o) | _ => none) : Option (BitVec 12 × Nat × Die)) with
  | none => false
  | some q =>
  let cfg := barrierCfg s k.die.toNat q.1.toNat
  decide (ringShut s q.2.2.toNat k.die.toNat = false) &&
  decide (bit cfg 31 = true)

def met_barrierArriveReceive_2 : Bool :=
  let s : State := (wreg 0 (.barrierCfg 4095) 0x80300002 up).onStreams (fun t => { t with tokens := [⟨1, .arrive 4095 1 1 true, 0, 0, none, []⟩], barrierRoot := [(4095, 1)] })
  let token : Nat := 1
  match (tokenOf s token : Option (Token)) with
  | none => false
  | some k =>
  match ((match k.kind with | .arrive b _ o true => some (b, o) | _ => none) : Option (BitVec 12 × Die)) with
  | none => false
  | some q =>
  let cfg := barrierCfg s k.die.toNat q.1.toNat
  decide (ringShut s q.2.toNat k.die.toNat = false) &&
  decide (bit cfg 31 = true)

def met_barrierReleaseReceive : Bool :=
  let s : State := (one { running [] with bl := 1, bn := 9 }).onStreams (fun t => { t with tokens := [⟨1, .release 9, 0, 0, none, []⟩] })
  let token : Nat := 1
  match (tokenOf s token : Option (Token)) with
  | none => false
  | some k =>
  match ((match k.kind with | .release b => some b | _ => none) : Option (BitVec 12)) with
  | none => false
  | some _ =>
  true

/-- Every clause of SignalTokensReachTheirPlace has a state and operands that meet all its hypotheses. -/
theorem witness_SignalTokensReachTheirPlace :
    [met_pointTokenReceive_1, met_pointTokenReceive_2, met_pointAnswerReceive, met_barrierArriveReceive_1,
     met_barrierArriveReceive_2, met_barrierReleaseReceive].all id = true := by decide +kernel

/-! ### StreamCommandsRuleContexts -/

def met_arm : Bool :=
  let s : State := stream 0x10 [1] up
  let src : CmdSrc := host 0
  let c := cmdCtx s src
  decide (given s src 0x10 = true) &&
  decide (passes (streamChecks s src c (taDie (armTa s src) != ctxDie c) (!armFree (ctxOf s c))) = true)

def met_armLoadDone_1 : Bool :=
  let s : State := command .inProgress (host 0) 0x10 [5, 1] (one { Ctx.idle with loading := some (loaded false 0) })
  let ctx : CtxId := 5
  match (loadOver s ctx false : Option (Loading)) with
  | none => false
  | some l =>
  decide (s.present (ctxDie ctx) = true) &&
  decide (stCode l.status = Code.done) &&
  decide (cmdState s l.src = 2)

def met_armLoadDone_2 : Bool :=
  let s : State := command .inProgress (host 0) 0x10 [5, 1] (one { Ctx.idle with loading := some (loaded false 0xB) })
  let ctx : CtxId := 5
  match (loadOver s ctx false : Option (Loading)) with
  | none => false
  | some l =>
  decide (s.present (ctxDie ctx) = true) &&
  decide (stCode l.status ≠ Code.done) &&
  decide (cmdState s l.src = 2)

def met_rearm : Bool :=
  let s : State := stream 0x11 [1] (runs [0x04000000])
  let src : CmdSrc := host 0
  let c := cmdCtx s src
  decide (given s src 0x11 = true) &&
  decide (passes (streamChecks s src c (taDie (armTa s src) != ctxDie c) (!armLive (ctxOf s c) || ctxAborting s c)) = true) &&
  decide ((ctxOf s c).shadow = none)

def met_rearmLoadDone : Bool :=
  let s : State := command .inProgress (host 0) 0x11 [5, 1] (one { running [] with loading := some (loaded true 0) })
  let ctx : CtxId := 5
  match (loadOver s ctx true : Option (Loading)) with
  | none => false
  | some l =>
  decide (s.present (ctxDie ctx) = true) &&
  decide (stCode l.status = Code.done) &&
  decide (cmdState s l.src = 2) &&
  decide (armLive (ctxOf s ctx) = true) &&
  decide (abortsOrAborted (ctxOf s ctx) = false)

def met_halt_1 : Bool :=
  let s : State := stream 0x12 [] (runs [0x04000000])
  let src : CmdSrc := host 0
  let c := cmdCtx s src
  let x := ctxOf s c
  decide (given s src 0x12 = true) &&
  decide (passes (streamChecks s src c false false) = true) &&
  decide (x.st = .armed ∨ x.st = .running) &&
  decide (x.stop = .no)

def met_halt_2 : Bool :=
  let s : State := stream 0x12 [] (one { running [0x64800000] with st := .halted, hcause := 7, onSeq := false })
  let src : CmdSrc := host 0
  let c := cmdCtx s src
  let x := ctxOf s c
  decide (given s src 0x12 = true) &&
  decide (passes (streamChecks s src c false false) = true) &&
  decide (x.st = .halted) &&
  decide (x.hcause = 7)

def met_resume : Bool :=
  let s : State := stream 0x13 [5, 0xAAAAA, 0xBBBBB, 0xCCCCC, 0xDDDDD] (one { running [0x04000000] with st := .halted, hcause := 1, onSeq := false })
  let src : CmdSrc := host 0
  let c := cmdCtx s src
  let x := ctxOf s c
  decide (given s src 0x13 = true) &&
  decide (passes (streamChecks s src c false false) = true) &&
  decide (x.st = .halted)

def met_abort_1 : Bool :=
  let s : State := stream 0x14 [] (runs [0x04000000])
  let src : CmdSrc := host 0
  let c := cmdCtx s src
  let x := ctxOf s c
  decide (given s src 0x14 = true) &&
  decide (s.present (ctxDie c) = true) &&
  decide (mayStream s src c = true) &&
  decide (ringShut s src.die (ctxDie c) = false) &&
  decide (hallDown s c = 0) &&
  decide (x.loading = none) &&
  decide (armLive x = true)

def met_abort_2 : Bool :=
  let s : State := stream 0x14 [] (one { running [] with st := .done, onSeq := false })
  let src : CmdSrc := host 0
  let c := cmdCtx s src
  let x := ctxOf s c
  decide (given s src 0x14 = true) &&
  decide (s.present (ctxDie c) = true) &&
  decide (mayStream s src c = true) &&
  decide (ringShut s src.die (ctxDie c) = false) &&
  decide (hallDown s c = 0) &&
  decide (x.loading = none) &&
  decide (x.st = .done ∨ x.st = .aborted)

def met_query : Bool :=
  let s : State := stream 0x15 [] (runs [0x04000000])
  let src : CmdSrc := host 0
  let c := cmdCtx s src
  decide (given s src 0x15 = true) &&
  decide (passes (streamChecks s src c false false) = true)

def met_replay : Bool :=
  let s : State := given' (host 0) 0x16 [7] (one { running [] with st := .aborted, onSeq := false, snapshot := true, image := ⟨[0x00070000, 0, 0, 0x00020000], []⟩ })
  let src : CmdSrc := host 0
  let all := taskCtxs s src.die (cmdArgF s src 0 0 16) (cmdTen s src)
  let mine := all.filter (fun e => replayable e.2)
  decide (given s src 0x16 = true) &&
  decide (cmdArgF s src 0 0 16 ≠ 0xFFFF) &&
  decide (src.win.isSome = true) &&
  decide (all.all (fun e => !armLive e.2) = true) &&
  decide (abortInProgress s (cmdArgF s src 0 0 16) (cmdTen s src) = false) &&
  decide (mine ≠ []) &&
  decide (mine.all (fun e => !epochOld s (cmdTen s src) e) = true)

def met_taskAbortReceive : Bool :=
  let s : State := (runs [0x04000000]).onStreams (fun t => { t with aborts := [⟨7, 0, 9, 4, [0]⟩] })
  let d : Die := 0
  let task : BitVec 16 := 7
  let ten : Win := 0
  match (s.streams.aborts.find? (fun a => a.task == task && a.ten == ten && a.dies.contains d.toNat) : Option (TaskAbort)) with
  | none => false
  | some _ =>
  decide (s.present d.toNat = true)

/-- Every clause of StreamCommandsRuleContexts has a state and operands that meet all its hypotheses. -/
theorem witness_StreamCommandsRuleContexts :
    [met_arm, met_armLoadDone_1, met_armLoadDone_2, met_rearm, met_rearmLoadDone, met_halt_1, met_halt_2, met_resume,
     met_abort_1, met_abort_2, met_query, met_replay, met_taskAbortReceive].all id = true := by decide +kernel

/-! ### ContextsAreScheduled -/

def met_contextStartFrame : Bool :=
  let s : State := tick 2560 (one { running [] with st := .armed, onSeq := false, image := ⟨[0, 0, 0x000A0001], []⟩ })
  let ctx : CtxId := 5
  let x := ctxOf s ctx
  decide (s.present (ctxDie ctx) = true) &&
  decide (x.st = .armed) &&
  decide (x.ready = false) &&
  decide (x.stop = .no) &&
  decide (startReached s x.image.desc = true)

def met_sequencerTake_1 : Bool :=
  let s : State := one { running [] with onSeq := false, ready := true }
  let d : Die := 0
  let cluster : Cluster := 0
  match (nextReady s d.toNat cluster.toNat : Option (CtxId)) with
  | none => false
  | some _ =>
  decide (s.present d.toNat = true) &&
  decide (((hallCtxs s d.toNat cluster.toNat).filter (fun e => e.2.onSeq)).length < 48) &&
  decide (domUp s d.toNat (xbarDomain cluster.toNat) = true)

def met_sequencerTake_2 : Bool :=
  let s : State := up.onStreams (fun t => { t with ctxs := (List.range 48).map (fun i => (i, running [])) })
  let d : Die := 0
  let cluster : Cluster := 0
  decide (s.present d.toNat = true) &&
  decide (48 ≤ ((hallCtxs s d.toNat cluster.toNat).filter (fun e => e.2.onSeq)).length)

def met_sequencerTimeslice : Bool :=
  let s : State := tick 255 (context 6 { running [] with onSeq := false, ready := true } (one { running [] with seqSince := 200 })) |> fun s => { s with now := 456, frame := 1 }
  let ctx : CtxId := 5
  let x := ctxOf s ctx
  decide (s.present (ctxDie ctx) = true) &&
  decide (x.onSeq = true) &&
  decide ((nextReady s (ctxDie ctx) (ctxCluster ctx)).isSome = true) &&
  decide (within s (max s.now (x.seqSince + 256)) = true)

def met_waitslipResultRetry : Bool :=
  let s : State := tick 256 (one { running [] with onSeq := false, wait := .result, opSince := 255 })
  let ctx : CtxId := 5
  let x := ctxOf s ctx
  decide (s.present (ctxDie ctx) = true) &&
  decide (x.st = .running) &&
  decide (x.wait = .result) &&
  decide (x.stop = .no) &&
  decide (within s (max s.now (x.opSince + 256)) = true)

def met_slipqWaitRetry_1 : Bool :=
  let s : State := tick 256 (one { running [] with onSeq := false, wait := .queue, opSince := 255 })
  let ctx : CtxId := 5
  let x := ctxOf s ctx
  decide (s.present (ctxDie ctx) = true) &&
  decide (x.st = .running) &&
  decide (x.wait = .queue) &&
  decide (x.listed = false) &&
  decide (x.stop = .no) &&
  decide (within s (max s.now (x.opSince + 256)) = true)

def met_slipqWaitRetry_2 : Bool :=
  let s : State := tick 256 (one { running [] with st := .halted, hcause := 7, onSeq := false, opSince := 255 })
  let ctx : CtxId := 5
  let x := ctxOf s ctx
  decide (s.present (ctxDie ctx) = true) &&
  decide (x.st = .halted) &&
  decide (x.hcause = 7) &&
  decide (x.listed = false) &&
  decide (x.lapsed = false) &&
  decide (within s (max s.now (x.opSince + 256)) = true)

def met_queueStall : Bool :=
  let s : State := tick 65536 (one { running [0x60800000] with onSeq := false, wait := .queue, listed := true, opSince := 100 })
  let ctx : CtxId := 5
  let x := ctxOf s ctx
  let giver := x.st == .halted && x.hcause == 7
  let c := max s.now (x.opSince + 256 * max 1 (rf s (qDie (queueAtIp x)) .wdogCtl 0 16))
  decide (s.present (ctxDie ctx) = true) &&
  decide (x.stallLogged = false) &&
  decide (x.listed = true) &&
  decide (giver = true ∨ x.wait = .queue) &&
  decide (within s c = true)

/-- Every clause of ContextsAreScheduled has a state and operands that meet all its hypotheses. -/
theorem witness_ContextsAreScheduled :
    [met_contextStartFrame, met_sequencerTake_1, met_sequencerTake_2, met_sequencerTimeslice, met_waitslipResultRetry,
     met_slipqWaitRetry_1, met_slipqWaitRetry_2, met_queueStall].all id = true := by decide +kernel

/-! ### ControlInstructionsStepTheContext -/

def met_loop : Bool :=
  let s : State := runsAt [0x12800000 ||| 0x7FFFFF]
  let ctx : CtxId := 5
  match ((match onTurn s ctx with | some (.loop l n) => some (l, n) | _ => none) : Option (Nat × Nat)) with
  | none => false
  | some _ =>
  true

def met_endl : Bool :=
  let s : State := one { running [0x16800000] with regs := { regs0 with l := [0, 0, 0, 0, 0, 1], live := [false, false, false, false, false, true] } }
  let ctx : CtxId := 5
  match ((match onTurn s ctx with | some (.endl l) => some l | _ => none) : Option (Nat)) with
  | none => false
  | some _ =>
  true

def met_br : Bool :=
  let s : State := runsAt [0x19000001, 0x04000000]
  let ctx : CtxId := 5
  match ((match onTurn s ctx with | some (.br k a) => some (k, a) | _ => none) : Option (Nat × Nat)) with
  | none => false
  | some _ =>
  true

def met_setI : Bool :=
  let s : State := runsAt [0x1C000000 ||| 0x1C0FFFF, 0xFFFFFFFF]
  let ctx : CtxId := 5
  match ((match onTurn s ctx with | some (.set stride i v) => some (stride, i, v) | _ => none) : Option (Bool × Nat × Nat)) with
  | none => false
  | some _ =>
  true

def met_stepI : Bool :=
  let s : State := runsAt [0x20000000 ||| (7 * 2 ^ 23) ||| (1 * 2 ^ 20) ||| (2 * 2 ^ 18) ||| (1 * 2 ^ 16)]
  let ctx : CtxId := 5
  match ((match onTurn s ctx with | some (.step ad a sx mode) => some (ad, a, sx, mode) | _ => none) : Option (Nat × Nat × Nat × Nat)) with
  | none => false
  | some _ =>
  true

def met_seth : Bool :=
  let s : State := runsAt [0x24000000 ||| (3 * 2 ^ 24) ||| 0xFFFFF]
  let ctx : CtxId := 5
  match ((match onTurn s ctx with | some (.seth h v) => some (h, v) | _ => none) : Option (Nat × Nat)) with
  | none => false
  | some _ =>
  true

/-- Every clause of ControlInstructionsStepTheContext has a state and operands that meet all its hypotheses. -/
theorem witness_ControlInstructionsStepTheContext :
    [met_loop, met_endl, met_br, met_setI, met_stepI, met_seth].all id = true := by decide +kernel

/-! ### RunInstructionsEndWaitAndRefuse -/

def met_endI_1 : Bool :=
  let s : State := runsAt [0x04000000]
  let ctx : CtxId := 5
  let x := ctxOf s ctx
  decide (onTurn s ctx = some .endI) &&
  decide (x.recs = []) &&
  decide (x.shadow = none)

def met_endI_2 : Bool :=
  let s : State := one { running [0x04000000] with shadow := some ⟨[0x00080000], [0x04000000]⟩ }
  let ctx : CtxId := 5
  let x := ctxOf s ctx
  match (x.shadow : Option (Image)) with
  | none => false
  | some _ =>
  decide (onTurn s ctx = some .endI) &&
  decide (x.recs = [])

def met_endI_3 : Bool :=
  let s : State := one { running [0x04000000] with recs := [⟨1, 0, 0, regs0, .zero, .outstanding, none⟩] }
  let ctx : CtxId := 5
  let x := ctxOf s ctx
  decide (onTurn s ctx = some .endI) &&
  decide (x.recs ≠ [])

def met_fence : Bool :=
  let s : State := runsAt [0x0A000000]
  let ctx : CtxId := 5
  match ((match onTurn s ctx with | some (.fence v) => some v | _ => none) : Option (Bool)) with
  | none => false
  | some _ =>
  let x := ctxOf s ctx
  decide (x.recs = [])

def met_epoch : Bool :=
  let s : State := runsAt [0x0E000000]
  let ctx : CtxId := 5
  match ((match onTurn s ctx with | some (.epoch inc v) => some (inc, v) | _ => none) : Option (Bool × Nat)) with
  | none => false
  | some _ =>
  let x := ctxOf s ctx
  decide (x.recs = [])

def met_streamIllegal : Bool :=
  let s : State := runsAt [0xFFFFFFFF]
  let ctx : CtxId := 5
  let x := ctxOf s ctx
  decide (s.present (ctxDie ctx) = true) &&
  decide (x.onSeq = true) &&
  decide (x.st = .running) &&
  decide (x.stop = .no) &&
  decide (currentInstr x = none) &&
  decide (within s (max s.now x.nextAt) = true)

/-- Every clause of RunInstructionsEndWaitAndRefuse has a state and operands that meet all its hypotheses. -/
theorem witness_RunInstructionsEndWaitAndRefuse :
    [met_endI_1, met_endI_2, met_endI_3, met_fence, met_epoch, met_streamIllegal].all id = true := by decide +kernel

/-! ### TransferInstructionsEnterSlots -/

def met_emit_1 : Bool :=
  let s : State := runsAt [0x40000000 ||| (1 * 2 ^ 11)]
  let ctx : CtxId := 5
  match ((match onTurn s ctx with | some (.emit w a b pi n g) => some (w, a, b, pi, n, g) | _ => none) : Option (Bool × EndField × EndField × Bool × Nat × Nat)) with
  | none => false
  | some q =>
  let x := ctxOf s ctx
  let m := advanceTo s (turnCycle s x)
  let p := x.prog.bytes
  let g := if x.prog.slots = 0 then emitGroup m x.regs q.2.1 q.2.2.2.2.2 else x.prog.group.toNat
  let sa := addrReg x.regs q.2.1.a + p
  let da := if emitRing m x.regs q.2.2.1 then p else addrReg x.regs q.2.2.1.a + p
  decide (issueBlock m ctx = none) &&
  decide (groupBad m x.regs q.2.1 q.2.2.1 g = 0) &&
  decide (validEnd m (endpoint m q.2.1.kind (handleReg x.regs q.2.1.h) 0x1FF sa) = true) &&
  decide (validEnd m (endpoint m q.2.2.1.kind (handleReg x.regs q.2.2.1.h) g da) = true)

def met_emit_2 : Bool :=
  let s : State := one { running [0x40000000 ||| (1 * 2 ^ 11)] with regs := regs0, recs := (List.range 64).map (fun i => ⟨i, 0, 0, regs0, .zero, .outstanding, none⟩) }
  let ctx : CtxId := 5
  let m := advanceTo s (turnCycle s (ctxOf s ctx))
  match (issueBlock m ctx : Option (Wait)) with
  | none => false
  | some _ =>
  decide ((match onTurn s ctx with | some (.emit _ _ _ _ _ _) => true | _ => false) = true)

def met_gather_1 : Bool :=
  let s : State := runsAt [0x44000000 ||| (1 * 2 ^ 14) ||| (2 * 2 ^ 9), 0x00000003]
  let ctx : CtxId := 5
  match ((match onTurn s ctx with | some (.gather false x y i ss esz pi stop n) => some ⟨false, x, y, i, ss, esz, pi, stop, n⟩ | _ => none) : Option (Gs)) with
  | none => false
  | some g =>
  let x := ctxOf s ctx
  let m := advanceTo s (turnCycle s x)
  let a := (addrReg x.regs g.i.a + 4 * x.prog.elems) % 2 ^ 48
  decide (issueBlock m ctx = none) &&
  decide (x.prog.reissue = false) &&
  decide (heldIndex x.prog x.prog.elems = none) &&
  decide (a % 4 = 0) &&
  decide (namesWindow m (handleReg x.regs g.i.h) = false) &&
  decide (validEnd m (endpoint m 0 (handleReg x.regs g.i.h) 0x1FF a) = true)

def met_gather_2 : Bool :=
  let s : State := one { running [0x44000000 ||| (1 * 2 ^ 14) ||| (2 * 2 ^ 9), 0x00000003] with regs := regs0, prog := { Progress.zero with indices := [2, 3, 4, 5] } }
  let ctx : CtxId := 5
  match ((match onTurn s ctx with | some (.gather false x y i ss esz pi stop n) => some ⟨false, x, y, i, ss, esz, pi, stop, n⟩ | _ => none) : Option (Gs)) with
  | none => false
  | some g =>
  let x := ctxOf s ctx
  let m := advanceTo s (turnCycle s x)
  match (heldIndex x.prog x.prog.elems : Option (Nat)) with
  | none => false
  | some i =>
  let a := g.place x.regs x.prog.elems i
  let src := (a.1 + x.prog.bytes) % 2 ^ 48
  let dst := (a.2 + x.prog.bytes) % 2 ^ 48
  decide (issueBlock m ctx = none) &&
  decide (x.prog.reissue = false) &&
  decide (g.sentinel i = false) &&
  decide (validEnd m (endpoint m 0 (handleReg x.regs g.x.h) 0x1FF src) = true) &&
  decide (validEnd m (endpoint m g.y.kind (handleReg x.regs g.y.h) 0x1FF dst) = true)

def met_gather_3 : Bool :=
  let s : State := one { running [0x44000000 ||| (1 * 2 ^ 14) ||| (2 * 2 ^ 9), 0x80000003] with regs := regs0, prog := { Progress.zero with indices := [0xFFFFFFFF] } }
  let ctx : CtxId := 5
  match ((match onTurn s ctx with | some (.gather false x y i ss esz pi stop n) => some ⟨false, x, y, i, ss, esz, pi, stop, n⟩ | _ => none) : Option (Gs)) with
  | none => false
  | some g =>
  let x := ctxOf s ctx
  let m := advanceTo s (turnCycle s x)
  match (heldIndex x.prog x.prog.elems : Option (Nat)) with
  | none => false
  | some i =>
  decide (issueBlock m ctx = none) &&
  decide (x.prog.reissue = false) &&
  decide (g.sentinel i = true)

def met_scatter_1 : Bool :=
  let s : State := runsAt [0x48000000 ||| (1 * 2 ^ 14) ||| (2 * 2 ^ 9), 0x00000003]
  let ctx : CtxId := 5
  match ((match onTurn s ctx with | some (.gather true x y i ss esz pi stop n) => some ⟨true, x, y, i, ss, esz, pi, stop, n⟩ | _ => none) : Option (Gs)) with
  | none => false
  | some g =>
  let x := ctxOf s ctx
  let m := advanceTo s (turnCycle s x)
  let a := (addrReg x.regs g.i.a + 4 * x.prog.elems) % 2 ^ 48
  decide (issueBlock m ctx = none) &&
  decide (x.prog.reissue = false) &&
  decide (heldIndex x.prog x.prog.elems = none) &&
  decide (a % 4 = 0) &&
  decide (namesWindow m (handleReg x.regs g.i.h) = false) &&
  decide (validEnd m (endpoint m 0 (handleReg x.regs g.i.h) 0x1FF a) = true)

def met_scatter_2 : Bool :=
  let s : State := one { running [0x48000000 ||| (1 * 2 ^ 14) ||| (2 * 2 ^ 9), 0x00000003] with regs := regs0, prog := { Progress.zero with indices := [2, 3, 4, 5] } }
  let ctx : CtxId := 5
  match ((match onTurn s ctx with | some (.gather true x y i ss esz pi stop n) => some ⟨true, x, y, i, ss, esz, pi, stop, n⟩ | _ => none) : Option (Gs)) with
  | none => false
  | some g =>
  let x := ctxOf s ctx
  let m := advanceTo s (turnCycle s x)
  match (heldIndex x.prog x.prog.elems : Option (Nat)) with
  | none => false
  | some i =>
  let a := g.place x.regs x.prog.elems i
  let src := (a.1 + x.prog.bytes) % 2 ^ 48
  let dst := (a.2 + x.prog.bytes) % 2 ^ 48
  decide (issueBlock m ctx = none) &&
  decide (x.prog.reissue = false) &&
  decide (g.sentinel i = false) &&
  decide (validEnd m (endpoint m g.y.kind (handleReg x.regs g.y.h) 0x1FF src) = true) &&
  decide (validEnd m (endpoint m 0 (handleReg x.regs g.x.h) 0x1FF dst) = true)

def met_xpose_1 : Bool :=
  let s : State := runsAt [0x4C000000 ||| (1 * 2 ^ 14) ||| (1 * 2 ^ 10)]
  let ctx : CtxId := 5
  match ((match onTurn s ctx with | some (.xpose a b ss ds w) => some (a, b, ss, ds, w) | _ => none) : Option (EndField × EndField × Nat × Nat × Bool)) with
  | none => false
  | some q =>
  let x := ctxOf s ctx
  let m := advanceTo s (turnCycle s x)
  let rows := if q.2.2.2.2 then 32 else 64
  match ((rowSlots (rowAt x.regs q.1 q.2.2.1) rows (2 * rows) 0)[x.prog.slots]? : Option (Nat × Nat × Nat)) with
  | none => false
  | some r =>
  decide (issueBlock m ctx = none) &&
  decide (x.prog.tile.isSome = true ∨ hallTiles m (ctxDie ctx) (ctxCluster ctx) < 8) &&
  decide (validEnd m (endpoint m 0 (handleReg x.regs q.1.h) 0x1FF r.2.1) = true)

def met_xpose_2 : Bool :=
  let s : State := (runsAt [0x4C000000 ||| (1 * 2 ^ 14) ||| (1 * 2 ^ 10)]).onStreams (fun t => { t with tiles := (List.range 8).map (fun i => ⟨i, 6, [], false, false, 0, 0⟩) })
  let ctx : CtxId := 5
  let x := ctxOf s ctx
  let m := advanceTo s (turnCycle s x)
  decide ((match onTurn s ctx with | some (.xpose _ _ _ _ _) => true | _ => false) = true) &&
  decide (issueBlock m ctx = none) &&
  decide (x.prog.tile = none) &&
  decide (8 ≤ hallTiles m (ctxDie ctx) (ctxCluster ctx))

def met_combine : Bool :=
  let s : State := runsAt [0x50000000 ||| (1 * 2 ^ 16), 0xFF000000]
  let ctx : CtxId := 5
  match ((match onTurn s ctx with | some (.combine src da qd qc qn pi n cidx) => some (src, da, qd, qc, qn, pi, n, cidx) | _ => none) : Option (EndField × Nat × Nat × Nat × Nat × Bool × Nat × Nat)) with
  | none => false
  | some q =>
  let x := ctxOf s ctx
  let m := advanceTo s (turnCycle s x)
  let a := addrReg x.regs q.1.a + 256 * x.prog.slots
  let off := addrReg x.regs q.2.1 + 256 * x.prog.slots
  decide (x.recs = []) &&
  decide (issueBlock m ctx = none) &&
  decide (off % 64 = 0) &&
  decide (a % 256 = 0) &&
  decide (validEnd m (endpoint m q.1.kind (handleReg x.regs q.1.h) 0x1FF a) = true)

def met_seal : Bool :=
  let s : State := runsAt [0x54000000 ||| (1 * 2 ^ 14)]
  let ctx : CtxId := 5
  match ((match onTurn s ctx with | some (.seal src dst n pi) => some (src, dst, n, pi) | _ => none) : Option (EndField × EndField × Nat × Bool)) with
  | none => false
  | some q =>
  let x := ctxOf s ctx
  let m := advanceTo s (turnCycle s x)
  let a := addrReg x.regs q.1.a + 256 * x.prog.slots
  let b := addrReg x.regs q.2.1.a + 256 * x.prog.slots
  decide (x.recs = []) &&
  decide (issueBlock m ctx = none) &&
  decide (addrReg x.regs q.2.1.a % 4096 = 0) &&
  decide (a % 256 = 0) &&
  decide (namesWindow m (handleReg x.regs q.2.1.h) = false) &&
  decide (validEnd m (endpoint m q.1.kind (handleReg x.regs q.1.h) 0x1FF a) = true) &&
  decide (s.present (taDie (b % 2 ^ 33)) = true)

/-- Every clause of TransferInstructionsEnterSlots has a state and operands that meet all its hypotheses. -/
theorem witness_TransferInstructionsEnterSlots :
    [met_emit_1, met_emit_2, met_gather_1, met_gather_2, met_gather_3, met_scatter_1, met_scatter_2, met_xpose_1, met_xpose_2,
     met_combine, met_seal].all id = true := by decide +kernel

/-! ### OperationInstructionsSendTheirOperation -/

def met_take : Bool :=
  let s : State := runsAt [0x60000000 ||| (3 * 2 ^ 24) ||| 0x1FFF]
  let ctx : CtxId := 5
  match ((match onTurn s ctx with | some (.take _ _ q) => some q | _ => none) : Option (Nat)) with
  | none => false
  | some q =>
  let x := ctxOf s ctx
  decide (x.recs = []) &&
  decide (s.present (qDie q) = true)

def met_give : Bool :=
  let s : State := runsAt [0x64000000 ||| (3 * 2 ^ 24) ||| (0xA * 2 ^ 19)]
  let ctx : CtxId := 5
  match ((match onTurn s ctx with | some (.give h _ part ps q) => some (h, part, ps, q) | _ => none) : Option (Nat × Nat × Bool × Nat)) with
  | none => false
  | some q =>
  let x := ctxOf s ctx
  decide (x.recs = []) &&
  decide (s.present (qDie q.2.2.2) = true)

def met_waitslip_1 : Bool :=
  let s : State := runsAt [0x68000000]
  let ctx : CtxId := 5
  match ((match onTurn s ctx with | some (.waitslip k b v) => some (k, b, v) | _ => none) : Option (Nat × Bool × Nat)) with
  | none => false
  | some q =>
  let x := ctxOf s ctx
  decide (x.recs = []) &&
  decide (q.1 = 0) &&
  decide (s.present (qDie q.2.2) = true)

def met_waitslip_2 : Bool :=
  let s : State := runsAt [0x69000000 ||| 0x7FFF]
  let ctx : CtxId := 5
  match ((match onTurn s ctx with | some (.waitslip k b v) => some (k, b, v) | _ => none) : Option (Nat × Bool × Nat)) with
  | none => false
  | some q =>
  let x := ctxOf s ctx
  decide (x.recs = []) &&
  decide (q.1 = 1) &&
  decide (s.present (q.2.2 / 4096) = true)

def met_waitslip_3 : Bool :=
  let s : State := one { running [0x6A000000] with pcn := 2, points := [7, 8] }
  let ctx : CtxId := 5
  match ((match onTurn s ctx with | some (.waitslip k b v) => some (k, b, v) | _ => none) : Option (Nat × Bool × Nat)) with
  | none => false
  | some q =>
  let x := ctxOf s ctx
  decide (x.recs = []) &&
  decide (q.1 = 2)

def met_waitslip_4 : Bool :=
  let s : State := one { running [0x6B000009] with bl := 3, bn := 9 }
  let ctx : CtxId := 5
  match ((match onTurn s ctx with | some (.waitslip k b v) => some (k, b, v) | _ => none) : Option (Nat × Bool × Nat)) with
  | none => false
  | some q =>
  let x := ctxOf s ctx
  decide (x.recs = []) &&
  decide (q.1 = 3)

def met_digest_1 : Bool :=
  let s : State := one { running [0x70000000] with d := 5 }
  let ctx : CtxId := 5
  match ((match onTurn s ctx with | some (.digest m b v) => some (m, b, v) | _ => none) : Option (Nat × Bool × Nat)) with
  | none => false
  | some q =>
  let x := ctxOf s ctx
  decide (x.recs = []) &&
  decide (q.1 = 0)

def met_digest_2 : Bool :=
  let s : State := one { running [0x71800000] with d := 5, key := some 3 }
  let ctx : CtxId := 5
  match ((match onTurn s ctx with | some (.digest m b v) => some (m, b, v) | _ => none) : Option (Nat × Bool × Nat)) with
  | none => false
  | some q =>
  let x := ctxOf s ctx
  decide (x.recs = []) &&
  decide (x.key.isSome = true) &&
  decide (q.1 = 1) &&
  decide (s.present (q.2.2 / 4096) = true)

def met_digest_3 : Bool :=
  let s : State := one { running [0x72800005] with d := 5, key := some 3 }
  let ctx : CtxId := 5
  match ((match onTurn s ctx with | some (.digest m b v) => some (m, b, v) | _ => none) : Option (Nat × Bool × Nat)) with
  | none => false
  | some q =>
  let x := ctxOf s ctx
  decide (x.recs = []) &&
  decide (x.key.isSome = true) &&
  decide (q.1 = 2)

def met_digest_4 : Bool :=
  let s : State := one { running [0x72800005] with d := 5 }
  let ctx : CtxId := 5
  match ((match onTurn s ctx with | some (.digest m b v) => some (m, b, v) | _ => none) : Option (Nat × Bool × Nat)) with
  | none => false
  | some q =>
  let x := ctxOf s ctx
  decide (x.recs = []) &&
  decide (x.key = none) &&
  decide (q.1 ≠ 0) &&
  decide (x.opFlight = false)

def met_signal_1 : Bool :=
  let s : State := wreg 0 (.barrierCfg 9) 0x80000001 (runsAt [0x75000009, 0])
  let ctx : CtxId := 5
  match ((match onTurn s ctx with | some (.signal a p v) => some (a, p, v) | _ => none) : Option (Bool × Nat × Nat)) with
  | none => false
  | some q =>
  let x := ctxOf s ctx
  let m := advanceTo s (turnCycle s x)
  let cfg := barrierCfg m (ctxDie ctx) q.2.1
  decide (x.recs = []) &&
  decide (q.1 = true) &&
  decide (field cfg 16 4 = ctxTen s ctx) &&
  decide (bit cfg 31 = true) &&
  decide (laneShut m (ctxDie ctx) (ctxCluster ctx) (ctxDie ctx) none = false)

def met_signal_2 : Bool :=
  let s : State := runsAt [0x74000009, 6]
  let ctx : CtxId := 5
  match ((match onTurn s ctx with | some (.signal a p v) => some (a, p, v) | _ => none) : Option (Bool × Nat × Nat)) with
  | none => false
  | some q =>
  let x := ctxOf s ctx
  let m := advanceTo s (turnCycle s x)
  decide (x.recs = []) &&
  decide (q.1 = false) &&
  decide (s.present (q.2.2 / 32768) = true) &&
  decide (laneShut m (ctxDie ctx) (ctxCluster ctx) (q.2.2 / 32768) (some (q.2.2 / 2048 % 16)) = false)

def met_signal_3 : Bool :=
  let s : State := (runsAt [0x74000009, 2048]).onStreams (fun t => { t with tokens := (List.range 130).map (fun i => ⟨i, .point 0 7 8, 0, i, if i < 128 then (meshLinks 0 0 1).head? else none, if i < 128 then [] else meshLinks 0 0 1⟩) })
  let ctx : CtxId := 5
  let m := advanceTo s (turnCycle s (ctxOf s ctx))
  match ((match onTurn s ctx with | some (.signal a p v) => some (a, p, v) | _ => none) : Option (Bool × Nat × Nat)) with
  | none => false
  | some q =>
  decide ((ctxOf s ctx).recs = []) &&
  decide (q.1 = false) &&
  decide (s.present (q.2.2 / 32768) = true) &&
  decide (laneShut m (ctxDie ctx) (ctxCluster ctx) (q.2.2 / 32768) (some (q.2.2 / 2048 % 16)) = true)

/-- Every clause of OperationInstructionsSendTheirOperation has a state and operands that meet all its hypotheses. -/
theorem witness_OperationInstructionsSendTheirOperation :
    [met_take, met_give, met_waitslip_1, met_waitslip_2, met_waitslip_3, met_waitslip_4, met_digest_1, met_digest_2,
     met_digest_3, met_digest_4, met_signal_1, met_signal_2, met_signal_3].all id = true := by decide +kernel

/-! ### QueueEnginesCarryOutOperations -/

def met_queueEngineOp_1 : Bool :=
  let s : State := opIs (op1 (.testQueue 0)) shared
  let op : Nat := 1
  match (s.queues.ops.find? (fun o => o.id == op && !o.done) : Option (QOp)) with
  | none => false
  | some o =>
  match (opTurn s o : Option (Nat × State)) with
  | none => false
  | some _ =>
  decide (ringShut s o.issuer.die o.kind.die = false) &&
  decide (domUp s o.kind.die 47 = true) &&
  decide (o.issuer.notice = false)

def met_queueEngineOp_2 : Bool :=
  let s : State := opIs { op1 (.give 0 0x00ABCDEF) with issuer := .engine 0 } shared
  let op : Nat := 1
  match (s.queues.ops.find? (fun o => o.id == op && !o.done) : Option (QOp)) with
  | none => false
  | some o =>
  match (opTurn s o : Option (Nat × State)) with
  | none => false
  | some _ =>
  decide (ringShut s o.issuer.die o.kind.die = false) &&
  decide (domUp s o.kind.die 47 = true) &&
  decide (o.issuer.notice = true)

def met_queueEngineOp_3 : Bool :=
  let s : State := opIs (op1 (.give 0 0x00ABCDEF)) shared
  let op : Nat := 1
  match (s.queues.ops.find? (fun o => o.id == op && !o.done) : Option (QOp)) with
  | none => false
  | some o =>
  match (opTurn s o : Option (Nat × State)) with
  | none => false
  | some k =>
  match ((match o.kind with | .give q w => some (q, w) | _ => none) : Option (BitVec 13 × Word)) with
  | none => false
  | some q =>
  decide (ringShut s o.issuer.die (qDie q.1.toNat) = false) &&
  decide (domUp s (qDie q.1.toNat) 47 = true) &&
  decide (o.issuer.notice = false) &&
  decide (field (sqReg k.2 q.1.toNat) 16 4 = o.ten.toNat) &&
  decide (bit (sqReg k.2 q.1.toNat) 23 = true)

def met_queueEngineOp_4 : Bool :=
  let s : State := (opIs (op1 (.take 0)) shared).onQueues (fun q => { q with slipq := [(0, ⟨31, 1, 9, [], [], 0⟩)] })
  let op : Nat := 1
  match (s.queues.ops.find? (fun o => o.id == op && !o.done) : Option (QOp)) with
  | none => false
  | some o =>
  match (opTurn s o : Option (Nat × State)) with
  | none => false
  | some k =>
  match ((match o.kind with | .take q => some q | _ => none) : Option (BitVec 13)) with
  | none => false
  | some q =>
  decide (ringShut s o.issuer.die (qDie q.toNat) = false) &&
  decide (domUp s (qDie q.toNat) 47 = true) &&
  decide (o.issuer.notice = false) &&
  decide (field (sqReg k.2 q.toNat) 16 4 = o.ten.toNat) &&
  decide (bit (sqReg k.2 q.toNat) 23 = true)

def met_queueEngineOp_5 : Bool :=
  let s : State := opIs (op1 (.rsPost 0 64 (List.replicate 64 1))) shared
  let op : Nat := 1
  match (s.queues.ops.find? (fun o => o.id == op && !o.done) : Option (QOp)) with
  | none => false
  | some o =>
  match (opTurn s o : Option (Nat × State)) with
  | none => false
  | some k =>
  match ((match o.kind with | .rsPost i n _ => some (i, n) | _ => none) : Option (BitVec 15 × Nat)) with
  | none => false
  | some q =>
  let d := q.1.toNat / 4096
  let i := q.1.toNat % 4096
  decide (ringShut s o.issuer.die d = false) &&
  decide (domUp s d 47 = true) &&
  decide (o.issuer.notice = false) &&
  decide (field (rsReg k.2 d i) 16 4 = o.ten.toNat) &&
  decide (bit (rsReg k.2 d i) 23 = true)

def met_queueEngineOp_6 : Bool :=
  let s : State := (opIs (op1 (.rsConsume 0 3)) shared).onQueues (fun q => { q with results := [(0, ⟨3, true, true, 4⟩)] })
  let op : Nat := 1
  match (s.queues.ops.find? (fun o => o.id == op && !o.done) : Option (QOp)) with
  | none => false
  | some o =>
  match (opTurn s o : Option (Nat × State)) with
  | none => false
  | some k =>
  match ((match o.kind with | .rsConsume i n => some (i, n) | _ => none) : Option (BitVec 15 × BitVec 16)) with
  | none => false
  | some q =>
  let d := q.1.toNat / 4096
  let i := q.1.toNat % 4096
  decide (ringShut s o.issuer.die d = false) &&
  decide (domUp s d 47 = true) &&
  decide (o.issuer.notice = false) &&
  decide (field (rsReg k.2 d i) 16 4 = o.ten.toNat) &&
  decide (bit (rsReg k.2 d i) 23 = true)

def met_queueOpStatusReturn_1 : Bool :=
  let s : State := opIs ⟨1, .ctx 5, .take 0, 1024, 0, true, 0, 0x00312345, 0, []⟩ (one { running [0x63800000] with onSeq := false, opFlight := true })
  let op : Nat := 1
  match (s.queues.ops.find? (fun o => o.id == op && o.done) : Option (QOp)) with
  | none => false
  | some o =>
  match ((match o.issuer with | .ctx c => some c | _ => none) : Option (CtxId)) with
  | none => false
  | some c =>
  let x := ctxOf s c
  match ((match currentInstr x with | some (.take h _ _) => some h | _ => none) : Option (Nat)) with
  | none => false
  | some _ =>
  decide (x.opFlight = true) &&
  decide (x.stop = .no) &&
  decide (stCode o.status = Code.done)

def met_queueOpStatusReturn_2 : Bool :=
  let s : State := opIs { op1 (.take 0) with done := true, slip := 0x00312345 } up
  let op : Nat := 1
  match (s.queues.ops.find? (fun o => o.id == op && o.done) : Option (QOp)) with
  | none => false
  | some o =>
  match ((match o.issuer with | .core d c => some (d, c) | _ => none) : Option (Die × CoreNo)) with
  | none => false
  | some _ =>
  decide ((match o.kind with | .rsRead _ => false | _ => true) = true)

def met_queueOpStatusReturn_3 : Bool :=
  let s : State := opIs { op1 (.take 0) with issuer := .host (host 0), done := true, slip := 0x00312345 } (going (host 0) 0x29 [0] up)
  let op : Nat := 1
  match (s.queues.ops.find? (fun o => o.id == op && o.done) : Option (QOp)) with
  | none => false
  | some o =>
  match ((match o.issuer with | .host src => some src | _ => none) : Option (CmdSrc)) with
  | none => false
  | some src =>
  decide (cmdState s src = 2)

/-- Every clause of QueueEnginesCarryOutOperations has a state and operands that meet all its hypotheses. -/
theorem witness_QueueEnginesCarryOutOperations :
    [met_queueEngineOp_1, met_queueEngineOp_2, met_queueEngineOp_3, met_queueEngineOp_4, met_queueEngineOp_5,
     met_queueEngineOp_6, met_queueOpStatusReturn_1, met_queueOpStatusReturn_2, met_queueOpStatusReturn_3].all id = true := by decide +kernel

/-! ### HostQueueCommandsSendOperations -/

def met_sqGive : Bool :=
  let s : State := given' (host 0) 0x28 [0x1FFF, 0xFFFFFFFF] up
  let src : CmdSrc := host 0
  let q := cmdArgF s src 0 0 13
  decide (given s src 0x28 = true) &&
  decide (s.present (qDie q) = true)

def met_sqTake : Bool :=
  let s : State := given' (host 0) 0x29 [0x1FFF] up
  let src : CmdSrc := host 0
  let q := cmdArgF s src 0 0 13
  decide (given s src 0x29 = true) &&
  decide (s.present (qDie q) = true)

def met_rsPost_1 : Bool :=
  let s : State := given' (host 0) 0x2A [0x7FFF, 64] up
  let src : CmdSrc := host 0
  let i := cmdArgF s src 0 0 15
  let n := cmdArgF s src 1 0 7
  decide (given s src 0x2A = true) &&
  decide (s.present (i / 4096) = true) &&
  decide (1 ≤ n) &&
  decide (n ≤ 64)

def met_rsPost_2 : Bool :=
  let s : State := given' (host 0) 0x2A [0x7FFF, 65] up
  let src : CmdSrc := host 0
  decide (given s src 0x2A = true) &&
  decide (cmdArgF s src 1 0 7 = 0 ∨ 64 < cmdArgF s src 1 0 7)

def met_rsRead : Bool :=
  let s : State := given' (host 0) 0x2B [0x7FFF] up
  let src : CmdSrc := host 0
  let i := cmdArgF s src 0 0 15
  decide (given s src 0x2B = true) &&
  decide (s.present (i / 4096) = true)

def met_rsConsume : Bool :=
  let s : State := given' (host 0) 0x2C [0x7FFF, 0xFFFF] up
  let src : CmdSrc := host 0
  let i := cmdArgF s src 0 0 15
  decide (given s src 0x2C = true) &&
  decide (s.present (i / 4096) = true)

/-- Every clause of HostQueueCommandsSendOperations has a state and operands that meet all its hypotheses. -/
theorem witness_HostQueueCommandsSendOperations :
    [met_sqGive, met_sqTake, met_rsPost_1, met_rsPost_2, met_rsRead, met_rsConsume].all id = true := by decide +kernel

/-! ### CoreQueueOperationsSendOperations -/

def met_qopGive_1 : Bool :=
  let s : State := wreg 0 (.qopArg 511) 0xFFFFFFFF up
  let d : Die := 0
  let core : CoreNo := 511
  let cmd : Word := 0x10001FFF
  decide (coreMay s d core cmd 1 = true) &&
  decide (field cmd 21 7 = 0) &&
  decide (field cmd 0 16 < 2 ^ 13) &&
  decide (s.present (qDie (field cmd 0 16)) = true)

def met_qopTake_1 : Bool :=
  let s : State := up
  let d : Die := 0
  let core : CoreNo := 511
  let cmd : Word := 0x20001FFF
  decide (coreMay s d core cmd 2 = true) &&
  decide (field cmd 21 7 = 0) &&
  decide (field cmd 0 16 < 2 ^ 13) &&
  decide (s.present (qDie (field cmd 0 16)) = true)

def met_qopRsPost_1 : Bool :=
  let s : State := up
  let d : Die := 0
  let core : CoreNo := 511
  let cmd : Word := 0x38007FFF
  decide (coreMay s d core cmd 3 = true) &&
  decide (1 ≤ field cmd 21 7) &&
  decide (field cmd 21 7 ≤ 64) &&
  decide (field cmd 0 16 < 2 ^ 15) &&
  decide (s.present (field cmd 0 16 / 4096) = true)

def met_qopRsPost_2 : Bool :=
  let s : State := up
  let d : Die := 0
  let core : CoreNo := 511
  let cmd : Word := 0x38207FFF
  decide (coreCalls s d core cmd 3 = true) &&
  decide (field cmd 21 7 = 0 ∨ 64 < field cmd 21 7)

def met_qopRsRead_1 : Bool :=
  let s : State := up
  let d : Die := 0
  let core : CoreNo := 511
  let cmd : Word := 0x40007FFF
  decide (coreMay s d core cmd 4 = true) &&
  decide (field cmd 21 7 = 0) &&
  decide (field cmd 0 16 < 2 ^ 15) &&
  decide (s.present (field cmd 0 16 / 4096) = true)

def met_qopRsConsume_1 : Bool :=
  let s : State := wreg 0 (.qopArg 511) 0xFFFFFFFF up
  let d : Die := 0
  let core : CoreNo := 511
  let cmd : Word := 0x50007FFF
  decide (coreMay s d core cmd 5 = true) &&
  decide (field cmd 21 7 = 0) &&
  decide (field cmd 0 16 < 2 ^ 15) &&
  decide (s.present (field cmd 0 16 / 4096) = true)

def met_qopGive_2 : Bool :=
  let s : State := wreg 0 (.coreFenced 15) 0x80000000 up
  let d : Die := 0
  let core : CoreNo := 511
  let cmd : Word := 0x10001FFF
  decide (coreCalls s d core cmd 1 = true) &&
  decide (coreFenced s d.toNat core.toNat = true) &&
  decide (field cmd 21 7 = 0) &&
  decide (field cmd 0 16 < 2 ^ 13) &&
  decide (s.present (qDie (field cmd 0 16)) = true)

def met_qopTake_2 : Bool :=
  let s : State := wreg 0 (.coreFenced 15) 0x80000000 up
  let d : Die := 0
  let core : CoreNo := 511
  let cmd : Word := 0x20001FFF
  decide (coreCalls s d core cmd 2 = true) &&
  decide (coreFenced s d.toNat core.toNat = true) &&
  decide (field cmd 21 7 = 0) &&
  decide (field cmd 0 16 < 2 ^ 13) &&
  decide (s.present (qDie (field cmd 0 16)) = true)

def met_qopRsPost_3 : Bool :=
  let s : State := wreg 0 (.coreFenced 15) 0x80000000 up
  let d : Die := 0
  let core : CoreNo := 511
  let cmd : Word := 0x38007FFF
  decide (coreCalls s d core cmd 3 = true) &&
  decide (coreFenced s d.toNat core.toNat = true) &&
  decide (1 ≤ field cmd 21 7) &&
  decide (field cmd 21 7 ≤ 64) &&
  decide (field cmd 0 16 < 2 ^ 15) &&
  decide (s.present (field cmd 0 16 / 4096) = true)

def met_qopRsRead_2 : Bool :=
  let s : State := wreg 0 (.coreFenced 15) 0x80000000 up
  let d : Die := 0
  let core : CoreNo := 511
  let cmd : Word := 0x40007FFF
  decide (coreCalls s d core cmd 4 = true) &&
  decide (coreFenced s d.toNat core.toNat = true) &&
  decide (field cmd 21 7 = 0) &&
  decide (field cmd 0 16 < 2 ^ 15) &&
  decide (s.present (field cmd 0 16 / 4096) = true)

def met_qopRsConsume_2 : Bool :=
  let s : State := wreg 0 (.coreFenced 15) 0x80000000 up
  let d : Die := 0
  let core : CoreNo := 511
  let cmd : Word := 0x50007FFF
  decide (coreCalls s d core cmd 5 = true) &&
  decide (coreFenced s d.toNat core.toNat = true) &&
  decide (field cmd 21 7 = 0) &&
  decide (field cmd 0 16 < 2 ^ 15) &&
  decide (s.present (field cmd 0 16 / 4096) = true)

/-- Every clause of CoreQueueOperationsSendOperations has a state and operands that meet all its hypotheses. -/
theorem witness_CoreQueueOperationsSendOperations :
    [met_qopGive_1, met_qopTake_1, met_qopRsPost_1, met_qopRsPost_2, met_qopRsRead_1, met_qopRsConsume_1, met_qopGive_2,
     met_qopTake_2, met_qopRsPost_3, met_qopRsRead_2, met_qopRsConsume_2].all id = true := by decide +kernel

/-! ### CombiningQueuesRunTheirRounds -/

def met_cqStart_1 : Bool :=
  let s : State := wreg 0 (.cqCfg 15 15) 0x00800000 up
  let d : Die := 0
  let win : Win := 0
  let cluster : Cluster := 15
  let n : BitVec 4 := 15
  let val : Word := 0x00800001
  decide (s.present d.toNat = true) &&
  decide (bit val 23 = true) &&
  decide (domUp s d.toNat 47 = true) &&
  decide (cqCtlStatus s d.toNat cluster.toNat n.toNat win.toNat val = Code.done)

def met_cqStart_2 : Bool :=
  let s : State := wreg 0 (.cqCfg 15 15) 0x00800000 up
  let d : Die := 0
  let win : Win := 0
  let cluster : Cluster := 15
  let n : BitVec 4 := 15
  let val : Word := 0x00E00000
  decide (s.present d.toNat = true) &&
  decide (bit val 23 = true) &&
  decide (domUp s d.toNat 47 = true) &&
  decide (cqCtlStatus s d.toNat cluster.toNat n.toNat win.toNat val ≠ Code.done)

def met_cqZeroingDone : Bool :=
  let s : State := (wreg 0 (.cqCfg 15 15) 0x00800000 up).onQueues (fun q => { q with comb := [(255, { CombQ.idle with st := .zeroing })] })
  let d : Die := 0
  let cluster : Cluster := 15
  let n : BitVec 4 := 15
  let v := cqOf s (cqKey d.toNat cluster.toNat n.toNat)
  let r := cqRegion s d.toNat cluster.toNat n.toNat
  let c := max s.now (v.postAt + r.2)
  decide (s.present d.toNat = true) &&
  decide (v.st = .zeroing) &&
  decide (portBShut s (lnBank r.1) = false) &&
  decide (within s c = true)

def met_combineSlotArrive : Bool :=
  let s : State := (wreg 0 (.cqCtl 15 15) 0x00000001 (wreg 0 (.cqCfg 15 15) 0x00800000 up)).onQueues (fun q => { q with comb := [(255, { CombQ.idle with st := .running })] }) |> slots [{ read0 with stage := .granted, dst := .combining 0 15 15 0 0, kind := .combine, cls := .write, len := 256, ctx := some 5, due := 20, data := List.replicate 256 1 }]
  let id : Nat := 1
  match (slotAt s id .granted : Option (Slot)) with
  | none => false
  | some x =>
  match ((match x.dst with | .combining d k n off cidx => some (d, k, n, off, cidx) | _ => none) : Option (Die × Cluster × BitVec 4 × BitVec 48 × BitVec 16)) with
  | none => false
  | some q =>
  match (x.ctx : Option (CtxId)) with
  | none => false
  | some _ =>
  let key := cqKey q.1.toNat q.2.1.toNat q.2.2.1.toNat
  let region := cqRegion s q.1.toNat q.2.1.toNat q.2.2.1.toNat
  let busy := (s.fabric.accs.filter (fun a => region.1 ≤ a.line && a.line < region.1 + region.2)).map (fun a => a.cycle + 1)
  match (addCycle s (lnBank region.1) (addLines s q.1.toNat q.2.1.toNat q.2.2.1.toNat q.2.2.2.2.toNat x.len) (max s.now (max x.due (maxOf busy))) : Option (Nat)) with
  | none => false
  | some c =>
  match (slotAt (advanceTo s c) id .granted : Option (Slot)) with
  | none => false
  | some y =>
  decide (stCode x.status = Code.done) &&
  decide (stCode y.status = Code.done) &&
  decide (combinesBefore s x = false) &&
  decide (rootStopped s = false) &&
  decide (domUp s q.1.toNat 47 = true) &&
  decide ((cqVerdict s x.ten.toNat q.1.toNat q.2.1.toNat q.2.2.1.toNat q.2.2.2.1.toNat q.2.2.2.2.toNat x.len).code = 0) &&
  decide (portBShut s (lnBank region.1) = false) &&
  decide ((cqOf s key).st = .running) &&
  decide (cqOrdered s q.1.toNat q.2.1.toNat q.2.2.1.toNat = false) &&
  decide (id ≤ s.fabric.nextSlot)

def met_cqPostRetry : Bool :=
  let s : State := (wreg 0 (.cqCfg 15 15) 0x00800000 shared).onQueues (fun q => { q with comb := [(255, { CombQ.idle with st := .complete, postWaiting := true })] })
  let d : Die := 0
  let cluster : Cluster := 15
  let n : BitVec 4 := 15
  let v := cqOf s (cqKey d.toNat cluster.toNat n.toNat)
  let cfg := cqReg s d.toNat cluster.toNat n.toNat
  let i := field (regGet s d.toNat (.cqNote cluster.toNat n.toNat)) 0 12
  let c := max s.now v.postAt
  decide (s.present d.toNat = true) &&
  decide (v.postWaiting = true) &&
  decide (bit cfg 23 = true) &&
  decide (field (rsReg s d.toNat i) 16 4 = field cfg 19 4) &&
  decide (bit (rsReg s d.toNat i) 23 = true) &&
  decide (within s c = true)

/-- Every clause of CombiningQueuesRunTheirRounds has a state and operands that meet all its hypotheses. -/
theorem witness_CombiningQueuesRunTheirRounds :
    [met_cqStart_1, met_cqStart_2, met_cqZeroingDone, met_combineSlotArrive, met_cqPostRetry].all id = true := by decide +kernel

/-! ### OutboundTransfersLeaveAndReturn -/

def met_rwinCfgWrite_1 : Bool :=
  let s : State := node5
  let d : Die := 0
  let win : Win := 0
  let n : BitVec 10 := 1023
  let reg : RwinReg := .cfg
  let val : Word := 0x00B85FFF
  let old := regSeen s d.toNat (.rwinCfg n.toNat)
  decide (s.present d.toNat = true) &&
  decide (domUp s d.toNat 46 = true) &&
  decide (reg = .cfg) &&
  decide (routTen s d.toNat n.toNat = some win.toNat) &&
  decide (bit val 23 = true) &&
  decide (bit val 22 = false) &&
  decide (field val 0 15 ≤ 24575) &&
  decide (field val 0 15 ≠ nodeOf s d.toNat) &&
  decide (bit old 23 = false)

def met_rwinCfgWrite_2 : Bool :=
  let s : State := wreg 0 (.rwinCfg 1023) 0x00878009 node5
  let d : Die := 0
  let win : Win := 0
  let n : BitVec 10 := 1023
  let reg : RwinReg := .cfg
  let val : Word := 0x00000009
  let old := regSeen s d.toNat (.rwinCfg n.toNat)
  decide (s.present d.toNat = true) &&
  decide (domUp s d.toNat 46 = true) &&
  decide (reg = .cfg) &&
  decide (routTen s d.toNat n.toNat = some win.toNat) &&
  decide (bit val 23 = false) &&
  decide (bit old 23 = true) &&
  decide (field val 22 1 = field old 22 1) &&
  decide (field val 19 3 = field old 19 3) &&
  decide (field val 0 15 = field old 0 15)

def met_rwinCfgWrite_3 : Bool :=
  let s : State := up
  let d : Die := 0
  let win : Win := 0
  let n : BitVec 10 := 1023
  let reg : RwinReg := .peer
  decide (s.present d.toNat = true) &&
  decide (domUp s d.toNat 46 = true) &&
  decide (reg = .peer) &&
  decide (routTen s d.toNat n.toNat = some win.toNat)

def met_rwinCfgWrite_4 : Bool :=
  let s : State := up
  let d : Die := 0
  let win : Win := 4
  let n : BitVec 10 := 1023
  let reg : RwinReg := .ext
  decide (s.present d.toNat = true) &&
  decide (domUp s d.toNat 46 = true) &&
  decide (reg ≠ .cfg) &&
  decide (routTen s d.toNat n.toNat ≠ some win.toNat)

def met_putHandoff : Bool :=
  let s : State := outOne false (slots [{ putSlot with stage := .granted, due := 30 }] (wreg 0 .remNode 5 (runs [0x04000000])))
  let id : Nat := 1
  match (slotAt s id .granted : Option (Slot)) with
  | none => false
  | some x =>
  match (outMsgOf s id : Option (OutMsg)) with
  | none => false
  | some o =>
  match (x.ctx : Option (CtxId)) with
  | none => false
  | some c =>
  let k := max s.now x.due
  let m := advanceTo s k
  match (slotAt m id .granted : Option (Slot)) with
  | none => false
  | some y =>
  decide (within s k = true) &&
  decide (stCode y.status = Code.done) &&
  decide (y.ctx = some c) &&
  decide (outMsgOf m id = some o) &&
  decide (domUp s o.die 46 = true) &&
  decide (nodeOf m o.die ≠ 0x7FFF) &&
  decide (o.ring = false) &&
  decide (o.msg.sealedFlag = false) &&
  decide (ctxStopped m c = false)

def met_getRequestAtEngine : Bool :=
  let s : State := slots [{ getSlot with stage := .toEngine }] (wreg 0 (.rwinCfg 0) 0x00800009 (wreg 0 .remNode 5 (runs [0x04000000])))
  let id : Nat := 1
  match (slotAt s id .toEngine : Option (Slot)) with
  | none => false
  | some x =>
  match (x.remoteEnd : Option (Nat × Nat × Bool)) with
  | none => false
  | some r =>
  match (x.ctx : Option (CtxId)) with
  | none => false
  | some c =>
  match (outMsgOf (takeRemote s x) id : Option (OutMsg)) with
  | none => false
  | some o =>
  decide (ctxDie c = hDie r.1 ∨ (dieOpen s (ctxDie c) && dieOpen s (hDie r.1)) = true) &&
  decide ((checkRemote s x).code = 0) &&
  decide (nodeOf s o.die ≠ 0x7FFF) &&
  decide (o.msg.sealedFlag = false)

def met_getdataReceive : Bool :=
  let s : State := outOne true (slots [{ getSlot with stage := .atPeer }] up)
  let d : Die := 0
  let msg : RemoteMsg := reply 4 0 [9, 9, 9, 9]
  match (repliedTo s d.toNat msg : Option (OutMsg)) with
  | none => false
  | some o =>
  match ((outSlots s o).head? : Option (Slot)) with
  | none => false
  | some x =>
  match (openReply s o msg : Option (List Byte)) with
  | none => false
  | some _ =>
  decide (s.present d.toNat = true) &&
  decide (domUp s d.toNat 46 = true) &&
  decide (msg.kind = 4) &&
  decide (x.abandoned = false) &&
  decide (x.stage = .atPeer)

def met_remoteStatusReceive_1 : Bool :=
  let s : State := outOne true (slots [{ putSlot with stage := .handedOff }] (runs [0x04000000]))
  let d : Die := 0
  let msg : RemoteMsg := reply 5 5 []
  match (repliedTo s d.toNat msg : Option (OutMsg)) with
  | none => false
  | some o =>
  decide (s.present d.toNat = true) &&
  decide (domUp s d.toNat 46 = true) &&
  decide (msg.kind = 5) &&
  decide (msg.code.toNat ≠ Code.busy) &&
  decide ((outSlots s o).all (fun x => !x.abandoned) = true) &&
  decide ((openReply s o msg).isSome = true) &&
  decide (s.fabric.slots.all (fun x => x.id ≤ s.fabric.nextSlot) = true)

def met_remoteStatusReceive_2 : Bool :=
  let s : State := (slots [{ putSlot with stage := .handedOff }] (runs [0x04000000])).onRemote (fun r => { r with outMsgs := [⟨[1], 0, 0, 0, false, true, { put4 with sealedFlag := true }⟩] })
  let d : Die := 0
  let msg : RemoteMsg := reply 5 5 []
  match (repliedTo s d.toNat msg : Option (OutMsg)) with
  | none => false
  | some o =>
  decide (s.present d.toNat = true) &&
  decide (domUp s d.toNat 46 = true) &&
  decide (msg.kind = 5) &&
  decide ((outSlots s o).all (fun x => !x.abandoned) = true) &&
  decide (openReply s o msg = none)

def met_remoteOverdue : Bool :=
  let s : State := outOne true (tick 65536 (slots [{ getSlot with stage := .atPeer, due := 100 }] up))
  let id : Nat := 1
  match (s.fabric.slots.find? (fun x => x.id == id && (x.stage == .handedOff || x.stage == .atPeer) && !x.abandoned) : Option (Slot)) with
  | none => false
  | some x =>
  match (outMsgOf s id : Option (OutMsg)) with
  | none => false
  | some o =>
  let c := max s.now (x.due + 256 * max 1 (rf s o.die .wdogCtl 0 16))
  decide (s.remote.overdue.contains id = false) &&
  decide (within s c = true)

/-- Every clause of OutboundTransfersLeaveAndReturn has a state and operands that meet all its hypotheses. -/
theorem witness_OutboundTransfersLeaveAndReturn :
    [met_rwinCfgWrite_1, met_rwinCfgWrite_2, met_rwinCfgWrite_3, met_rwinCfgWrite_4, met_putHandoff, met_getRequestAtEngine,
     met_getdataReceive, met_remoteStatusReceive_1, met_remoteStatusReceive_2, met_remoteOverdue].all id = true := by decide +kernel

/-! ### InboundMessagesLandOrAreRefused -/

def met_remoteMessageArrive_1 : Bool :=
  let s : State := node5
  let d : Die := 0
  let msg : RemoteMsg := put4
  decide (s.present d.toNat = true) &&
  decide (domUp s d.toNat 46 = true) &&
  decide (msg.kind ≠ 4) &&
  decide (msg.kind ≠ 5) &&
  decide (nodeOf s d.toNat ≠ 0x7FFF) &&
  decide (((s.remote.staged.filter (fun m => m.die == d.toNat)).map (fun m => m.msg.payload.length)).foldl (· + ·) 0 + msg.payload.length ≤ 2 ^ 22)

def met_remoteMessageStaged_1 : Bool :=
  let s : State := stagedOne put4 inbound
  let msg : Nat := 1
  match (stagedOf s msg : Option (Staged)) with
  | none => false
  | some m =>
  match (rinTen s m.die m.win : Option (Nat)) with
  | none => false
  | some ten =>
  decide (m.checked = false) &&
  decide ((s.remote.staged.takeWhile (fun k => k.id != msg)).any (fun k => k.die == m.die && k.win == m.win && !k.checked) = false) &&
  decide (domUp s m.die 46 = true) &&
  decide (m.win < 1024) &&
  decide (nodeOf s m.die ≠ 0x7FFF) &&
  decide ((msgVerdict s m.die ten m.msg).code = 0)

def met_remoteMessageStaged_2 : Bool :=
  let s : State := stagedOne { put4 with epoch := 1 } inbound
  let msg : Nat := 1
  match (stagedOf s msg : Option (Staged)) with
  | none => false
  | some m =>
  match (rinTen s m.die m.win : Option (Nat)) with
  | none => false
  | some ten =>
  let v := msgVerdict s m.die ten m.msg
  decide (m.checked = false) &&
  decide ((s.remote.staged.takeWhile (fun k => k.id != msg)).any (fun k => k.die == m.die && k.win == m.win && !k.checked) = false) &&
  decide (domUp s m.die 46 = true) &&
  decide (m.win < 1024) &&
  decide (nodeOf s m.die ≠ 0x7FFF) &&
  decide (v.code ≠ 0) &&
  decide (m.msg.sealedFlag = false)

def met_inboundWindowOpen_1 : Bool :=
  let s : State := wreg 0 (.rinBuf 0) 5 node5
  let d : Die := 0
  let win : Win := 0
  let n : BitVec 10 := 0
  let val : Word := 0x002C0000
  decide (s.present d.toNat = true) &&
  decide (domUp s d.toNat 46 = true) &&
  decide (bit val 21 = true) &&
  decide (rinTen s d.toNat n.toNat = some win.toNat) &&
  decide (rinState s d.toNat n.toNat = 0) &&
  decide (openStatus s d.toNat n.toNat win.toNat val = Code.done)

def met_inboundWindowOpen_2 : Bool :=
  let s : State := wreg 0 (.rinBuf 0) 5 node5
  let d : Die := 0
  let win : Win := 9
  let n : BitVec 10 := 0
  let val : Word := 0x002C0000
  decide (s.present d.toNat = true) &&
  decide (domUp s d.toNat 46 = true) &&
  decide (bit val 21 = true) &&
  decide (rinTen s d.toNat n.toNat ≠ some win.toNat)

def met_inboundWindowClose : Bool :=
  let s : State := inbound
  let d : Die := 0
  let win : Win := 0
  let n : BitVec 10 := 0
  let val : Word := 0x000C0000
  decide (s.present d.toNat = true) &&
  decide (domUp s d.toNat 46 = true) &&
  decide (bit val 21 = false) &&
  decide (rinTen s d.toNat n.toNat = some win.toNat) &&
  decide (rinState s d.toNat n.toNat = 1) &&
  decide (field val 12 9 = rf s d.toNat (.rinCfg n.toNat) 12 9)

def met_inboundCloseComplete : Bool :=
  let s : State := wreg 0 (.rinCfg 1023) 0x00800000 (wreg 0 (.rinSrc 1023) 0xFFFF0000 up)
  let d : Die := 0
  let n : BitVec 10 := 1023
  decide (s.present d.toNat = true) &&
  decide (rinState s d.toNat n.toNat = 2) &&
  decide (domUp s d.toNat 46 = true) &&
  decide (s.remote.staged.any (fun m => m.die == d.toNat && m.win == n.toNat && (messageSlots s m.id).any (fun x => x.kind == .landing m.id)) = false)

def met_rinHeadWrite_1 : Bool :=
  let s : State := wreg 0 (.rinTail 0) 3 (wreg 0 (.rinHead 0) 0xF00 inbound)
  let d : Die := 0
  let writer : RinWriter := .core 511
  let n : BitVec 10 := 0
  let val : Word := 0x00000F02
  let ten := (match writer with | .window w => w.toNat | .core c => coreTag s d.toNat c.toNat)
  let z := rinSize s d.toNat n.toNat
  let head := rf s d.toNat (.rinHead n.toNat) 0 22 * 256
  decide (s.present d.toNat = true) &&
  decide (domUp s d.toNat 46 = true) &&
  decide (rinTen s d.toNat n.toNat = some ten) &&
  decide ((field val 0 22 * 256 + z - head % z) % z ≤ (rf s d.toNat (.rinTail n.toNat) 0 22 * 256 + z - head % z) % z)

def met_rinHeadWrite_2 : Bool :=
  let s : State := inbound
  let d : Die := 0
  let writer : RinWriter := .window 9
  let n : BitVec 10 := 0
  let val : Word := 0
  let ten := (match writer with | .window w => w.toNat | .core c => coreTag s d.toNat c.toNat)
  let z := rinSize s d.toNat n.toNat
  let head := rf s d.toNat (.rinHead n.toNat) 0 22 * 256
  decide (s.present d.toNat = true) &&
  decide (domUp s d.toNat 46 = true) &&
  decide (rinTen s d.toNat n.toNat ≠ some ten) &&
  decide ((field val 0 22 * 256 + z - head % z) % z ≤ (rf s d.toNat (.rinTail n.toNat) 0 22 * 256 + z - head % z) % z)

/-- Every clause of InboundMessagesLandOrAreRefused has a state and operands that meet all its hypotheses; for stagingFull see below. -/
theorem witness_InboundMessagesLandOrAreRefused :
    [met_remoteMessageArrive_1, met_remoteMessageStaged_1, met_remoteMessageStaged_2, met_inboundWindowOpen_1,
     met_inboundWindowOpen_2, met_inboundWindowClose, met_inboundCloseComplete, met_rinHeadWrite_1, met_rinHeadWrite_2].all id = true := by decide +kernel

/-! ### BallotsAndDigestJobsDecide -/

def met_djobCfgWrite_1 : Bool :=
  let s : State := wreg 0 (.djobKey 255 3) 1 up
  let d : Die := 0
  let win : Win := 0
  let n : BitVec 8 := 255
  let val : Word := 0x0080FFFE
  decide (s.present d.toNat = true) &&
  decide (djobTen s d.toNat n.toNat = some win.toNat) &&
  decide (bit val 23 = true) &&
  decide (djobNoKey s d.toNat n.toNat = false) &&
  decide (field val 0 16 ≠ 0xFFFF) &&
  decide (djobTaken s d.toNat win.toNat n.toNat (field val 0 16) = false)

def met_djobCfgWrite_2 : Bool :=
  let s : State := wreg 0 (.djobKey 255 3) 1 up
  let d : Die := 0
  let win : Win := 0
  let n : BitVec 8 := 255
  let val : Word := 0
  decide (s.present d.toNat = true) &&
  decide (djobTen s d.toNat n.toNat = some win.toNat) &&
  decide (bit val 23 = false)

def met_djobCfgWrite_3 : Bool :=
  let s : State := up
  let d : Die := 0
  let win : Win := 4
  let n : BitVec 8 := 255
  let val : Word := 0
  decide (s.present d.toNat = true) &&
  decide (djobTen s d.toNat n.toNat ≠ some win.toNat) &&
  decide ((bit val 23 && (djobNoKey s d.toNat n.toNat || field val 0 16 == 0xFFFF || (djobTen s d.toNat n.toNat).any (fun e => djobTaken s d.toNat e n.toNat (field val 0 16)))) = false)

def met_ballotCfgWrite_1 : Bool :=
  let s : State := up
  let d : Die := 0
  let win : Win := 0
  let b : BitVec 8 := 255
  let val : Word := 0x00BC0000
  let old := copyView s d.toNat (.ballotCfg b.toNat)
  decide (s.present d.toNat = true) &&
  decide (win = 0) &&
  decide (bit val 23 = false ∨ (field val 16 3 ≠ 0 ∧ s.present (ballotHome val) = true)) &&
  decide (bit old 23 = false ∨ field val 0 23 = field old 0 23)

def met_ballotCfgWrite_2 : Bool :=
  let s : State := up
  let d : Die := 0
  let win : Win := 4
  let val : Word := 0
  decide (s.present d.toNat = true) &&
  decide (win ≠ 0) &&
  decide (bit val 23 = false)

def met_ballotPostArrive : Bool :=
  let s : State := balloted.onReplicas (fun r => { r with posts := [⟨1, 5, 0, 2, 77, 0, false, 0⟩] })
  let post : Nat := 1
  match (s.replicas.posts.find? (fun p => p.id == post && !p.done) : Option (BallotPost)) with
  | none => false
  | some _ =>
  true

def met_ballotPostStatusReceive : Bool :=
  let s : State := (one { running [0x72800005] with d := 9, key := some 3, onSeq := false, opFlight := true }).onReplicas (fun r => { r with posts := [⟨1, 5, 5, 0, 9, 0, true, 0⟩] })
  let post : Nat := 1
  match (s.replicas.posts.find? (fun p => p.id == post && p.done) : Option (BallotPost)) with
  | none => false
  | some p =>
  let x := ctxOf s p.ctx
  match ((match currentInstr x with | some (.digest _ v _) => some v | _ => none) : Option (Bool)) with
  | none => false
  | some _ =>
  decide (x.opFlight = true) &&
  decide (x.stop = .no) &&
  decide (stCode p.status = Code.done)

def met_ballotDecide : Bool :=
  let s : State := ballot0 { Ballot.empty with posts := [(0, 7, 5), (1, 7, 6), (2, 8, 9)] } balloted
  let d : Die := 0
  let b : BitVec 8 := 0
  let v := ballotOf s d.toNat b.toNat
  decide (s.present d.toNat = true) &&
  decide (ballotHeld s d.toNat b.toNat = true) &&
  decide (v.decided = false) &&
  decide (v.posts.length = ballotReps (ballotCfg s d.toNat b.toNat))

def met_ballotVerdictRetry : Bool :=
  let s : State := wreg 0 (.rsCfg 0) 0x00800000 (ballot0 { Ballot.empty with posts := [(0, 7, 5)], decided := true, verdict := 1, verdictWaiting := true, firstPost := 0 } (tick 255 balloted)) |> fun s => { s with frame := 1 }
  let d : Die := 0
  let b : BitVec 8 := 0
  let v := ballotOf s d.toNat b.toNat
  let w := ballotCfg s d.toNat b.toNat
  let i := field w 0 12
  let c := max s.now v.postAt
  let m := advanceTo s c
  decide (s.present d.toNat = true) &&
  decide (ballotHeld s d.toNat b.toNat = true) &&
  decide (v.decided = true) &&
  decide (v.verdictWaiting = true) &&
  decide (within s c = true) &&
  decide (field (rsReg m d.toNat i) 16 4 = ballotTen w) &&
  decide (bit (rsReg m d.toNat i) 23 = true)

def met_ballotReopen : Bool :=
  let s : State := ballot0 { Ballot.empty with posts := [(0, 7, 5)], decided := true } balloted
  let d : Die := 0
  let win : Win := 0
  let b : BitVec 8 := 0
  let v := ballotOf s d.toNat b.toNat
  decide (s.present d.toNat = true) &&
  decide (ballotHeld s d.toNat b.toNat = true) &&
  decide (win = 0 ∨ win.toNat = ballotTen (ballotCfg s d.toNat b.toNat)) &&
  decide (v.decided = true)

def met_ballotStall : Bool :=
  let s : State := ballot0 { Ballot.empty with posts := [(0, 7, 5)], firstPost := 100 } (tick 65536 balloted)
  let d : Die := 0
  let b : BitVec 8 := 0
  let v := ballotOf s d.toNat b.toNat
  let c := max s.now (v.firstPost + 256 * max 1 (rf s d.toNat .wdogCtl 0 16))
  decide (s.present d.toNat = true) &&
  decide (ballotHeld s d.toNat b.toNat = true) &&
  decide (v.posts ≠ []) &&
  decide (v.decided = false) &&
  decide (v.stallLogged = false) &&
  decide (within s c = true)

/-- Every clause of BallotsAndDigestJobsDecide has a state and operands that meet all its hypotheses. -/
theorem witness_BallotsAndDigestJobsDecide :
    [met_djobCfgWrite_1, met_djobCfgWrite_2, met_djobCfgWrite_3, met_ballotCfgWrite_1, met_ballotCfgWrite_2,
     met_ballotPostArrive, met_ballotPostStatusReceive, met_ballotDecide, met_ballotVerdictRetry, met_ballotReopen,
     met_ballotStall].all id = true := by decide +kernel

/-! ### SelfTestRecordsWhatItFinds -/

def met_crossCheck : Bool :=
  let s : State := up
  let d : Die := 0
  let kind : BitVec 2 := 3
  let pair : BitVec 5 := 16
  decide (s.present d.toNat = true) &&
  decide (pair.toNat < xchkPairs kind.toNat) &&
  decide (rf s d.toNat .xchkCtl kind.toNat 1 = 1) &&
  decide (xchkSeed s d.toNat ≠ 0) &&
  decide ((match xchkDomain kind.toNat pair.toNat with | some m => domUp s d.toNat m | none => true) = true) &&
  decide (pairIdle s d.toNat kind.toNat pair.toNat = true)

def met_scan_1 : Bool :=
  let s : State := given' (host 0) 0x51 [0] up
  let src : CmdSrc := host 0
  let n := cmdArgF s src 0 0 8
  decide (given s src 0x51 = true) &&
  decide (n ≤ 47) &&
  decide (src.win = some 0) &&
  decide (mayScan s src.die n = true) &&
  decide (SMap.find s.replicas.scans src.die = none)

def met_scan_2 : Bool :=
  let s : State := given' (host 1) 0x51 [47] (wreg 0 (.tenStat 1) 0x40000000 up)
  let src : CmdSrc := host 1
  decide (given s src 0x51 = true) &&
  decide (cmdArgF s src 0 0 8 ≤ 47) &&
  decide (src.win ≠ some 0)

def met_scanComplete : Bool :=
  let s : State := (going (host 0) 0x51 [0] up).onReplicas (fun r => { r with scans := [(0, ⟨0, host 0, 0⟩)] })
  let d : Die := 0
  let outcome : ScanOutcome := .fail 0xFFFF
  match (SMap.find s.replicas.scans d.toNat : Option (Scan)) with
  | none => false
  | some x =>
  decide (s.present d.toNat = true) &&
  decide ((match outcome with | .pass => x.found == 0 | .fail _ => x.found == 0 | .patternBad => x.found == 3 | .noFlash => x.found == 4) = true) &&
  decide (cmdState s x.src = 2)

def met_hardenFix : Bool :=
  let s : State := wreg 0 .hardenStat 0xFFFE0000 up
  let d : Die := 0
  let off : Word := 0x40
  let copy : BitVec 2 := 2
  match (hardenedAt s d.toNat off : Option (Reg)) with
  | none => false
  | some r =>
  decide (s.present d.toNat = true) &&
  decide (isUnsafe s d.toNat r = false) &&
  decide (copy ≠ 3) &&
  decide (SMap.find s.replicas.strays (key d.toNat r) = none)

def met_hardenLost : Bool :=
  let s : State := up
  let d : Die := 0
  let off : Word := 0x40
  match (hardenedAt s d.toNat off : Option (Reg)) with
  | none => false
  | some r =>
  decide (s.present d.toNat = true) &&
  decide (isUnsafe s d.toNat r = false)

def met_barometerSample : Bool :=
  let s : State := { up with pkgTime := 86400000000 }
  let d : Die := 0
  decide (s.present d.toNat = true) &&
  decide (SMap.get s.replicas.sampled d.toNat 0 < dayOf s)

/-- Every clause of SelfTestRecordsWhatItFinds has a state and operands that meet all its hypotheses. -/
theorem witness_SelfTestRecordsWhatItFinds :
    [met_crossCheck, met_scan_1, met_scan_2, met_scanComplete, met_hardenFix, met_hardenLost, met_barometerSample].all id = true := by decide +kernel

/-! ### TenanciesOpenAndClose -/

def met_tenOpen_1 : Bool :=
  let s : State := lc 2 (given' (host 0) 0x30 [15] up)
  let src : CmdSrc := host 0
  let n := cmdArgF s src 0 0 4
  decide (given s src 0x30 = true) &&
  decide (n ≠ 0) &&
  decide (src.win = some 0) &&
  decide (lifeCycle s src.die = 2) &&
  decide (tenState s src.die n = 0)

def met_tenOpen_2 : Bool :=
  let s : State := lc 1 (given' (host 0) 0x30 [15] up)
  let src : CmdSrc := host 0
  let n := cmdArgF s src 0 0 4
  decide (given s src 0x30 = true) &&
  decide (n ≠ 0) &&
  decide (src.win = some 0) &&
  decide (lifeCycle s src.die ≠ 2 ∨ tenState s src.die n ≠ 0)

def met_tenClose : Bool :=
  let s : State := wreg 0 (.tenStat 15) 0x40000000 (lc 2 (given' (host 0) 0x31 [15] up))
  let src : CmdSrc := host 0
  let n := cmdArgF s src 0 0 4
  decide (given s src 0x31 = true) &&
  decide (n ≠ 0) &&
  decide (src.win = some 0) &&
  decide (lifeCycle s src.die = 2) &&
  decide (tenState s src.die n = 1)

def met_tenCloseDone : Bool :=
  let s : State := (wreg 0 (.tenStat 15) 0x80000000 (going (host 0) 0x31 [15] up)).onSecurity (fun u => { u with closing := [(15, 2)] })
  let src : CmdSrc := host 0
  let n := cmdArgF s src 0 0 4
  decide (ongoing s src 0x31 = true) &&
  decide (closeStep s src.die n = 2) &&
  decide (closingBank s src.die n = false)

/-- Every clause of TenanciesOpenAndClose has a state and operands that meet all its hypotheses. -/
theorem witness_TenanciesOpenAndClose :
    [met_tenOpen_1, met_tenOpen_2, met_tenClose, met_tenCloseDone].all id = true := by decide +kernel

/-! ### KeysAreLoadedErasedAndAttested -/

def met_keyLoad_1 : Bool :=
  let s : State := (given' (host 0) 0x32 [31] up).onSecurity (fun u => { u with transport := [(0, 7)] })
  let src : CmdSrc := host 0
  let d := src.die
  let n := cmdTen s src
  let k := cmdArgF s src 0 0 5
  decide (given s src 0x32 = true) &&
  decide (src.win.isSome = true) &&
  match (SMap.find s.security.transport (transportIdx d n) : Option (BitVec 256)) with
  | none => false
  | some _ =>
  decide (sealedOut s d n k = []) &&
  decide (sealedIn s d n k (· != 0) = [])

def met_keyLoad_2 : Bool :=
  let s : State := given' (host 0) 0x32 [31] up
  let src : CmdSrc := host 0
  decide (given s src 0x32 = true) &&
  decide (src.win.isSome = true) &&
  decide (SMap.find s.security.transport (transportIdx src.die (cmdTen s src)) = none)

def met_keyErase : Bool :=
  let s : State := (given' (host 0) 0x33 [31] up).onSecurity (fun u => { u with keySlots := [(31, 7)] })
  let src : CmdSrc := host 0
  decide (given s src 0x33 = true) &&
  decide (src.win.isSome = true)

def met_attest : Bool :=
  let s : State := given' (host 0) 0x34 [] up
  let src : CmdSrc := host 0
  let d := src.die
  decide (given s src 0x34 = true) &&
  decide (src.win.isSome = true) &&
  decide (lifeCycle s d ≠ 3)

def met_certRead : Bool :=
  let s : State := (given' (host 0) 0x35 [2] up).onSecurity (fun u => { u with certChain := [(0, [1, 2, 3])] })
  let src : CmdSrc := host 0
  let d := src.die
  let off := cmdArgF s src 0 0 16
  decide (given s src 0x35 = true) &&
  decide (src.win.isSome = true) &&
  decide (off < (chainOf s d).length) &&
  decide (s.security.certBad.contains d = false)

/-- Every clause of KeysAreLoadedErasedAndAttested has a state and operands that meet all its hypotheses. -/
theorem witness_KeysAreLoadedErasedAndAttested :
    [met_keyLoad_1, met_keyLoad_2, met_keyErase, met_attest, met_certRead].all id = true := by decide +kernel

/-! ### LifeCycleTransitionsRun -/

def met_lcProvision : Bool :=
  let s : State := (given' (host 0) 0x38 [] up).onSecurity (fun u => { u with keySlots := [(31, 7)] })
  let src : CmdSrc := host 0
  decide (given s src 0x38 = true) &&
  decide (src.win = some 0) &&
  decide ((List.range 4).all (fun i => rf s src.die .secPolicy (2 * i) 2 != 3) = true) &&
  decide (lifeCycle s src.die = 0) &&
  decide (liveCtx s src.die = false) &&
  decide (fwScheduled s = false)

def met_lcDeploy_1 : Bool :=
  let s : State := (lc 1 (given' (host 0) 0x39 [] up)).onSecurity (fun u => { u with keySlots := [(31, 7)] })
  let src : CmdSrc := host 0
  decide (given s src 0x39 = true) &&
  decide (src.win = some 0) &&
  decide (lifeCycle s src.die = 1) &&
  decide (liveCtx s src.die = false) &&
  decide (fwScheduled s = false)

def met_lcMaintain : Bool :=
  let s : State := lc 0x72 (given' (host 0) 0x3A [] up)
  let src : CmdSrc := host 0
  decide (given s src 0x3A = true) &&
  decide (src.win = some 0) &&
  decide (lifeCycle s src.die = 2) &&
  decide (tenanciesFree s src.die = true) &&
  decide (rf s src.die .lcStat 4 4 < 8) &&
  decide (liveCtx s src.die = false) &&
  decide (fwScheduled s = false)

def met_lcReturn : Bool :=
  let s : State := lc 2 (given' (host 0) 0x3B [] up)
  let src : CmdSrc := host 0
  decide (given s src 0x3B = true) &&
  decide (src.win = some 0) &&
  decide (lifeCycle s src.die = 1 ∨ lifeCycle s src.die = 2) &&
  decide (tenanciesFree s src.die = true) &&
  decide (liveCtx s src.die = false) &&
  decide (fwScheduled s = false)

def met_lcDeploy_2 : Bool :=
  let s : State := lc 2 (given' (host 0) 0x39 [] up)
  let src : CmdSrc := host 0
  decide (given s src 0x39 = true) &&
  decide (src.win = some 0) &&
  decide (lifeCycle s src.die ≠ 1 ∨ liveCtx s src.die = true ∨ fwScheduled s = true)

def met_lcFuseProgramDone : Bool :=
  let s : State := (lc 2 (going (host 0) 0x3A [] up)).onSecurity (fun u => { u with lcBusy := [(0, (1, host 0))] })
  let d : Die := 0
  match (SMap.find s.security.lcBusy d.toNat : Option (BitVec 2 × CmdSrc)) with
  | none => false
  | some p =>
  decide (s.present d.toNat = true) &&
  decide (clearing s d.toNat = []) &&
  decide (cmdState s p.2 = 2)

/-- Every clause of LifeCycleTransitionsRun has a state and operands that meet all its hypotheses. -/
theorem witness_LifeCycleTransitionsRun :
    [met_lcProvision, met_lcDeploy_1, met_lcMaintain, met_lcReturn, met_lcDeploy_2, met_lcFuseProgramDone].all id = true := by decide +kernel

/-! ### TamperSourcesRaiseTheAlarm -/

def met_tamperRaise_1 : Bool :=
  let s : State := (wreg 0 .secPolicy 0x140 up).onSecurity (fun u => { u with keySlots := [(31, 7)] })
  let d : Die := 0
  let source : BitVec 2 := 3
  let k := source.toNat
  decide (s.present d.toNat = true) &&
  decide (rf s d.toNat .secAlarm (16 + k) 1 = 0)

def met_tamperRaise_2 : Bool :=
  let s : State := wreg 0 .secAlarm 0x00080000 up
  let d : Die := 0
  let source : BitVec 2 := 3
  decide (s.present d.toNat = true) &&
  decide (rf s d.toNat .secAlarm (16 + source.toNat) 1 = 1)

def met_tamperEnd : Bool :=
  let s : State := wreg 0 .secAlarm 0x00080008 up
  let d : Die := 0
  decide (s.present d.toNat = true)

def met_alarm : Bool :=
  let s : State := given' (.side 0 0) 0x40 [1] up
  let src : CmdSrc := .side 0 0
  let action := cmdArgF s src 0 0 2
  decide (given s src 0x40 = true) &&
  decide (action ≠ 3) &&
  decide (src.win = some 0)

def met_alarmRingReceive : Bool :=
  let s : State := up.onSecurity (fun u => { u with alarms := [⟨0, 1, 1, 2⟩] })
  let d : Die := 0
  let origin : Die := 1
  let action : BitVec 2 := 1
  match (s.security.alarms.find? (fun w => w.receiver == d.toNat && w.origin == origin.toNat && w.action == action.toNat) : Option (AlarmWord)) with
  | none => false
  | some _ =>
  decide (s.present d.toNat = true) &&
  decide (dieOpen s d.toNat = true)

/-- Every clause of TamperSourcesRaiseTheAlarm has a state and operands that meet all its hypotheses. -/
theorem witness_TamperSourcesRaiseTheAlarm :
    [met_tamperRaise_1, met_tamperRaise_2, met_tamperEnd, met_alarm, met_alarmRingReceive].all id = true := by decide +kernel

/-! ### PowerDomainsGoUpAndDown -/

def met_pwrDown_1 : Bool :=
  let s : State := given' (host 0) 0x48 [47] up
  let src : CmdSrc := host 0
  let d := src.die
  let n := cmdDomain s src
  decide (given s src 0x48 = true) &&
  decide (cmdArgF s src 0 8 1 = 0) &&
  decide (n ≤ 47) &&
  decide (src.win = some 0) &&
  decide (domUp s d n = true) &&
  decide (mayPowerDown s d n = true)

def met_pwrDown_2 : Bool :=
  let s : State := given' (host 0) 0x48 [47] (domSt 0 47 .down up)
  let src : CmdSrc := host 0
  let d := src.die
  let n := cmdDomain s src
  decide (given s src 0x48 = true) &&
  decide (cmdArgF s src 0 8 1 = 0) &&
  decide (n ≤ 47) &&
  decide (src.win = some 0) &&
  decide (domUp s d n = false ∨ mayPowerDown s d n = false)

def met_pwrDownComplete : Bool :=
  let s : State := domSt 0 47 .goingDown up
  let d : Die := 0
  let dom_ : BitVec 6 := 47
  let n := dom_.toNat
  decide (s.present d.toNat = true) &&
  decide ((dom s d.toNat n).st = .goingDown)

def met_pwrDownForce : Bool :=
  let s : State := given' (.side 0 0) 0x48 [0x12F] up
  let src : CmdSrc := .side 0 0
  let d := src.die
  let n := cmdDomain s src
  decide (given s src 0x48 = true) &&
  decide (cmdArgF s src 0 8 1 = 1) &&
  decide (n ≤ 47) &&
  decide (src.win = some 0) &&
  decide ((dom s d n).st ≠ .down)

def met_pwrUp : Bool :=
  let s : State := given' (host 0) 0x49 [47] (domSt 0 47 .down up)
  let src : CmdSrc := host 0
  let d := src.die
  let n := cmdDomain s src
  decide (given s src 0x49 = true) &&
  decide (n ≤ 47) &&
  decide (src.win = some 0) &&
  decide ((dom s d n).st = .down)

def met_pwrUpComplete : Bool :=
  let s : State := domSt 0 47 .goingUp up
  let d : Die := 0
  let dom_ : BitVec 6 := 47
  let n := dom_.toNat
  decide (s.present d.toNat = true) &&
  decide ((dom s d.toNat n).st = .goingUp)

def met_regulatorLowEntry : Bool :=
  let s : State := { up with regs := (0x300 + 4 * 39, 0x00400000) :: (domainBanks 0 39).map (fun b => (key 0 (.bankPwr b), 0x00030000)) }
  let d : Die := 0
  let dom_ : BitVec 6 := 39
  let n := dom_.toNat
  decide (s.present d.toNat = true) &&
  decide (n < 40) &&
  decide ((dom s d.toNat n).st = .up) &&
  decide ((dom s d.toNat n).low = false) &&
  decide (rf s d.toNat (.pwrDom n) 22 1 = 1) &&
  decide ((domainBanks d.toNat n).all (asleep s) = true) &&
  decide (retBanks s d.toNat n ≤ 40) &&
  decide (dieStopped s d.toNat = false) &&
  decide (within s (tickFrom s.now) = true)

def met_brownout : Bool :=
  let s : State := up
  let d : Die := 0
  let dom_ : BitVec 6 := 47
  let n := dom_.toNat
  decide (s.present d.toNat = true) &&
  decide (mayBrownOut s d.toNat n = true)

/-- Every clause of PowerDomainsGoUpAndDown has a state and operands that meet all its hypotheses. -/
theorem witness_PowerDomainsGoUpAndDown :
    [met_pwrDown_1, met_pwrDown_2, met_pwrDownComplete, met_pwrDownForce, met_pwrUp, met_pwrUpComplete, met_regulatorLowEntry,
     met_brownout].all id = true := by decide +kernel

/-! ### PerformanceLevelsChangeInSteps -/

def met_perfChangeStart : Bool :=
  let s : State := changeOf (.pending 0) 2 up
  let d : Die := 0
  match (SMap.find s.power.perf d.toNat : Option (PerfChange)) with
  | none => false
  | some p =>
  match ((match p.step with | .pending f => some f | _ => none) : Option (Nat)) with
  | none => false
  | some f =>
  decide (s.now = 256 * s.frame) &&
  decide (s.present d.toNat = true) &&
  decide (f ≤ s.frame) &&
  decide (p.own = true ∨ dieOpen s d.toNat = true)

def met_perfRampDone_1 : Bool :=
  let s : State := changeOf (.ramp true) 0 (wreg 0 .perfStat 1 up)
  let d : Die := 0
  match (SMap.find s.power.perf d.toNat : Option (PerfChange)) with
  | none => false
  | some p =>
  decide (s.present d.toNat = true) &&
  decide (p.step = .ramp true)

def met_perfRampDone_2 : Bool :=
  let s : State := changeOf (.ramp false) 2 up
  let d : Die := 0
  match (SMap.find s.power.perf d.toNat : Option (PerfChange)) with
  | none => false
  | some p =>
  decide (s.present d.toNat = true) &&
  decide (p.step = .ramp false)

def met_perfRelockDone_1 : Bool :=
  let s : State := changeOf (.relock true) 2 up
  let d : Die := 0
  match (SMap.find s.power.perf d.toNat : Option (PerfChange)) with
  | none => false
  | some p =>
  decide (s.present d.toNat = true) &&
  decide (p.step = .relock true)

def met_perfRelockDone_2 : Bool :=
  let s : State := changeOf (.relock false) 2 up
  let d : Die := 0
  match (SMap.find s.power.perf d.toNat : Option (PerfChange)) with
  | none => false
  | some p =>
  decide (s.present d.toNat = true) &&
  decide (p.step = .relock false)

def met_doze : Bool :=
  let s : State := given' (host 0) 0x4B [] ((List.range 8).foldl (fun s i => domSt 0 (40 + i) .down s) up)
  let src : CmdSrc := host 0
  let d := src.die
  decide (given s src 0x4B = true) &&
  decide (src.win = some 0) &&
  decide ((List.range 8).all (fun i => (dom s d (40 + i)).st == .down) = true) &&
  decide (SMap.find s.power.perf d = none)

def met_clkSwitch : Bool :=
  let s : State := given' (host 0) 0x4C [3] (wreg 0 .perfStat 0x20000000 up)
  let src : CmdSrc := host 0
  let d := src.die
  let level := cmdArgF s src 0 0 3
  decide (given s src 0x4C = true) &&
  decide (level ≤ 3) &&
  decide (src.win = some 0) &&
  decide (rf s d .perfStat 29 2 = 1) &&
  decide (SMap.find s.power.perf d = none)

/-- Every clause of PerformanceLevelsChangeInSteps has a state and operands that meet all its hypotheses; for perfSet see below. -/
theorem witness_PerformanceLevelsChangeInSteps :
    [met_perfChangeStart, met_perfRampDone_1, met_perfRampDone_2, met_perfRelockDone_1, met_perfRelockDone_2, met_doze,
     met_clkSwitch].all id = true := by decide +kernel

/-! ### MarchesTestRowByRow -/

def met_march : Bool :=
  let s : State := given' (host 0) 0x50 [39] up
  let src : CmdSrc := host 0
  let d := src.die
  let doms := marchDomains (cmdArgF s src 0 0 8)
  decide (given s src 0x50 = true) &&
  decide (passes (marchChecks s src) = true) &&
  decide (doms.all (fun n => (domainBanks d n).any (fun b => !retired s b)) = true)

def met_marchOperation_1 : Bool :=
  let s : State := marchAt false ⟨0, 0, []⟩
  let bank : BankNo := 5
  let reads : MarchReads := .good
  let b := bank.toNat
  decide (s.present (pbDie b) = true) &&
  match (marchOf s b : Option (Nat × MarchRun)) with
  | none => false
  | some km =>
  match (SMap.find km.2.banks b : Option (MarchBank)) with
  | none => false
  | some v =>
  match (nextPlace s b v.element v.row : Option (Nat × Nat)) with
  | none => false
  | some _ =>
  match (marchCycle s b (elementCycles false v.element) : Option (Nat)) with
  | none => false
  | some _ =>
  decide (km.2.preserving = false) &&
  decide (v.element < 5) &&
  decide ((pauseOf s b).any (fun p => p.kind == .march) = true) &&
  decide (reads = .good ∨ v.element = 0)

def met_marchOperation_2 : Bool :=
  let s : State := marchAt false ⟨4, 2052, []⟩
  let bank : BankNo := 5
  let b := bank.toNat
  decide (s.present (pbDie b) = true) &&
  match (marchOf s b : Option (Nat × MarchRun)) with
  | none => false
  | some km =>
  match (SMap.find km.2.banks b : Option (MarchBank)) with
  | none => false
  | some v =>
  decide (nextPlace s b v.element v.row = none) &&
  decide (km.2.preserving = false) &&
  decide (v.element < 5) &&
  decide ((pauseOf s b).any (fun p => p.kind == .march) = true)

def met_marchOperation_3 : Bool :=
  let s : State := marchAt true ⟨0, 2051, []⟩
  let bank : BankNo := 5
  let reads : MarchReads := .good
  let b := bank.toNat
  decide (s.present (pbDie b) = true) &&
  match (marchOf s b : Option (Nat × MarchRun)) with
  | none => false
  | some km =>
  match (SMap.find km.2.banks b : Option (MarchBank)) with
  | none => false
  | some v =>
  match (nextPlace s b 0 v.row : Option (Nat × Nat)) with
  | none => false
  | some qr =>
  match (nextCycle s b 6 s.now 4 : Option (Nat)) with
  | none => false
  | some _ =>
  decide (km.2.preserving = true) &&
  decide (passedOver s b qr.2 = false) &&
  decide (reads = .good)

def met_marchOperation_4 : Bool :=
  let s : State := marchAt false ⟨1, 10, []⟩
  let bank : BankNo := 5
  let reads : MarchReads := .bad
  let b := bank.toNat
  decide (s.present (pbDie b) = true) &&
  match (marchOf s b : Option (Nat × MarchRun)) with
  | none => false
  | some km =>
  match (SMap.find km.2.banks b : Option (MarchBank)) with
  | none => false
  | some v =>
  match (nextPlace s b v.element v.row : Option (Nat × Nat)) with
  | none => false
  | some qr =>
  match (marchCycle s b (elementCycles false v.element) : Option (Nat)) with
  | none => false
  | some _ =>
  match (freeSpare s b : Option (Nat)) with
  | none => false
  | some _ =>
  decide (km.2.preserving = false) &&
  decide (v.element = 1 ∨ v.element = 2 ∨ v.element = 3 ∨ v.element = 4) &&
  decide ((pauseOf s b).any (fun p => p.kind == .march) = true) &&
  decide (reads = .bad) &&
  decide (qr.2 < 2048) &&
  decide ((List.range 4).all (fun n => remapLine s b n != some qr.2) = true)

/-- Every clause of MarchesTestRowByRow has a state and operands that meet all its hypotheses. -/
theorem witness_MarchesTestRowByRow :
    [met_march, met_marchOperation_1, met_marchOperation_2, met_marchOperation_3, met_marchOperation_4].all id = true := by decide +kernel

/-! ### RetiredBanksAndFencedCoresStaySo -/

def met_bankRetire_1 : Bool :=
  let s : State := given' (host 0) 0x52 [0x800] up
  let src : CmdSrc := host 0
  decide (given s src 0x52 = true) &&
  match (cmdBank s src : Option (Nat)) with
  | none => false
  | some b =>
  decide (src.win = some 0) &&
  decide (retired s b = false)

def met_bankRetire_2 : Bool :=
  let s : State := given' (host 0) 0x52 [0x800] (wreg 0 (.bankTest 1) 0x80000000 up)
  let src : CmdSrc := host 0
  decide (given s src 0x52 = true) &&
  match (cmdBank s src : Option (Nat)) with
  | none => false
  | some b =>
  decide (src.win = some 0) &&
  decide (retired s b = true)

def met_coreFence_1 : Bool :=
  let s : State := given' (host 0) 0x53 [511] (wreg 0 (.coreTen 511) 0 up)
  let src : CmdSrc := host 0
  let d := src.die
  let core := cmdArgF s src 0 0 10
  decide (given s src 0x53 = true) &&
  decide (core ≤ 511) &&
  decide (src.win = some 0) &&
  decide (coreFenced s d core = false)

def met_coreFence_2 : Bool :=
  let s : State := given' (host 0) 0x53 [511] (wreg 0 (.coreFenced 15) 0x80000000 up)
  let src : CmdSrc := host 0
  decide (given s src 0x53 = true) &&
  decide (cmdArgF s src 0 0 10 ≤ 511) &&
  decide (src.win = some 0) &&
  decide (coreFenced s src.die (cmdArgF s src 0 0 10) = true)

def met_unfence : Bool :=
  let s : State := (given' (host 0) 0x54 [0x840] up).onFabric (fun f => { f with wdogFenced := [0x840, 5] })
  let src : CmdSrc := host 0
  let m := cmdArgF s src 0 0 12
  let ident := identOf src.die m
  decide (given s src 0x54 = true) &&
  decide (assigned m = true) &&
  decide (src.win = some 0) &&
  decide (masterStatus s src.die m ≠ Code.fenced) &&
  decide (s.fabric.wdogFenced.contains ident = true)

/-- Every clause of RetiredBanksAndFencedCoresStaySo has a state and operands that meet all its hypotheses. -/
theorem witness_RetiredBanksAndFencedCoresStaySo :
    [met_bankRetire_1, met_bankRetire_2, met_coreFence_1, met_coreFence_2, met_unfence].all id = true := by decide +kernel

/-! ### CommandSlotsRunThroughTheirStates -/

def met_cmdGo_1 : Bool :=
  let s : State := up
  let src : CmdSrc := .slot 0 15 63
  let val : Word := 0x28000034
  decide (s.present src.die = true) &&
  decide (src.isSide = false) &&
  decide (slotUp s src = true) &&
  decide (bit val 29 = true) &&
  decide (bit val 28 = false) &&
  decide (cmdState s src = 0)

def met_cmdGo_2 : Bool :=
  let s : State := wreg 0 (.cmdCtl 15 63) 0x80000034 up
  let src : CmdSrc := .slot 0 15 63
  let val : Word := 0x20000034
  decide (s.present src.die = true) &&
  decide (src.isSide = false) &&
  decide (slotUp s src = true) &&
  decide (bit val 29 = true) &&
  decide (cmdState s src ≠ 0) &&
  match (src.win : Option (Nat)) with
  | none => false
  | some _ =>
  true

def met_cmdRelease : Bool :=
  let s : State := wreg 0 (.streamSts 511) 5 (wreg 0 (.streamCtl 511) 0xC0000010 up)
  let src : CmdSrc := .core 0 511
  let val : Word := 0x10000000
  decide (s.present src.die = true) &&
  decide (slotUp s src = true) &&
  decide (bit val 28 = true) &&
  decide (bit val 29 = false) &&
  decide (cmdState s src = 3)

def met_cmdDispatch_1 : Bool :=
  let s : State := queuedOne (host 0) 0x34
  let src : CmdSrc := host 0
  decide (s.present src.die = true) &&
  decide (inTurn s src = true) &&
  decide (malformed s src = false)

def met_cmdDispatch_2 : Bool :=
  let s : State := queuedOne (host 0) 0xFF
  let src : CmdSrc := host 0
  decide (s.present src.die = true) &&
  decide (inTurn s src = true) &&
  decide (malformed s src = true)

def met_sideGo : Bool :=
  let s : State := up
  let d : Die := 0
  let win : Win := 15
  let val : Word := 0x20000061
  let src := CmdSrc.side d win
  decide (s.present d.toNat = true) &&
  decide (bit val 29 = true) &&
  decide (bit val 28 = false) &&
  decide (cmdState s src = 0)

def met_supStall : Bool :=
  let s : State := tick (2 ^ 21) (queuedOne (host 0) 0x34)
  let d : Die := 0
  match (s.sup.queued.find? (fun c => c.1.die == d.toNat && c.1.win.isSome) : Option (CmdSrc × Nat)) with
  | none => false
  | some q =>
  let c := max s.now (max q.2 (SMap.get s.sup.lastDispatch d.toNat 0) + 2 ^ 21)
  decide (s.present d.toNat = true) &&
  decide (s.sup.stalled.contains d.toNat = false) &&
  decide ((bootOf s d.toNat).asserted = false) &&
  decide ((bootOf s d.toNat).phase = 8 ∨ (bootOf s d.toNat).phase = 9) &&
  decide (within s c = true)

/-- Every clause of CommandSlotsRunThroughTheirStates has a state and operands that meet all its hypotheses. -/
theorem witness_CommandSlotsRunThroughTheirStates :
    [met_cmdGo_1, met_cmdGo_2, met_cmdRelease, met_cmdDispatch_1, met_cmdDispatch_2, met_sideGo, met_supStall].all id = true := by decide +kernel

/-! ### SideCommandsAnswer -/

def met_almanac_1 : Bool :=
  let s : State := given' (.side 0 0) 0x60 [0] up
  let src : CmdSrc := .side 0 0
  let e := cmdArgF s src 0 0 3
  decide (given s src 0x60 = true) &&
  decide (e = src.die)

def met_almanac_2 : Bool :=
  let s : State := given' (.side 0 0) 0x60 [1] up
  let src : CmdSrc := .side 0 0
  let e := cmdArgF s src 0 0 3
  decide (given s src 0x60 = true) &&
  decide (e ≠ src.die) &&
  decide (dieOpen s e = true) &&
  decide (dieOpen s src.die = true)

def met_almanac_3 : Bool :=
  let s : State := given' (.side 0 0) 0x60 [7] up
  let src : CmdSrc := .side 0 0
  let e := cmdArgF s src 0 0 3
  decide (given s src 0x60 = true) &&
  decide (e ≠ src.die) &&
  decide (s.present e = true) &&
  decide (dieOpen s e = false ∨ dieOpen s src.die = false)

def met_almanacRemoteCapture : Bool :=
  let s : State := up.onSup (fun u => { u with almanacs := [⟨0, 1, 3, none⟩] })
  let d : Die := 0
  let origin : Die := 1
  let win : Win := 3
  decide (s.present d.toNat = true) &&
  decide (s.present origin.toNat = true) &&
  decide (dieOpen s d.toNat = true) &&
  decide (s.sup.almanacs.any (fun a => a.target == d.toNat && a.origin == origin.toNat && a.win == win.toNat && a.data.isNone) = true)

def met_almanacReplyReceive : Bool :=
  let s : State := (going (.side 0 3) 0x60 [1] up).onSup (fun u => { u with almanacs := [⟨1, 0, 3, some [1, 2]⟩] })
  let d : Die := 0
  let win : Win := 3
  let src := CmdSrc.side d win
  match (s.sup.almanacs.find? (fun a => a.origin == d.toNat && a.win == win.toNat && a.data.isSome) : Option (AlmanacWord)) with
  | none => false
  | some a =>
  match (a.data : Option (List Byte)) with
  | none => false
  | some _ =>
  decide (ongoing s src 0x60 = true)

def met_drainStat : Bool :=
  let s : State := given' (.side 0 0) 0x61 [] (wreg 0 (.segCtl 0) 3 up)
  let src : CmdSrc := .side 0 0
  decide (given s src 0x61 = true) &&
  decide (src.win = some 0)

def met_dieReset : Bool :=
  let s : State := given' (.side 0 0) 0x62 [2] up
  let src : CmdSrc := .side 0 0
  let kind := cmdArgF s src 0 0 2
  decide (given s src 0x62 = true) &&
  decide (kind ≠ 3) &&
  decide (src.win = some 0)

/-- Every clause of SideCommandsAnswer has a state and operands that meet all its hypotheses. -/
theorem witness_SideCommandsAnswer :
    [met_almanac_1, met_almanac_2, met_almanac_3, met_almanacRemoteCapture, met_almanacReplyReceive, met_drainStat,
     met_dieReset].all id = true := by decide +kernel

/-! ### DieResetsLeaveWhatTheyMust -/

def met_powerOn : Bool :=
  let s : State := State.reset
  let d : Die := 7
  decide (s.present d.toNat = true)

def met_chipReset : Bool :=
  let s : State := (wreg 0 .secAlarm 0 up).onSecurity (fun u => { u with keySlots := [(31, 7)] })
  let d : Die := 0
  decide (s.present d.toNat = true) &&
  decide ((bootOf s d.toNat).powered = true)

def met_powerLoss : Bool :=
  let s : State := up
  let d : Die := 0
  decide (s.present d.toNat = true)

def met_resetRelease : Bool :=
  let s : State := State.reset
  let d : Die := 0
  decide (s.present d.toNat = true) &&
  decide ((bootOf s d.toNat).asserted = true) &&
  decide ((bootOf s d.toNat).powered = true)

/-- Every clause of DieResetsLeaveWhatTheyMust has a state and operands that meet all its hypotheses. -/
theorem witness_DieResetsLeaveWhatTheyMust :
    [met_powerOn, met_chipReset, met_powerLoss, met_resetRelease].all id = true := by decide +kernel

/-! ### StartUpGoesPhaseByPhase -/

def met_bootPhaseComplete_1 : Bool :=
  let s : State := inPhase 0 4 State.reset
  let d : Die := 0
  let outcome : BootOutcome := .fail 5
  match ((match outcome with | .fail r => some r | _ => none) : Option (BitVec 4)) with
  | none => false
  | some r =>
  decide (s.present d.toNat = true) &&
  decide ((bootOf s d.toNat).asserted = false) &&
  decide (mayFail (bootOf s d.toNat).phase r.toNat = true)

def met_bootPhaseComplete_2 : Bool :=
  let s : State := inPhase 0 2 State.reset
  let d : Die := 0
  let outcome : BootOutcome := .ok true
  decide (s.present d.toNat = true) &&
  decide ((bootOf s d.toNat).asserted = false) &&
  decide (outcome = .ok true)

def met_bootPhaseComplete_3 : Bool :=
  let s : State := boot 0 (fun b => { b with heardLevel := some 3 }) (inPhase 0 3 State.reset)
  let d : Die := 0
  let outcome : BootOutcome := .ok true
  match ((bootOf s d.toNat).heardLevel : Option (BitVec 2)) with
  | none => false
  | some _ =>
  decide (s.present d.toNat = true) &&
  decide ((bootOf s d.toNat).asserted = false) &&
  decide ((bootOf s d.toNat).phase = 3) &&
  decide (outcome = .ok true)

def met_beaconListenTimeout : Bool :=
  let s : State := boot 0 (fun b => { b with listening := true }) (inPhase 0 3 State.reset)
  let d : Die := 0
  decide (s.present d.toNat = true) &&
  decide ((bootOf s d.toNat).asserted = false) &&
  decide ((bootOf s d.toNat).phase = 3) &&
  decide ((bootOf s d.toNat).listening = true) &&
  decide (openDies s = [])

def met_beaconReceive : Bool :=
  let s : State := boot 2 (fun b => { b with listening := true }) (inPhase 2 3 up)
  let d : Die := 2
  let b : Beacon := ⟨0, 0, 0, false, 3⟩
  let v := bootOf s d.toNat
  decide (s.present d.toNat = true) &&
  decide (beaconTrue s b = true) &&
  decide (v.asserted = false) &&
  decide (b.sender.toNat ≠ d.toNat) &&
  decide (v.listening = true) &&
  decide (b.changing = false) &&
  decide (v.opened = false) &&
  decide (changing s d.toNat = false)

def met_readyListenTimeout : Bool :=
  let s : State := tick 1024 (boot 0 (fun b => { b with listening := true, ready := true }) (inPhase 0 9 State.reset))
  let d : Die := 0
  let v := bootOf s d.toNat
  let c := max s.now (v.listenAt + 1024 * (d.toNat + 1))
  decide (s.present d.toNat = true) &&
  decide (v.ready = true) &&
  decide (v.listening = true) &&
  decide (v.opened = false) &&
  decide (openDies s = []) &&
  decide (within s c = true)

def met_beaconMissing : Bool :=
  let s : State := { up with boots := [(0, openBoot false), (1, openBoot false)] }
  match ((openDies s).head? : Option (Nat)) with
  | none => false
  | some _ =>
  decide (masterDie s = none)

/-- Every clause of StartUpGoesPhaseByPhase has a state and operands that meet all its hypotheses. -/
theorem witness_StartUpGoesPhaseByPhase :
    [met_bootPhaseComplete_1, met_bootPhaseComplete_2, met_bootPhaseComplete_3, met_beaconListenTimeout, met_beaconReceive,
     met_readyListenTimeout, met_beaconMissing].all id = true := by decide +kernel

/-! ### BypassesOpenAndClose -/

def met_bypassOpen_1 : Bool :=
  let s : State := opening 0 true State.reset
  let d : Die := 0
  let n := d.toNat
  let b := bootOf s n
  match (b.openAt : Option (Nat)) with
  | none => false
  | some f =>
  decide (s.now = 256 * s.frame) &&
  decide (s.present n = true) &&
  decide (b.opened = false) &&
  decide (b.asserted = false) &&
  decide (f ≤ s.frame) &&
  decide (b.master = true) &&
  decide (openDies s = []) &&
  decide (s.frame % 16 = 0)

def met_bypassOpen_2 : Bool :=
  let s : State := opening 2 false up
  let d : Die := 2
  let n := d.toNat
  let b := bootOf s n
  match (b.openAt : Option (Nat)) with
  | none => false
  | some f =>
  match (masterDie s : Option (Nat)) with
  | none => false
  | some _ =>
  decide (s.now = 256 * s.frame) &&
  decide (s.present n = true) &&
  decide (b.opened = false) &&
  decide (b.asserted = false) &&
  decide (f ≤ s.frame) &&
  decide (b.master = false) &&
  decide (mayOpen s n = true)

def met_dieAnnounceReceive : Bool :=
  let s : State := tick 1024 up
  let d : Die := 1
  let n := d.toNat
  match (masterDie s : Option (Nat)) with
  | none => false
  | some m =>
  decide (s.present n = true) &&
  decide (dieOpen s n = true) &&
  decide (n ≠ m) &&
  decide ((bootOf s n).openedFrame + 4 ≤ s.frame)

def met_rstJoin_1 : Bool :=
  let s : State := inPhase 2 8 up
  let d : Die := 2
  let win : Win := 0
  let val : Word := 5
  let n := d.toNat
  decide (s.present n = true) &&
  decide (win = 0) &&
  decide (bit val 2 = true) &&
  decide (bit val 3 = false) &&
  decide (joinRefused s n = false)

def met_rstJoin_2 : Bool :=
  let s : State := up
  let d : Die := 0
  let win : Win := 0
  let val : Word := 5
  let n := d.toNat
  decide (s.present n = true) &&
  decide (win = 0) &&
  decide (bit val 2 = true) &&
  decide (joinRefused s n = true)

def met_rstLeave_1 : Bool :=
  let s : State := up
  let d : Die := 0
  let win : Win := 4
  let val : Word := 8
  decide (s.present d.toNat = true) &&
  decide (win ≠ 0) &&
  decide (bit val 3 = true)

def met_bypassClose : Bool :=
  let s : State := boot 0 (fun b => { b with closing := true, openAt := some 0 }) up
  let d : Die := 0
  let b := bootOf s d.toNat
  match (b.openAt : Option (Nat)) with
  | none => false
  | some f =>
  decide (s.now = 256 * s.frame) &&
  decide (s.present d.toNat = true) &&
  decide (b.closing = true) &&
  decide (f ≤ s.frame)

/-- Every clause of BypassesOpenAndClose has a state and operands that meet all its hypotheses; for rstLeave see below. -/
theorem witness_BypassesOpenAndClose :
    [met_bypassOpen_1, met_bypassOpen_2, met_dieAnnounceReceive, met_rstJoin_1, met_rstJoin_2, met_rstLeave_1, met_bypassClose].all id = true := by decide +kernel

/-! ### FirmwareImagesAreStagedAndVerified -/

def met_fwBegin : Bool :=
  let s : State := given' (host 0) 0x70 [] up
  let src : CmdSrc := host 0
  let d := src.die
  decide (given s src 0x70 = true) &&
  decide (src.win = some 0) &&
  decide (fwState s d ≠ 2 ∧ ¬ (5 ≤ fwState s d ∧ fwState s d ≤ 8)) &&
  decide (lifeCycle s d ≠ 3) &&
  decide (someScheduled s = false)

def met_fwBlock : Bool :=
  let s : State := given' (host 0) 0x71 [0, 0, 0, 0, 0] (image 0 1 none up)
  let src : CmdSrc := host 0
  let d := src.die
  let f := flashOf s d
  let i := cmdArgF s src 0 0 10
  decide (given s src 0x71 = true) &&
  decide (src.win = some 0) &&
  decide (i < bodyBlocks f.stagedHeader) &&
  decide (fwState s d = 1) &&
  decide (someScheduled s = false)

def met_fwVerify_1 : Bool :=
  let s : State := given' (host 0) 0x72 [] (image 0 1 none up)
  let src : CmdSrc := host 0
  let d := src.die
  decide (given s src 0x72 = true) &&
  decide (src.win = some 0) &&
  decide (fwState s d = 1) &&
  decide (bodyBlocks (flashOf s d).stagedHeader ≤ rf s d .fwStat 0 11) &&
  decide (someScheduled s = false)

def met_fwVerify_2 : Bool :=
  let s : State := given' (host 0) 0x72 [] (image 0 3 none up)
  let src : CmdSrc := host 0
  let d := src.die
  decide (given s src 0x72 = true) &&
  decide (src.win = some 0) &&
  decide (fwState s d ≠ 1 ∨ rf s d .fwStat 0 11 < bodyBlocks (flashOf s d).stagedHeader)

def met_fwVerifyDone : Bool :=
  let s : State := image 0 2 none up
  let d : Die := 0
  decide (s.present d.toNat = true) &&
  decide (fwState s d.toNat = 2)

def met_fwQuery : Bool :=
  let s : State := given' (host 0) 0x73 [] (image 0 3 none up)
  let src : CmdSrc := host 0
  decide (given s src 0x73 = true) &&
  decide (src.win = some 0)

def met_fwDiscard : Bool :=
  let s : State := given' (host 0) 0x76 [] (image 0 4 none up)
  let src : CmdSrc := host 0
  let d := src.die
  decide (given s src 0x76 = true) &&
  decide (src.win = some 0) &&
  decide (fwState s d = 1 ∨ fwState s d = 3 ∨ fwState s d = 4) &&
  decide (someScheduled s = false)

/-- Every clause of FirmwareImagesAreStagedAndVerified has a state and operands that meet all its hypotheses. -/
theorem witness_FirmwareImagesAreStagedAndVerified :
    [met_fwBegin, met_fwBlock, met_fwVerify_1, met_fwVerify_2, met_fwVerifyDone, met_fwQuery, met_fwDiscard].all id = true := by decide +kernel

/-! ### FirmwareActivationIsScheduledPolledAndRun -/

def met_fwSchedule_1 : Bool :=
  let s : State := given' (host 0) 0x74 [1000000, 0] bothVerified
  let src : CmdSrc := host 0
  let n := scheduleTime s src
  decide (given s src 0x74 = true) &&
  decide (src.win = some 0) &&
  decide ((List.range s.dies).all (fun e => dieOpen s e && fwState s e == 3 && (flashOf s e).stagedHeader == (flashOf s 0).stagedHeader && (SMap.find s.security.lcBusy e).isNone && !changing s e && lifeCycle s e != 3) = true) &&
  decide (s.pkgTime.toNat + 1000000 ≤ n) &&
  decide (n ≤ s.pkgTime.toNat + 2592000000000)

def met_fwSchedule_2 : Bool :=
  let s : State := given' (host 0) 0x74 [999999, 0] bothVerified
  let src : CmdSrc := host 0
  let n := scheduleTime s src
  decide (given s src 0x74 = true) &&
  decide (src.win = some 0) &&
  decide ((List.range s.dies).all (fun e => dieOpen s e && fwState s e == 3 && (flashOf s e).stagedHeader == (flashOf s 0).stagedHeader && (SMap.find s.security.lcBusy e).isNone && !changing s e && lifeCycle s e != 3) = true) &&
  decide (n < s.pkgTime.toNat + 1000000 ∨ s.pkgTime.toNat + 2592000000000 < n)

def met_fwCancel : Bool :=
  let s : State := given' (host 0) 0x75 [] (image 0 5 (some (10001, [])) up)
  let src : CmdSrc := host 0
  let d := src.die
  let mine := (List.range s.dies).filter (fun e => fwState s e == 5 && (e == d || (dieOpen s d && dieOpen s e)))
  decide (given s src 0x75 = true) &&
  decide (src.win = some 0) &&
  decide (mine ≠ []) &&
  decide (mine.all (fun e => s.pkgTime.toNat + 10000 < armedTime s e) = true)

def met_fwPoll : Bool :=
  let s : State := image 0 5 (some (10000, [])) up
  decide (polledDies s ≠ [])

def met_fwActivate : Bool :=
  let s : State := image 0 6 (some (0, [])) up
  let gone := (List.range s.dies).filter (fun d => fwState s d == 6 && decide (armedTime s d ≤ s.pkgTime.toNat))
  decide (gone ≠ [])

/-- Every clause of FirmwareActivationIsScheduledPolledAndRun has a state and operands that meet all its hypotheses. -/
theorem witness_FirmwareActivationIsScheduledPolledAndRun :
    [met_fwSchedule_1, met_fwSchedule_2, met_fwCancel, met_fwPoll, met_fwActivate].all id = true := by decide +kernel

/-! ### Witnesses that are proved, not evaluated -/

theorem get_append_of_ne (a m : SMap Word) (k : Nat) (d : Word) (h : ∀ e ∈ a, e.1 ≠ k) :
    SMap.get (a ++ m) k d = SMap.get m k d := by
  induction a with
  | nil => rfl
  | cons e r ih =>
    obtain ⟨x, v⟩ := e
    have hx : x ≠ k := h (x, v) (List.mem_cons_self ..)
    simp only [List.cons_append, SMap.get, if_neg hx]
    exact ih (fun e he => h e (List.mem_cons_of_mem _ he))

theorem get_map_const (l : List Nat) (f : Nat → Nat) (v d : Word) (x : Nat) (h : x ∈ l) :
    SMap.get (l.map (fun y => (f y, v))) (f x) d = v := by
  induction l with
  | nil => cases h
  | cons y r ih =>
    simp only [List.map_cons, SMap.get]
    by_cases hy : f y = f x
    · simp [hy]
    · rw [if_neg hy]
      cases h with
      | head => exact absurd rfl hy
      | tail _ hr => exact ih hr

/-- Registers that freeze every segment of die 0, after those of a list. -/
def frozenRegs (a : SMap Word) : SMap Word :=
  a ++ (dieSegs up 0).map (fun sg => (key (segDie sg) (.segCtl (sg % 65536)), word 1))

/-- With those registers and nothing booked every segment of die 0 is drained, where the list is about registers of command windows. -/
theorem drained_frozenRegs (s : State) (a : SMap Word) (hs : s.regs = frozenRegs a) (hb : s.fabric.booked = [])
    (ha : ∀ e ∈ a, 2 ^ 33 ≤ e.1 ∧ e.1 < 2 ^ 34) : (dieSegs up 0).all (drained s) = true := by
  rw [List.all_eq_true]
  intro sg hsg
  have hk : ∀ e ∈ a, e.1 ≠ key (segDie sg) (.segCtl (sg % 65536)) := by
    intro e he hek
    have h1 := ha e he
    have h2 : sg % 65536 < 65536 := Nat.mod_lt _ (by decide)
    simp only [key, Reg.code] at hek
    omega
  have hg : regGet s (segDie sg) (.segCtl (sg % 65536)) = word 1 := by
    rw [regGet, hs, frozenRegs, get_append_of_ne a _ _ _ hk]
    exact get_map_const (dieSegs up 0) (fun y => key (segDie y) (.segCtl (y % 65536))) (word 1) _ sg hsg
  simp only [drained, frozen, inflight, hg, hb, List.filter_nil, List.length_nil]
  decide

/-- The segments of a die are those of its package type. -/
theorem dieSegs_package (s t : State) (d : Nat) (h : s.package = t.package) : dieSegs s d = dieSegs t d := by
  have hd : s.dies = t.dies := by rw [State.dies, State.dies, h]
  have hc : clusterSegs s d = clusterSegs t d := by funext k; simp only [clusterSegs, hd]
  simp only [dieSegs, hc, hd]

/-- Die 0 with every segment frozen. -/
def frozenDie : State := { up with regs := frozenRegs [] }

/-- RST_CTL.LEAVE with every segment of the die drained. -/
theorem witness_rstLeave :
    frozenDie.present 0 = true ∧ bit (8 : Word) 3 = true ∧ bit (8 : Word) 2 = false ∧ leaveRefused frozenDie 0 = false := by
  refine ⟨by decide, by decide, by decide, ?_⟩
  have h := drained_frozenRegs frozenDie [] rfl rfl (by simp)
  have h2 : (dieSegs frozenDie 0).all (drained frozenDie) = true := by rw [dieSegs_package frozenDie up 0 rfl]; exact h
  have h3 : (bootOf frozenDie 0).phase = 9 := rfl
  have h4 : liveCtx frozenDie 0 = false := rfl
  simp [leaveRefused, h2, h3, h4]

/-- The words of slot 0 of window 0 that hold PERF_SET to level 2. -/
def perfSlot : SMap Word := [(2 ^ 33, 0x8000004A), (2 ^ 33 + 4, 2)]

/-- PERF_SET to be carried out in that slot, with die 0 alone open and its segments frozen. -/
def perfState : State :=
  { up with boots := [(0, openBoot true)], regs := frozenRegs perfSlot, sup := { up.sup with cmds := [(host 0, .dispatched)] } }

theorem witness_perfSet :
    (given perfState (host 0) 0x4A = true ∧ cmdArgF perfState (host 0) 0 0 3 = 2 ∧ (host 0).win = some 0 ∧ perfState.power.perf = []) ∧
      (openDies perfState).all (fun d => (dieSegs perfState d).all (drained perfState)) = true := by
  refine ⟨by decide +kernel, ?_⟩
  have h := drained_frozenRegs perfState perfSlot rfl rfl (by decide)
  have h1 : openDies perfState = [0] := by decide
  have h2 : (dieSegs perfState 0).all (drained perfState) = true := by rw [dieSegs_package perfState up 0 rfl]; exact h
  simp [h1, h2]

/-- A collation whose 64 rows have been read, its codeword not yet located: the clause's cycle lies in the frame whatever the
location gives. -/
theorem witness_collationDone :
    let s : State := up.onBanks (fun b => { b with collations := [⟨1, .reading 64, List.replicate 4608 0, 0, 9, 0, 0xFFFF⟩], classMap := [(1, .folio 0)] })
    s.present 0 = true ∧ (collationOf s 1).map (·.st) = some (.reading 64) ∧
      ∀ r : Option (List Nat), within s (max s.now (9 + 1 + (if r = some [] then 0 else folioT s 1))) = true := by
  refine ⟨by decide, by decide +kernel, ?_⟩
  intro r
  have h1 : rootStopped (up.onBanks (fun b => { b with collations := [⟨1, .reading 64, List.replicate 4608 0, 0, 9, 0, 0xFFFF⟩], classMap := [(1, .folio 0)] })) = false := rfl
  have h2 : folioT (up.onBanks (fun b => { b with collations := [⟨1, .reading 64, List.replicate 4608 0, 0, 9, 0, 0xFFFF⟩], classMap := [(1, .folio 0)] })) 1 = 16 := rfl
  have h3 : frameEnd (up.onBanks (fun b => { b with collations := [⟨1, .reading 64, List.replicate 4608 0, 0, 9, 0, 0xFFFF⟩], classMap := [(1, .folio 0)] })) = 256 := rfl
  have h4 : (up.onBanks (fun b => { b with collations := [⟨1, .reading 64, List.replicate 4608 0, 0, 9, 0, 0xFFFF⟩], classMap := [(1, .folio 0)] })).now = 0 := rfl
  simp only [within, h1, h2, h3, h4]
  split <;> decide

/-- A message that finds the staging area of its die full: a staged message of 4,194,304 bytes. -/
theorem witness_stagingFull (p : List Byte) (hp : p.length = 4194304) :
    let s : State := stagedOne { put4 with payload := p } node5
    s.present 0 = true ∧ domUp s 0 46 = true ∧ put4.kind ≠ 4 ∧ put4.kind ≠ 5 ∧ put4.sealedFlag = false ∧ nodeOf s 0 ≠ 0x7FFF ∧
      2 ^ 22 < ((s.remote.staged.filter (fun m => m.die == 0)).map (fun m => m.msg.payload.length)).foldl (· + ·) 0
        + put4.payload.length := by
  refine ⟨rfl, rfl, by decide, by decide, rfl, (show nodeOf node5 0 ≠ 0x7FFF by decide +kernel), ?_⟩
  simp [stagedOne, State.onRemote, put4, hp]

/-- There are such bytes. -/
theorem witness_stagingFull_bytes : (List.replicate 4194304 (0 : Byte)).length = 4194304 := List.length_replicate

/-! ### The statements about steps, frames and words -/

/-- A state with a queue, a stored byte and two counters. -/
def queued2 : State :=
  { up with
    pending := [.frameStart, .beaconMissing], banks := { up.banks with mem := [(3, 9), (70, 1)] },
    fabric := { up.fabric with counters := [(1, 2), (5, 6)] } }

/-- StepTakesTheFrontCommand and EmptyQueueIdlesOneCycle. -/
theorem witness_steps : queued2.pending = .frameStart :: [.beaconMissing] ∧ up.pending = [] := ⟨rfl, rfl⟩
/-- EveryStepKeepsTheClock. -/
theorem witness_clock : clockInv queued2 ∧ (∃ t, step queued2 = .next t) := ⟨⟨rfl, Nat.le_refl _⟩, _, rfl⟩
/-- EveryStepKeepsTheCanonicalForms, with bytes listed. -/
theorem witness_memory : Mem.wf queued2.banks.mem = true ∧ (∃ t, step queued2 = .next t) := ⟨by decide, _, rfl⟩
/-- EveryStepKeepsTheCanonicalForms, with counters listed. -/
theorem witness_counters : rises queued2.fabric.counters = true ∧ (∃ t, step queued2 = .next t) := ⟨by decide, _, rfl⟩
/-- DieHeldInResetIsNeverOpen. -/
theorem witness_held : resetInv State.reset ∧ (∃ t, step State.reset = .next t) := ⟨fun _ _ => rfl, _, rfl⟩
/-- NoSignalLaneHoldsMoreThan128Tokens, with two tokens in one lane. -/
theorem witness_lanes :
    let s : State := up.onStreams (fun t => { t with
      tokens := [⟨1, .release 9, 0, 0, some 7, []⟩, ⟨2, .release 9, 0, 0, some 7, [8]⟩], nextToken := 2 })
    laneInv s ∧ (∃ t, step s = .next t) := by
  refine ⟨⟨fun l => ?_, by decide, by decide⟩, _, rfl⟩
  exact Nat.le_trans (List.length_filter_le _ _) (by decide)
/-- EveryCommandOfPresentDiesCompletes: both clauses. -/
theorem witness_present :
    (namedDies (.powerOn 7)).all up.present = true ∧ (namedDies (.powerOn 4)).all { up with package := .zarun4 }.present = false := by
  decide
/-- EveryCommandKeepsWhatItDoesNotTouch: FRAME_START leaves the pages. -/
theorem witness_parts : (∃ t, exec .frameStart up = .next t) ∧ StatePart.pages ∉ touches .frameStart := ⟨⟨_, rfl⟩, by decide⟩
/-- The passing of cycles leaves them too. -/
theorem witness_time : StatePart.pages ∉ timeParts := by decide
/-- RegistersNotNamedStayUnchanged. -/
theorem witness_registers :
    mayWriteRegs up (.tamperEnd 0 3) = some [key 0 .secAlarm] ∧ (∃ t, exec (.tamperEnd 0 3) up = .next t) ∧
      key 0 .lcStat ∉ [key 0 .secAlarm] := ⟨rfl, ⟨_, rfl⟩, by decide⟩
/-- BytesOutsideTheRowAreKept: REMAP_COPY and an address outside its row. -/
theorem witness_bytes : (∃ t, exec (.remapCopy 5 3) up = .next t) ∧ outside 0 (rowAddr 5 2051) 72 := by
  refine ⟨⟨_, rfl⟩, ?_⟩
  left; decide
/-- BytesOutsideTheRowAreKept: a GIVE that a queue engine takes in its turn and whose port B meets no access of port A. -/
theorem witness_portB :
    let s : State := opIs (op1 (.give 0 0x00ABCDEF)) shared
    let o : QOp := op1 (.give 0 0x00ABCDEF)
    s.queues.ops.find? (fun o => o.id == 1 && !o.done) = some o ∧ ringShut s o.issuer.die o.kind.die = false ∧
      domUp s o.kind.die 47 = true ∧ (opTurn s o).any (fun k =>
        (o.kind.portB s o.ten.toNat o.issuer.notice).any (fun p => (lineAccs k.2 p.1).isEmpty)) = true := by decide +kernel
/-- OnlyWindowZeroRulesTheDie: TEN_OPEN of host window 1. -/
theorem witness_window0 :
    zeroCommand (given' (host 1) 0x30 [5] (wreg 0 (.tenStat 1) 0x40000000 up)) (.tenOpen (host 1)) = some (host 1, 0x30) ∧
      given (given' (host 1) 0x30 [5] (wreg 0 (.tenStat 1) 0x40000000 up)) (host 1) 0x30 = true ∧ (host 1).win ≠ some 0 := by decide +kernel
/-- StatusWordHoldsItsFields at the largest code and detail, ByteCheckBitsAreEvenParity at the last bit. -/
theorem witness_words : (255 < 256 ∧ 65535 < 65536) ∧ 7 < 8 := by decide
/-- MergeStatReadsTheEntriesHeld: MERGE_STAT of cluster 15 with one entry held. -/
theorem witness_mergeStat :
    let s : State := up.onBanks (fun b => { b with merge := [⟨7, 15 * 2 ^ 20, [], [], 3, false, [], false⟩] })
    s.present 0 = true ∧ isPage 0x3E004 = false ∧ Reg.decode s.dies 0 0x3E004 = some (.mergeStat 15) ∧
      domUp s 0 (xbarDomain 15) = true ∧ (mergeOfCluster s 0 15).length = 1 := by decide +kernel

/-- SealedMessagesOpenAtTheirPeer: a message of 4 bytes that die 0 seals with key 3 of tenancy 2, and inbound window 0 of die 1 with
key 0 of tenancy 5, which is the same. -/
theorem witness_seals :
    let s : State := up.onSecurity (fun u => { u with keySlots := [(keyIdx 0 2 3, 77), (keyIdx 1 5 0, 77)] })
    (∃ r, sealMsg s 0 2 3 put4 = some r) ∧ keyOf s 1 5 (rf s 1 (.rinCfg put4.dwin.toNat) 12 5) = keyOf s 0 2 3 :=
  ⟨⟨_, rfl⟩, rfl⟩
/-- WrittenOnesClearWhatHardwareHasNotSetNow: the highest bit of a field that ends at bit 31, set by the hardware in cycle 5 and written
in cycle 4. -/
theorem witness_ones :
    let s : State := tick 4 (up.onSup (fun u => { u with w1cSet := [(w1cKey 0 .secAlarm 31, 5)] }))
    (24 + 8 ≤ 32 ∧ 31 < 32) ∧ (SMap.find s.sup.w1cSet (w1cKey 0 .secAlarm 31)).any (fun c => c / 2 == s.now / 2) = true := by decide

end Sys2Proof.Tests
end

section
/-! PROOFS. Words: the status word (R10). -/

namespace Sys2Proof.Proofs

open Sys2Proof Sys2Proof.Machine

/-! ### Placed parts and single bits -/

theorem toNat_word_of_lt {n : Nat} (h : n < 2 ^ 32) : (word n).toNat = n := by
  rw [word, BitVec.toNat_ofNat, Nat.mod_eq_of_lt h]

theorem put_of_lt {lo n v : Nat} (h : v < 2 ^ n) : put lo n v = v * 2 ^ lo := by
  rw [put, Nat.mod_eq_of_lt h]

theorem putB_eq_toNat_mul (i : Nat) (b : Bool) : putB i b = b.toNat * 2 ^ i := by
  cases b <;> simp [putB]

/-- A bit is the field of width 1 at its place. -/
theorem bit_eq_of_field_eq_toNat {w : Word} {i : Nat} {b : Bool} (h : field w i 1 = b.toNat) : bit w i = b := by
  rw [field, Nat.pow_one] at h
  rw [bit, Nat.testBit_eq_decide_div_mod_eq, h]
  cases b <;> rfl

/-! ### The status word -/

/-- The parts of a status word do not overlap and none is cut off: the word is their sum, each part at its place. -/
theorem toNat_stWord {code detail : Nat} (corrected late already : Bool) (hcode : code < 2 ^ 8) (hdetail : detail < 2 ^ 16) :
    (stWord code detail corrected late already).toNat =
      detail * 2 ^ 16 + corrected.toNat * 2 ^ 10 + late.toNat * 2 ^ 9 + already.toNat * 2 ^ 8 + code := by
  have hcorrected := corrected.toNat_lt
  have hlate := late.toNat_lt
  have halready := already.toNat_lt
  rw [stWord, put_of_lt hdetail, put_of_lt hcode, putB_eq_toNat_mul, putB_eq_toNat_mul, putB_eq_toNat_mul, Nat.pow_zero,
    Nat.mul_one]
  exact toNat_word_of_lt (by omega)

/-- Settles O57: a flag is a field of width 1, and each field is what division and remainder leave of the sum of the parts. -/
theorem statusWordHoldsItsFields : Obligations.StatusWordHoldsItsFields := by
  intro code detail corrected late already hcode hdetail
  have hcorrected := corrected.toNat_lt
  have hlate := late.toNat_lt
  have halready := already.toNat_lt
  have hsum := toNat_stWord corrected late already hcode hdetail
  refine ⟨?detail, ?reserved, bit_eq_of_field_eq_toNat ?corrected, bit_eq_of_field_eq_toNat ?late,
    bit_eq_of_field_eq_toNat ?already, ?code⟩
  all_goals
    rw [field, hsum]
    omega

end Sys2Proof.Proofs
end

section
/-! PROOFS. The protection codes: the check bytes under BYTE (R139). -/

namespace Sys2Proof.Proofs

open Sys2Proof Sys2Proof.Machine

/-! ### Numbers made of single bits -/

/-- The number whose bit j is `f j`, for the bits below `n`: the sum that a check byte is made of. -/
def sumOfBits (f : Nat → Bool) (n : Nat) : Nat := ((List.range n).map (fun j => putB j (f j))).foldl (· + ·) 0

theorem sumOfBits_succ (f : Nat → Bool) (n : Nat) : sumOfBits f (n + 1) = sumOfBits f n + (f n).toNat * 2 ^ n := by
  simp [sumOfBits, List.range_succ, putB_eq_toNat_mul]

theorem sumOfBits_lt (f : Nat → Bool) (n : Nat) : sumOfBits f n < 2 ^ n := by
  induction n with
  | zero => simp [sumOfBits]
  | succ n ih =>
    rw [sumOfBits_succ]
    cases f n <;> simp <;> omega

/-- The highest part reaches no lower bit, and the lower parts carry into no higher one. -/
theorem testBit_sumOfBits (f : Nat → Bool) {n j : Nat} (hj : j < n) : (sumOfBits f n).testBit j = f j := by
  induction n with
  | zero => omega
  | succ n ih =>
    have hlow := sumOfBits_lt f n
    rw [sumOfBits_succ, Nat.add_comm, Nat.mul_comm, Nat.testBit_two_pow_mul_add _ hlow]
    split
    · next h => exact ih h
    · next h =>
      obtain rfl : j = n := by omega
      cases hf : f j <;> simp

/-! ### Parity -/

/-- Taking the XOR of bits one after another finds whether an odd number of them is set. -/
theorem foldl_xor_eq_odd_count (p : Nat → Bool) (l : List Nat) (acc : Bool) :
    l.foldl (fun acc k => acc ^^ p k) acc = (acc ^^ (l.filter p).length % 2 == 1) := by
  induction l generalizing acc with
  | nil => simp
  | cons k l ih =>
    rw [List.foldl_cons, ih]
    cases hk : p k with
    | false => simp [hk]
    | true =>
      obtain heven | hodd := Nat.mod_two_eq_zero_or_one (l.filter p).length
      · simp [hk, Nat.add_mod, heven]
      · simp [hk, Nat.add_mod, hodd]

theorem parityOf_eq_foldl_xor (b : Byte) :
    parityOf b = (List.range 8).foldl (fun acc k => acc ^^ b.toNat.testBit k) false := by
  rw [foldl_xor_eq_odd_count, Bool.false_xor, parityOf, weight8]

/-! ### The check bytes -/

theorem toNat_byteCheck (data : List Byte) (i : Nat) :
    (byteCheck data i).toNat = sumOfBits (fun j => parityOf (data.getD (8 * i + j) 0)) 8 :=
  (BitVec.toNat_ofNat _ 8).trans (Nat.mod_eq_of_lt (sumOfBits_lt _ 8))

/-- Settles O56: a check byte is the number made of the 8 parities, and a parity is the XOR of the bits. -/
theorem byteCheckBitsAreEvenParity : Obligations.ByteCheckBitsAreEvenParity := by
  intro data i j hj
  rw [toNat_byteCheck, testBit_sumOfBits _ hj, parityOf_eq_foldl_xor]

end Sys2Proof.Proofs
end

section
/-! PROOFS. What a read of MERGE_STAT answers (R162, R319). -/

namespace Sys2Proof.Proofs

open Sys2Proof Sys2Proof.Machine Sys2Proof.Claims

/-! ### Reads of a register that is no half of a pair -/

theorem offsetRead_of_decode {s : State} {d w o : Nat} {r : Reg} (hpage : isPage o = false)
    (hreg : Reg.decode s.dies w o = some r) : offsetRead s d w o = regRead s d w r := by
  simp [offsetRead, hpage, hreg]

/-- Log 41: at a register that is no half of a pair, REGISTER_PAIR_READ is a plain read. -/
theorem registerPairRead_of_unpaired {s : State} {d : Die} {win : Win} {off : Word} {r : Reg}
    (hdie : s.present d.toNat = true) (hpage : isPage off.toNat = false)
    (hreg : Reg.decode s.dies win.toNat off.toNat = some r) (hpair : Reg.pairOf r = none) :
    ∃ t, exec (.registerPairRead d win off) s = .next t ∧
      t.out = .regRead d win off (regRead s d.toNat win.toNat r) :: s.out := by
  refine ⟨s.emitOut (.regRead d win off (regRead s d.toNat win.toNat r)), ?runs, rfl⟩
  change execRegisterPairRead d win off s = _
  simp only [execRegisterPairRead, hreg, hpair, Option.bind_some, Option.map_none, offsetRead_of_decode hpage hreg]
  exact if_pos (by simp [hdie])

theorem regRead_of_isUnsafe {s : State} {d : Nat} {r : Reg} (w : Nat) (h : isUnsafe s d r = true) : regRead s d w r = 0 := by
  simp [regRead, h]

/-! ### MERGE_STAT -/

/-- R162, of a MERGE_STAT that is not marked unsafe: PEND to host window 0, and 0 to any other. -/
theorem regRead_mergeStat {s : State} {d k : Nat} (win : Win) (hup : domUp s d (xbarDomain k) = true)
    (hsafe : isUnsafe s d (.mergeStat k) = false) :
    regRead s d win.toNat (.mergeStat k) = if win = 0 then word (put 0 7 (mergeOfCluster s d k).length) else 0 := by
  have hdomain : regUp s d (.mergeStat k) = domUp s d (xbarDomain k) := rfl
  have hreader : mayRead s d win.toNat (.mergeStat k) = (win.toNat == 0) := rfl
  simp [regRead, hdomain, hup, hsafe, hreader, regValue, BitVec.toNat_eq]

/-- PEND holds every count up to 64, and the bits above it are 0. -/
theorem fields_pend {n : Nat} (h : n ≤ 64) : field (word (put 0 7 n)) 7 25 = 0 ∧ field (word (put 0 7 n)) 0 7 = n := by
  have hword : (word (put 0 7 n)).toNat = n := by
    rw [put_of_lt (by omega), Nat.pow_zero, Nat.mul_one, toNat_word_of_lt (by omega)]
  rw [field, field, hword]
  omega

/-- What the statement of O58 says of every state holds of every one in which MERGE_STAT itself is not marked unsafe. -/
theorem mergeStat_read_of_not_isUnsafe {s : State} {d : Die} {win : Win} {off : Word} {k : Nat}
    (hdie : s.present d.toNat = true) (hpage : isPage off.toNat = false)
    (hreg : Reg.decode s.dies win.toNat off.toNat = some (.mergeStat k)) (hup : domUp s d.toNat (xbarDomain k) = true)
    (hfull : (mergeOfCluster s d.toNat k).length ≤ 64) (hsafe : isUnsafe s d.toNat (.mergeStat k) = false) :
    Runs (.registerPairRead d win off) s fun t => ∃ v : Word, t.out = .regRead d win off v :: s.out ∧
      field v 7 25 = 0 ∧ field v 0 7 = if win = 0 then (mergeOfCluster s d.toNat k).length else 0 := by
  obtain ⟨t, hrun, hout⟩ := registerPairRead_of_unpaired hdie hpage hreg rfl
  refine ⟨t, hrun, _, hout, ?_⟩
  rw [regRead_mergeStat _ hup hsafe]
  split
  · exact fields_pend hfull
  · decide

/-- A domain that is UP. -/
def domainUp : Dom := ⟨.up, false, false, none, 0⟩

/-- Cluster 0 of die 0 with its crossbar group UP and one entry held, on line 0, and with its MERGE_STAT marked unsafe. HARDEN_LOST
marks hardened registers alone (R317, R319) and MERGE_STAT is none, but the statement of O58 has no premise that says so. -/
def unsafeMergeStat : State :=
  { State.reset with
    power := { State.reset.power with doms := [(domKey 0 (xbarDomain 0), domainUp)] }
    banks := { State.reset.banks with merge := [⟨0, 0, [], [], 0, false, [], false⟩] }
    replicas := { State.reset.replicas with unsafeRegs := [(key 0 (.mergeStat 0), true)] } }

/-- Refutes O58: a register marked unsafe reads 0 (R319), and the statement's premises do not shut out a MERGE_STAT so marked. In
`unsafeMergeStat` host window 0 reads 0 where the cluster holds one entry. -/
theorem not_mergeStatReadsTheEntriesHeld : ¬ Obligations.MergeStatReadsTheEntriesHeld := by
  intro h
  have hdie : unsafeMergeStat.present (0 : Die).toNat = true := by decide
  have hpage : isPage (0x20004 : Word).toNat = false := by decide
  have hreg : Reg.decode unsafeMergeStat.dies (0 : Win).toNat (0x20004 : Word).toNat = some (.mergeStat 0) := by decide
  have hup : domUp unsafeMergeStat (0 : Die).toNat (xbarDomain 0) = true := by decide
  have hunsafe : isUnsafe unsafeMergeStat (0 : Die).toNat (.mergeStat 0) = true := by decide
  have hheld : (mergeOfCluster unsafeMergeStat (0 : Die).toNat 0).length = 1 := by decide
  obtain ⟨t, hrun, v, hout, -, hpend⟩ := h unsafeMergeStat 0 0 0x20004 0 hdie hpage hreg hup (by omega)
  obtain ⟨t', hrun', hout'⟩ := registerPairRead_of_unpaired hdie hpage hreg rfl
  have hsame : t = t' := Host.Outcome.next.inj (hrun.symm.trans hrun')
  have hzero : v = 0 := by
    rw [hsame, hout', regRead_of_isUnsafe _ hunsafe] at hout
    simpa using hout.symm
  rw [hzero, if_pos rfl, hheld] at hpend
  exact absurd hpend (by decide)

end Sys2Proof.Proofs
end
